-- ==== Sys2Proof/Word.lean ====
section
/-! DEFINITION. The plainest types: what the manual treats as bits is a bit vector, everything else is a number. -/
namespace Sys2Proof

/-- A byte of a serial stream, a signature or a mask. -/
abbrev Byte := BitVec 8

/-- A counter of the module: it counts modulo 65,536 (00, Counters). -/
abbrev Count := BitVec 16

/-- Text as it stands on a command line: labels and words. -/
abbrev Text := List Char

end Sys2Proof
end

