-- ==== Sys2Proof/Config.lean ====
section
/-! DEFINITION. What is fixed for the module: its capacities, and the values the manual leaves open (free values: constants
with no body, so that nothing can be proved of what they are). -/
namespace Sys2Proof.Config

/-- Line records in the table (R1). -/
def maxLines : Nat := 40
/-- Slots of the breakpoint pool (R21). -/
def poolSlots : Nat := 1536
/-- Entries of the re-check queue (R82). -/
def queueEntries : Nat := 16
/-- Queue length at which backlog turns on (R92). -/
def backlogOn : Nat := 12
/-- Queue length at or below which backlog may turn off (R92). -/
def backlogOff : Nat := 4
/-- Breakpoints of a profile and breakpoint slots of a draft (R4, R65). -/
def maxBreakpoints : Nat := 64
/-- Spans of a span list and span slots of a draft (R6, R65). -/
def maxSpans : Nat := 6
/-- Levels of the line forest (R18). -/
def maxLevels : Nat := 3
/-- Characters of a command line (R163). -/
def lineChars : Nat := 160
/-- Characters of a label (R2). -/
def labelChars : Nat := 16
/-- The longest pause between two bytes of a frame, in ms (R35). -/
def frameGap : Nat := 2
/-- How far the chainage may lie above F at RESUME, in mm (R117). -/
def resumeGap : Int := 200
/-- Bound of the position, in micrometres either way (R97). -/
def positionLimit : Int := 2400000000
/-- The top of GRADE_COUNT's range, where the grade count stops rising (R142). -/
def gradeCountTop : Nat := 50
/-- The largest worst deviation recorded (R8). -/
def worstTop : Int := 120
/-- The most pairs of one PUT or MORE (R68). -/
def putPairs : Nat := 8

/-- FREE VALUE (log 5): how many more of its tests a plan check in flight has made when an input of checks is about to change.
R43 lets the check read each input at any moment between its start and its completion. -/
opaque checkReads : Nat → Nat

/-- FREE VALUE (log 6): the levels of the odometer's channels A and B at the end of a restart, which the unit takes as its
reference (R96). Movement during the restart is lost, so they need not be the levels held before it. -/
opaque odoLevels : Nat → Bool × Bool

/-- FREE VALUE (log 7): the number of the version of the module's program, which IDENT reports (R170). -/
opaque programVersion : Nat

end Sys2Proof.Config
end

