-- ==== Sys2Proof/Syntax.lean ====
section
/-! DEFINITION. The rows of the opcode table, one constructor each, with their operands. -/
namespace Sys2Proof

/-- The two command ports (10). -/
inductive Port
  | cab
  | plan
deriving DecidableEq, Repr

/-- The two odometer channels (06, 6.1). -/
inductive Channel
  | a
  | b
deriving DecidableEq, Repr

/-- The input line buffer of a port (R163). -/
structure LineBuffer where
  /-- The characters added so far. -/
  chars : Text
  /-- A bad byte has marked the line. -/
  bad : Bool
  /-- The 161st character has marked the line over-length. -/
  tooLong : Bool
deriving DecidableEq, Repr

/-- The rows of spec/opcode_table.json. A row of a command line carries the port and the words of the line after the command's
name (for a station command the station number and the words after its verb, for HEAD the words after the field word);
UNKNOWN_COMMAND carries all the words. FRAME_COMPLETE carries the five bytes after the marker. -/
inductive Instr
  /-- COMMAND_LINE_BAD (R163): A line ended by LF that holds a bad byte or is over-length is refused SYNTAX without its content being examined. -/
  | commandLineBad (port : Port)
  /-- EMPTY_LINE (R163): A line holding no characters, or spaces alone, is discarded without a reply or any effect on the port. -/
  | emptyLine (port : Port)
  /-- UNKNOWN_COMMAND (R164): A command line whose first word names no command is refused SYNTAX by the Port unit. -/
  | unknownCommand (port : Port) (words : List Text)
  /-- LINE_WHILE_BUSY (R166): A line whose LF is taken while the port is busy is discarded unexamined and sets the port's overrun flag. -/
  | lineWhileBusy (port : Port)
  /-- REPLY_SENT (R165): When the last character of a reply has been sent, the command in hand ends and the port's lapse timer restarts; if the overrun flag is set, NO OVERRUN follows. -/
  | replySent (port : Port)
  /-- CLAIM (R60): Claims a line id or reserves a free id for the port, empties the draft and starts the lapse timer. -/
  | claim (port : Port) (args : List Text)
  /-- RELEASE (R64): Gives up the port's claim, any reservation and the draft, and stops the lapse timer. -/
  | release (port : Port) (args : List Text)
  /-- CLAIM_LAPSE_EXPIRY (R63): The port's lapse timer runs out: the claim slot empties, any reservation is given up, the draft is emptied, and LAPSE is raised on that port alone. -/
  | claimLapseExpiry (port : Port)
  /-- OPEN (R66): Fills the port's draft from the claimed line's staged revision, its current profile, or with every slot absent for a free id, and sets the base revision. -/
  | openDraft (port : Port) (args : List Text)
  /-- WINDOW (R67): Sets the draft's window to first..last and puts the cursor at first. -/
  | window (port : Port) (args : List Text)
  /-- PUT (R68): Writes 1 to 8 breakpoint pairs into the draft from the window's first index, stopping at the window's last index. -/
  | put (port : Port) (args : List Text)
  /-- MORE (R68): Writes 1 to 8 breakpoint pairs into the draft from the cursor, stopping at the window's last index. -/
  | more (port : Port) (args : List Text)
  /-- CUT (R69): Makes every draft breakpoint slot from the index up to 63 absent. -/
  | cut (port : Port) (args : List Text)
  /-- SPAN (R70): Sets a draft span slot to the given values, or makes it absent with OFF. -/
  | span (port : Port) (args : List Text)
  /-- HEAD_PARENT (R71): Sets or removes the draft's parent. -/
  | headParent (port : Port) (args : List Text)
  /-- HEAD_JUNCTION (R71): Sets or removes the draft's junction. -/
  | headJunction (port : Port) (args : List Text)
  /-- HEAD_LABEL (R71): Sets or removes the draft's label. -/
  | headLabel (port : Port) (args : List Text)
  /-- DISCARD (R72): Empties the port's draft and keeps the claim. -/
  | discard (port : Port) (args : List Text)
  /-- COMMIT (R73): Tests the draft and the claim; if the tests pass, the commit goes in flight and its plan check is asked for. -/
  | commit (port : Port) (args : List Text)
  /-- COMMIT_COMPLETION (R74): At the completion of a commit's plan check, the failure is answered, or the completion tests are made and the draft is written. -/
  | commitCompletion (port : Port)
  /-- RETIRE (R80): Removes the claimed line from the table, returns its pool slots and empties the claim. -/
  | retire (port : Port) (args : List Text)
  /-- RECHECK (R81): Marks a PLANNED or ACTIVE line STALE on request and hands it to the Re-check unit. -/
  | recheck (port : Port) (args : List Text)
  /-- CHECK_START (R86): With no check in flight, the Re-check unit starts the check of the oldest queued line, or of the next STALE line the scan finds. -/
  | checkStart
  /-- RECHECK_COMPLETION (R88): At a re-check's completion the result is dropped if discarded, or the line is written CHECKED, or CONFLICT with CONFLICT raised. -/
  | recheckCompletion
  /-- STATION_DEFINE (R29): Brings an UNDEFINED station into service with a signature and an optional label. -/
  | stationDefine (port : Port) (args : List Text)
  /-- STATION_PLANE (R30): Sets a station's plane correction and, if the value changed, marks the lines naming the station STALE. -/
  | stationPlane (port : Port) (args : List Text)
  /-- STATION_WITHDRAW (R31): Takes an IN_SERVICE station out of use, removes its last strike and marks the lines naming it STALE. -/
  | stationWithdraw (port : Port) (args : List Text)
  /-- STATION_RESTORE (R32): Returns a WITHDRAWN station to service and marks the lines naming it STALE. -/
  | stationRestore (port : Port) (args : List Text)
  /-- STATION_FORGET (R33): Empties the slot of a WITHDRAWN station that no PLANNED or ACTIVE line names. -/
  | stationForget (port : Port) (args : List Text)
  /-- STATION_READ (R42): Replies with the record of one station slot, including the age of its last strike. -/
  | stationRead (port : Port) (args : List Text)
  /-- COUNTERS (R41): Replies with the link counters, ODO_INVALID and the six accepted counts. -/
  | counters (port : Port) (args : List Text)
  /-- ZERO_COUNTERS (R41): Sets every counter that COUNTERS reports to 0. -/
  | zeroCounters (port : Port) (args : List Text)
  /-- FRAME_COMPLETE (R36): A complete six-byte strike frame is judged for soundness and fault, then matched, accepted and routed, or counted and discarded. -/
  | frameComplete (signature flags offsetHigh offsetLow check : Byte)
  /-- FRAME_FRAMING_ERROR (R35): A byte with a framing error abandons a frame in collection, counting it in LINK_BAD, and hunting resumes. -/
  | frameFramingError
  /-- FRAME_GAP_TIMEOUT (R35): More than 2 ms between two bytes of a frame abandons it, counting it in LINK_BAD, and hunting resumes. -/
  | frameGapTimeout
  /-- ODO_VALID_TRANSITION (R95): A valid odometer transition is taken as the reference and, according to ODO_DECODE, gives a forward count, a reverse count or none. -/
  | odoValidTransition (channel : Channel)
  /-- ODO_INVALID_TRANSITION (R96): A transition of both channels at once adds 1 to ODO_INVALID and gives no count. -/
  | odoInvalidTransition
  /-- STRIKE_TIMER_EXPIRY (R122): The strike timer's deadline passes while the run is CUTTING, and the run enters COASTING. -/
  | strikeTimerExpiry
  /-- SELECT (R112): Makes a PLANNED, CHECKED line ACTIVE and arms the run on it. -/
  | select (port : Port) (args : List Text)
  /-- DESELECT (R113): Returns the ACTIVE line to PLANNED from ARMED and sets the run IDLE. -/
  | deselect (port : Port) (args : List Text)
  /-- TIE (R114): Sets up a tie wait for a strike from span 0's station, with a deadline. -/
  | tie (port : Port) (args : List Text)
  /-- TIE_WAIT_DEADLINE (R114): The deadline of a TIE or RETIE wait passes with no strike, and the reply is NO NOSTRIKE. -/
  | tieWaitDeadline
  /-- SUSPEND (R116): Stops a CUTTING or COASTING run with reason OPERATOR and withdraws the travel permit. -/
  | suspend (port : Port) (args : List Text)
  /-- RESUME (R117): Restarts the dig from SUSPENDED or HALTED after its tests, advancing F where the chainage exceeds it. -/
  | resume (port : Port) (args : List Text)
  /-- RETIE (R119): Sets up a wait for a strike to preset the chainage to the given value. -/
  | retie (port : Port) (args : List Text)
  /-- ABANDON (R121): Gives up the ACTIVE line: closes OPEN segments, sets it ABANDONED, ends the run, and marks its children. -/
  | abandon (port : Port) (args : List Text)
  /-- MARK (R104): Arms mark n at a chainage with effect REPORT or SUSPEND, or disarms it with OFF. -/
  | mark (port : Port) (args : List Text)
  /-- SETTLE (R153): Settles the staged revision, or applies it at once while the run is stopped or ARMED. -/
  | settle (port : Port) (args : List Text)
  /-- UNSETTLE (R154): Returns a SETTLED staged revision to UNSETTLED. -/
  | unsettle (port : Port) (args : List Text)
  /-- UNSTAGE (R155): Discards the ACTIVE line's staged revision with reason UNSTAGE. -/
  | unstage (port : Port) (args : List Text)
  /-- TRIM (R162): Sets the trim, or starts a new trim ramp from the effective trim at F. -/
  | trim (port : Port) (args : List Text)
  /-- IDENT (R170): Replies with the vendor, part, version and capacities. -/
  | ident (port : Port) (args : List Text)
  /-- LINES (R168): Replies with one record per line, optionally filtered by lifecycle. -/
  | lines (port : Port) (args : List Text)
  /-- LINE (R169): Replies with a line record, or with this port's draft header. -/
  | line (port : Port) (args : List Text)
  /-- PROFILE (R169): Replies with the breakpoints of the current profile, staged revision or draft in an index range. -/
  | profile (port : Port) (args : List Text)
  /-- SPANS (R169): Replies with the spans of the current list, staged revision or draft. -/
  | spans (port : Port) (args : List Text)
  /-- RUN (R169): Replies with the run record. -/
  | run (port : Port) (args : List Text)
  /-- QUEUE (R94): Replies with the state of the Re-check unit. -/
  | queue (port : Port) (args : List Text)
  /-- SETTINGS (R176): Replies with one record per setting. -/
  | settings (port : Port) (args : List Text)
  /-- EVENTS (R168): Replies with this port's event set, its mask and its claim slot. -/
  | events (port : Port) (args : List Text)
  /-- ACK (R172): Clears the named event kinds, or all kinds, in this port's event set. -/
  | ack (port : Port) (args : List Text)
  /-- MASK (R173): Puts an event kind into this port's mask, or takes it out. -/
  | mask (port : Port) (args : List Text)
  /-- SET (R177): Changes one setting after its tests; a changed group-A setting marks every PLANNED line STALE. -/
  | set (port : Port) (args : List Text)
  /-- RESTART (R182): Replies OK and then restarts the module. -/
  | restart (port : Port) (args : List Text)
  /-- CLEARSTORE (R183): Removes every line, sets all stations UNDEFINED and all settings to their defaults, and resets the volatile state. -/
  | clearstore (port : Port) (args : List Text)
  /-- POWER_ON (R181): The supply returns after a loss and the module restarts through the ordered restart steps. -/
  | powerOn
  /-- SUPPLY_LOSS (R181): The supply stays below 9 V for 10 ms or longer; the module finishes any store write begun and stops. -/
  | supplyLoss
  /-- RESET_INPUT (R181): The RESET input held low for 50 ms or longer restarts the module. The row stands for either end of the pulse, by the
  model's choice (log 33): with the input high, it has now been low for 50 ms; with the input low, it is now high again and the restart can
  proceed. -/
  | resetInput
  /-- RECEIVER_LINK_BYTE (R35): A byte arrives on the receiver link: while hunting it is discarded unless it is the 0xC3 marker, which starts a frame, and during collection it is taken as the next byte of the frame. -/
  | receiverLinkByte (byte : Byte)
  /-- COMMAND_PORT_BYTE (R163): A byte other than LF arrives on a command port: CR is discarded, space or a visible character is added to the line, any other byte marks the line bad, and the 161st character marks it over-length. -/
  | commandPortByte (port : Port) (byte : Byte) (framingError : Bool)
deriving DecidableEq, Repr

end Sys2Proof
end

