-- ==== Sys2Proof/Decode.lean ====
section
/-! DEFINITION. From the text of a command line to the row it spells (R163, R164), and back. No row of the opcode table gives
bits, so decodeTableWord answers none. -/
namespace Sys2Proof

/-- A word in capitals: keywords are recognised in any mix of upper and lower case (R164). -/
def upperCase (w : Text) : Text := w.map Char.toUpper

/-- The word is the keyword, in any mix of case (R164). -/
def isKeyword (k : String) (w : Text) : Bool := upperCase w == k.toList

/-- Puts a word that is not empty before the others. -/
def consWord (w : Text) (ws : List Text) : List Text := if w.isEmpty then ws else w :: ws

/-- The words of a text, with `cur` the part of a word already read. -/
def splitFrom (cur : Text) : Text → List Text
  | [] => consWord cur []
  | c :: cs => if c = ' ' then consWord cur (splitFrom [] cs) else splitFrom (cur ++ [c]) cs

/-- A command line is divided into words at spaces: one space or several separate two words, and leading and trailing spaces
are ignored (R164). -/
def splitWords (t : Text) : List Text := splitFrom [] t

/-- Words with one space between two. -/
def joinWords : List Text → Text
  | [] => []
  | [w] => w
  | w :: ws => w ++ ' ' :: joinWords ws

/-- Commands of the claim and the draft named by their first word. -/
def claimCommands : List (String × (Port → List Text → Instr)) :=
  [("CLAIM", .claim), ("RELEASE", .release), ("OPEN", .openDraft), ("WINDOW", .window), ("PUT", .put), ("MORE", .more), ("CUT", .cut), ("SPAN", .span)]

/-- Commands on plans, reads of counters, and the first run commands. -/
def planCommands : List (String × (Port → List Text → Instr)) :=
  [("DISCARD", .discard), ("COMMIT", .commit), ("RETIRE", .retire), ("RECHECK", .recheck), ("COUNTERS", .counters), ("SELECT", .select), ("DESELECT", .deselect), ("TIE", .tie)]

/-- Run commands and the commands on staged revisions. -/
def runCommands : List (String × (Port → List Text → Instr)) :=
  [("SUSPEND", .suspend), ("RESUME", .resume), ("RETIE", .retie), ("ABANDON", .abandon), ("MARK", .mark), ("SETTLE", .settle), ("UNSETTLE", .unsettle), ("UNSTAGE", .unstage)]

/-- TRIM and the reads. -/
def readCommands : List (String × (Port → List Text → Instr)) :=
  [("TRIM", .trim), ("IDENT", .ident), ("LINES", .lines), ("LINE", .line), ("PROFILE", .profile), ("SPANS", .spans), ("RUN", .run), ("QUEUE", .queue)]

/-- Settings, events, restart and clear. -/
def moduleCommands : List (String × (Port → List Text → Instr)) :=
  [("SETTINGS", .settings), ("EVENTS", .events), ("ACK", .ack), ("MASK", .mask), ("SET", .set), ("RESTART", .restart), ("CLEARSTORE", .clearstore)]

/-- The commands named by their first word alone (R164). -/
def plainCommands : List (String × (Port → List Text → Instr)) :=
  claimCommands ++ (planCommands ++ (runCommands ++ (readCommands ++ (moduleCommands))))

/-- The verbs of the station commands (R25, R42). -/
def stationVerbs : List (String × (Port → List Text → Instr)) :=
  [("DEFINE", .stationDefine), ("PLANE", .stationPlane), ("WITHDRAW", .stationWithdraw), ("RESTORE", .stationRestore),
   ("FORGET", .stationForget)]

/-- The field words of the HEAD commands (R71). -/
def headFields : List (String × (Port → List Text → Instr)) :=
  [("PARENT", .headParent), ("JUNCTION", .headJunction), ("LABEL", .headLabel)]

/-- The row a table gives to a keyword. -/
def findRow (rows : List (String × (Port → List Text → Instr))) (w : Text) : Option (Port → List Text → Instr) :=
  (rows.find? (fun e => isKeyword e.1 w)).map (fun e => e.2)

/-- The station commands are named by STATION, the station number and the verb; with no verb of the five the line is the read,
which refuses a further word SYNTAX (R42, R164; log 11). -/
def decodeStation (p : Port) (args : List Text) : Instr :=
  match args with
  | n :: v :: rest =>
    match findRow stationVerbs v with
    | some row => row p (n :: rest)
    | none => .stationRead p args
  | _ => .stationRead p args

/-- A command that is named by two words (HEAD and ZERO); without a known second word the line names no command (log 11). -/
def decodeTwoWords (rows : List (String × (Port → List Text → Instr))) (p : Port) (first : Text) (rest : List Text) : Instr :=
  match rest with
  | v :: args =>
    match findRow rows v with
    | some row => row p args
    | none => .unknownCommand p (first :: rest)
  | [] => .unknownCommand p [first]

/-- The row that the words of a line spell (R164). -/
def decodeWords (p : Port) (ws : List Text) : Instr :=
  match ws with
  | [] => .emptyLine p
  | c :: rest =>
    if isKeyword "STATION" c then decodeStation p rest
    else if isKeyword "HEAD" c then decodeTwoWords headFields p c rest
    else if isKeyword "ZERO" c then decodeTwoWords [("COUNTERS", .zeroCounters)] p c rest
    else match findRow plainCommands c with
      | some row => row p rest
      | none => .unknownCommand p (c :: rest)

/-- The row that the line in a buffer is at its LF, on a port that is not busy: a bad or over-length line is not examined
(R163). -/
def decodeLine (p : Port) (buf : LineBuffer) : Instr :=
  if buf.bad || buf.tooLong then .commandLineBad p else decodeWords p (splitWords buf.chars)

/-- The words of a station command: the verb comes after the station number. -/
def stationWords (verb : String) (args : List Text) : List Text :=
  match args with
  | n :: rest => "STATION".toList :: n :: verb.toList :: rest
  | [] => ["STATION".toList, verb.toList]

/-- The port and the words of a row that is a command line; none for the other rows. -/
def Instr.words : Instr → Option (Port × List Text)
  | .commandLineBad _ => none
  | .emptyLine _ => none
  | .unknownCommand p ws => some (p, ws)
  | .lineWhileBusy _ => none
  | .replySent _ => none
  | .claim p args => some (p, "CLAIM".toList :: args)
  | .release p args => some (p, "RELEASE".toList :: args)
  | .claimLapseExpiry _ => none
  | .openDraft p args => some (p, "OPEN".toList :: args)
  | .window p args => some (p, "WINDOW".toList :: args)
  | .put p args => some (p, "PUT".toList :: args)
  | .more p args => some (p, "MORE".toList :: args)
  | .cut p args => some (p, "CUT".toList :: args)
  | .span p args => some (p, "SPAN".toList :: args)
  | .headParent p args => some (p, "HEAD".toList :: "PARENT".toList :: args)
  | .headJunction p args => some (p, "HEAD".toList :: "JUNCTION".toList :: args)
  | .headLabel p args => some (p, "HEAD".toList :: "LABEL".toList :: args)
  | .discard p args => some (p, "DISCARD".toList :: args)
  | .commit p args => some (p, "COMMIT".toList :: args)
  | .commitCompletion _ => none
  | .retire p args => some (p, "RETIRE".toList :: args)
  | .recheck p args => some (p, "RECHECK".toList :: args)
  | .checkStart => none
  | .recheckCompletion => none
  | .stationDefine p args => some (p, stationWords "DEFINE" args)
  | .stationPlane p args => some (p, stationWords "PLANE" args)
  | .stationWithdraw p args => some (p, stationWords "WITHDRAW" args)
  | .stationRestore p args => some (p, stationWords "RESTORE" args)
  | .stationForget p args => some (p, stationWords "FORGET" args)
  | .stationRead p args => some (p, "STATION".toList :: args)
  | .counters p args => some (p, "COUNTERS".toList :: args)
  | .zeroCounters p args => some (p, "ZERO".toList :: "COUNTERS".toList :: args)
  | .frameComplete _ _ _ _ _ => none
  | .frameFramingError => none
  | .frameGapTimeout => none
  | .odoValidTransition _ => none
  | .odoInvalidTransition => none
  | .strikeTimerExpiry => none
  | .select p args => some (p, "SELECT".toList :: args)
  | .deselect p args => some (p, "DESELECT".toList :: args)
  | .tie p args => some (p, "TIE".toList :: args)
  | .tieWaitDeadline => none
  | .suspend p args => some (p, "SUSPEND".toList :: args)
  | .resume p args => some (p, "RESUME".toList :: args)
  | .retie p args => some (p, "RETIE".toList :: args)
  | .abandon p args => some (p, "ABANDON".toList :: args)
  | .mark p args => some (p, "MARK".toList :: args)
  | .settle p args => some (p, "SETTLE".toList :: args)
  | .unsettle p args => some (p, "UNSETTLE".toList :: args)
  | .unstage p args => some (p, "UNSTAGE".toList :: args)
  | .trim p args => some (p, "TRIM".toList :: args)
  | .ident p args => some (p, "IDENT".toList :: args)
  | .lines p args => some (p, "LINES".toList :: args)
  | .line p args => some (p, "LINE".toList :: args)
  | .profile p args => some (p, "PROFILE".toList :: args)
  | .spans p args => some (p, "SPANS".toList :: args)
  | .run p args => some (p, "RUN".toList :: args)
  | .queue p args => some (p, "QUEUE".toList :: args)
  | .settings p args => some (p, "SETTINGS".toList :: args)
  | .events p args => some (p, "EVENTS".toList :: args)
  | .ack p args => some (p, "ACK".toList :: args)
  | .mask p args => some (p, "MASK".toList :: args)
  | .set p args => some (p, "SET".toList :: args)
  | .restart p args => some (p, "RESTART".toList :: args)
  | .clearstore p args => some (p, "CLEARSTORE".toList :: args)
  | .powerOn => none
  | .supplyLoss => none
  | .resetInput => none
  | .receiverLinkByte _ => none
  | .commandPortByte _ _ _ => none

/-- The text of a row that is a command line, as a terminal sends it before the LF. -/
def encodeLine (i : Instr) : Option (Port × LineBuffer) :=
  i.words.map (fun w => (w.1, { chars := joinWords w.2, bad := false, tooLong := false }))

/-- No row of the opcode table gives bits: no word spells a row. -/
def decodeTableWord (_nbits _w : Nat) : Option Instr := none

end Sys2Proof
end

