-- ==== Sys2Proof/Machine/State.lean ====
section
/-! DEFINITION. The state of the module, block by block, as plain data, and the module right after reset. -/
namespace Sys2Proof.Machine

/-! ## Stations (02) -/

/-- The six station slots (R24). -/
inductive StationId
  | s1
  | s2
  | s3
  | s4
  | s5
  | s6
deriving DecidableEq, Repr

/-- One value for each station slot. -/
structure Six (α : Type) where
  s1 : α
  s2 : α
  s3 : α
  s4 : α
  s5 : α
  s6 : α
deriving DecidableEq, Repr

/-- The stored fields of a station that is not UNDEFINED (R24). -/
structure StationData where
  signature : Byte
  label : Option Text
  /-- The plane correction in mm, -500..+500. -/
  correction : Int
deriving DecidableEq, Repr

/-- A station record (R24, R25): its state, with the fields present in that state. -/
inductive Station
  | undefined
  | inService (d : StationData)
  | withdrawn (d : StationData)
deriving DecidableEq, Repr

/-- What a strike report says (R36). -/
inductive Reading
  | offset (mm : Int)
  | edgeHigh
  | edgeLow
deriving DecidableEq, Repr

/-- The last strike of a station (R24, R38). -/
structure Strike where
  /-- Module time of acceptance, in ms. -/
  time : Nat
  reading : Reading
deriving DecidableEq, Repr

/-- The volatile fields of a station (R24). -/
structure StationLive where
  last : Option Strike
  accepted : Count
deriving DecidableEq, Repr

/-! ## Lines (01) -/

/-- A breakpoint without its closure part (R4): chainage and invert in mm. -/
structure Point where
  chainage : Int
  invert : Int
deriving DecidableEq, Repr

/-- The state of a closure part (R7). -/
inductive ClosureState
  | opened
  | closed
deriving DecidableEq, Repr

/-- The closure part of a segment (R7). -/
structure Closure where
  state : ClosureState
  worst : Int
  edge : Bool
  grade : Bool
  coasted : Int
deriving DecidableEq, Repr

/-- A breakpoint of a current profile, with the closure part of the segment that begins at it (R4, R7). -/
structure Breakpoint where
  point : Point
  closure : Option Closure
deriving DecidableEq, Repr

/-- A span (R6). -/
structure Span where
  start : Int
  station : StationId
  plane : Int
  slope : Int
deriving DecidableEq, Repr

/-- The collector of a line and the junction on it, present together (R2). -/
structure Outlet where
  parent : Nat
  junction : Int
deriving DecidableEq, Repr

/-- A staged revision (R20). -/
structure Staged where
  profile : List Point
  spans : List Span
  settled : Bool
  base : Count
deriving DecidableEq, Repr

/-- The reason words of the plan check (R45). -/
inductive CheckReason
  | count
  | hole
  | order
  | spacing
  | length
  | fall
  | spans
  | station
  | clearLow
  | clearHigh
  | parent
  | junction
deriving DecidableEq, Repr

/-- The location of a failure of the plan check (R45). -/
inductive Location
  | nowhere
  | chainage (mm : Int)
  | breakpoint (k : Nat)
  | span (k : Nat)
  | line (id : Nat)
deriving DecidableEq, Repr

/-- A failure of the plan check: reason word and location (R43). -/
structure Failure where
  reason : CheckReason
  location : Location
deriving DecidableEq, Repr

/-- The check status of a line; the conflict field is present exactly when it is CONFLICT (R2, R16). -/
inductive CheckStatus
  | checked
  | stale
  | conflict (f : Failure)
deriving DecidableEq, Repr

/-- Reasons of SUSPENDED (R108). -/
inductive SuspendReason
  | operator
  | mark
  | power
deriving DecidableEq, Repr

/-- Reasons of HALTED (R108). -/
inductive HaltReason
  | coast
  | grade
  | handoff
  | backtrack
deriving DecidableEq, Repr

/-- The run state of a run context, with its reason; IDLE is the absence of a run context (R13, R108). -/
inductive RunState
  | armed
  | cutting
  | coasting
  | suspended (r : SuspendReason)
  | halted (r : HaltReason)
deriving DecidableEq, Repr

/-- An armed mark (R104). -/
structure Mark where
  chainage : Int
  /-- The effect is SUSPEND; otherwise it is REPORT. -/
  suspends : Bool
deriving DecidableEq, Repr

/-- The run context of the ACTIVE line (R12): run state and reason, retie-required, F, the two marks, the trim ramp. -/
structure RunContext where
  state : RunState
  retie : Bool
  furthest : Option Int
  mark1 : Option Mark
  mark2 : Option Mark
  trimFrom : Int
  trimTo : Int
  rampStart : Int
deriving DecidableEq, Repr

/-- The lifecycle of a line (R10). The run context and the staged revision stand with ACTIVE, the state they belong to
(R2, R13, R20). -/
inductive Lifecycle
  | planned
  | active (run : RunContext) (staged : Option Staged)
  | complete
  | abandoned
deriving DecidableEq, Repr

/-- The four lifecycle words (R2). -/
inductive LifecycleKind
  | planned
  | active
  | complete
  | abandoned
deriving DecidableEq, Repr

/-- A line record (R2). Its length is not a field: it is the chainage of the last breakpoint. -/
structure Line where
  id : Nat
  label : Option Text
  outlet : Option Outlet
  lifecycle : Lifecycle
  status : CheckStatus
  revision : Count
  profile : List Breakpoint
  spans : List Span
deriving DecidableEq, Repr

/-! ## Settings (11) -/

/-- The words of ODO_DECODE (R176). -/
inductive DecodeMode
  | x1
  | x2
  | x4
deriving DecidableEq, Repr

/-- The words of GRADE_EFFECT (R176). -/
inductive GradeEffect
  | report
  | halt
deriving DecidableEq, Repr

/-- The 23 settings (R176). -/
structure Settings where
  minFall : Int
  junctionDrop : Int
  mast : Int
  clearBand : Int
  odoScale : Int
  odoDecode : DecodeMode
  sigMask : Byte
  strikeTimeout : Int
  backup : Int
  handoffLen : Int
  freezeLead : Int
  gradeTol : Int
  gradeCount : Int
  gradeEffect : GradeEffect
  coastLimit : Int
  gain : Int
  deadband : Int
  slew : Int
  tieTol : Int
  handoffTol : Int
  trimRamp : Int
  endWarn : Int
  claimLapse : Int
deriving DecidableEq, Repr

/-- The defaults of R176. -/
def Settings.default : Settings :=
  { minFall := 1000, junctionDrop := 50, mast := 1900, clearBand := 80, odoScale := 2500, odoDecode := .x4, sigMask := 255,
    strikeTimeout := 800, backup := 1500, handoffLen := 2000, freezeLead := 8000, gradeTol := 20, gradeCount := 5,
    gradeEffect := .halt, coastLimit := 3000, gain := 20, deadband := 3, slew := 200, tieTol := 15, handoffTol := 25,
    trimRamp := 5000, endWarn := 5000, claimLapse := 300 }

/-- The record store (00, The blocks; R180): the line table in ascending id, the station table's stored fields, the settings. The
run context stands in the ACTIVE line's record and the free pool slots are what the lines leave of 1,536. -/
structure Store where
  lines : List Line
  stations : Six Station
  settings : Settings
deriving DecidableEq, Repr

/-! ## Ports, claims, events (04, 10) -/

/-- The 16 event kinds, in the order of the event table (R171). -/
inductive EventKind
  | start
  | run
  | grade
  | coast
  | halt
  | close
  | done
  | mark
  | endnear
  | conflict
  | swept
  | lapse
  | waiting
  | revised
  | dropped
  | backlog
deriving DecidableEq, Repr

/-- The reason words of refusals (R167). -/
inductive Reason
  | syn
  | range
  | port
  | state
  | noline
  | noclaim
  | nodraft
  | held
  | backlog
  | staledraft
  | full
  | check
  | frozen
  | pool
  | children
  | inuse
  | collide
  | retie
  | backtrack
  | gap
  | nostrike
  | tieout
  | backfall
  | overrun
deriving DecidableEq, Repr

/-- One word of a reply line (R184): a fixed word, a number, a label, a location. -/
inductive Field
  | word (w : String)
  | num (n : Int)
  | label (t : Text)
  | loc (l : Location)
deriving DecidableEq, Repr

/-- A reply (R167): OK with its words, NO with its reason and words, or OK with record lines and the closing full stop. -/
inductive Reply
  | ok (fields : List Field)
  | no (reason : Reason) (fields : List Field)
  | records (lines : List (List Field))
deriving DecidableEq, Repr

/-- The command in hand of a port (R165, R166). -/
inductive Hand
  /-- The port is not busy. -/
  | idle
  /-- A command in hand whose reply waits for its completion (COMMIT, TIE, RETIE). -/
  | waiting (command : Instr)
  /-- A reply is being sent: for the command in hand, or, with none, NO OVERRUN or the answer to a bad line. -/
  | sending (command : Option Instr) (reply : Reply)
deriving DecidableEq, Repr

/-- An open draft (R65). Its id is the one the claim slot holds. -/
structure Draft where
  base : Option Count
  parent : Option Nat
  junction : Option Int
  label : Option Text
  points : List (Option Point)
  spans : List (Option Span)
  first : Nat
  last : Nat
  cursor : Nat
deriving DecidableEq, Repr

/-- How far a plan check in flight has got (R43): the number of its tests made, and the failure that has ended it. -/
structure CheckRun where
  made : Nat
  failure : Option Failure
deriving DecidableEq, Repr

/-- A commit in flight (R73, R78): the lifecycle recorded when it was taken (none: a free id), whether a marking change has
reached it, and its plan check. -/
structure CommitRun where
  was : Option LifecycleKind
  reached : Bool
  check : CheckRun
deriving DecidableEq, Repr

/-- What the Port unit, the Claim unit and the Event unit hold for one port. -/
structure PortState where
  buffer : LineBuffer
  hand : Hand
  overrun : Bool
  claim : Option Nat
  draft : Option Draft
  /-- The lapse timer: stopped, or its deadline in module time (R63). -/
  lapse : Option Nat
  commit : Option CommitRun
  events : List EventKind
  mask : List EventKind
deriving DecidableEq, Repr

/-! ## Re-check unit (05) -/

/-- Where the check in flight came from (R82). -/
inductive Origin
  | queue
  | scan
deriving DecidableEq, Repr

/-- The check in flight (R82). -/
structure InFlight where
  id : Nat
  discard : Bool
  origin : Origin
  check : CheckRun
deriving DecidableEq, Repr

/-- The Re-check unit (R82). -/
structure Recheck where
  queue : List Nat
  inFlight : Option InFlight
  scanPending : Bool
  scanPos : Option Nat
  again : Bool
  backlog : Bool
deriving DecidableEq, Repr

/-! ## Reference unit (02) -/

/-- Framing of the receiver link (R35): hunting, or the bytes of a frame so far and the module time of the last one. -/
inductive Framing
  | hunting
  | collecting (bytes : List Byte) (lastAt : Nat)
deriving DecidableEq, Repr

/-- The Reference unit (R24, R35, R41). -/
structure Link where
  framing : Framing
  bad : Count
  fault : Count
  unmatched : Count
  foreign : Count
  live : Six StationLive
deriving DecidableEq, Repr

/-! ## Chainage unit (06) -/

/-- The Chainage unit (R95 to R98, R107). -/
structure Chain where
  levelA : Bool
  levelB : Bool
  known : Bool
  /-- The position in micrometres (R97). -/
  position : Int
  odoInvalid : Count
  endWarned : Bool
deriving DecidableEq, Repr

/-! ## Run controller, volatile part (07, 09) -/

/-- What a tie wait waits for (R110). -/
inductive TieKind
  | tie
  | retie
deriving DecidableEq, Repr

/-- A tie wait (R110, R114, R119). -/
structure TieWait where
  kind : TieKind
  station : StationId
  chainage : Int
  deadline : Nat
deriving DecidableEq, Repr

/-- Why a staged revision was discarded (R159). -/
inductive DropReason
  | unstage
  | frozen
  | stale
  | deselect
  | abandon
  | complete
deriving DecidableEq, Repr

/-- The last drop (R152). -/
structure LastDrop where
  id : Nat
  reason : DropReason
deriving DecidableEq, Repr

/-- The volatile items of the Run controller (R110, R152). -/
structure RunUnit where
  coast : Int
  timer : Option Nat
  wait : Option TieWait
  lastDrop : Option LastDrop
deriving DecidableEq, Repr

/-! ## Depth evaluator (08) -/

/-- The handoff reference (R133, R147). -/
structure HandoffRef where
  offset : Int
  chainage : Int
  time : Nat
deriving DecidableEq, Repr

/-- The Depth evaluator (R133). -/
structure Evaluator where
  serving : Option Nat
  gradeCount : Nat
  gradeFlag : Bool
  drive : Int
  reference : Option HandoffRef
deriving DecidableEq, Repr

/-- The module. -/
structure State where
  /-- The supply is present (R181). -/
  powered : Bool
  /-- The RESET input is held low, and has been for 50 ms (R181). -/
  resetLow : Bool
  /-- Module time in ms (00, Module time). -/
  time : Nat
  store : Store
  cab : PortState
  plan : PortState
  recheck : Recheck
  link : Link
  chain : Chain
  run : RunUnit
  eval : Evaluator
  /-- MODEL: how many times the free values of Config have been used (log 5). -/
  free : Nat
  /-- MODEL: the rows waiting, first in first out. -/
  pending : List Instr
deriving DecidableEq, Repr

/-- The manual gives no condition that stops the module: every refusal is a reply and every halt a run state. No row of this
model ends in a fault. -/
inductive Fault
deriving DecidableEq, Repr

/-- Why a row has no outcome. -/
inductive Refusal
  /-- Raised by exec's arm of a row that has no meaning yet; safe, since nothing is claimed of such a row. -/
  | notModelled (mnemonic : String)
deriving DecidableEq, Repr

/-! ## Reset -/

/-- An empty input line buffer (R165). -/
def emptyBuffer : LineBuffer := { chars := [], bad := false, tooLong := false }

/-- A port after a restart (R59, R165, R171, R173). -/
def PortState.reset : PortState :=
  { buffer := emptyBuffer, hand := .idle, overrun := false, claim := none, draft := none, lapse := none, commit := none,
    events := [.start], mask := [] }

/-- The Re-check unit with no work (R82). -/
def Recheck.reset : Recheck :=
  { queue := [], inFlight := none, scanPending := false, scanPos := none, again := false, backlog := false }

/-- A station's volatile fields after a restart (R26). -/
def StationLive.reset : StationLive := { last := none, accepted := 0 }

/-- The same value for each station slot. -/
def Six.all {α : Type} (x : α) : Six α := { s1 := x, s2 := x, s3 := x, s4 := x, s5 := x, s6 := x }

/-- The Reference unit after a restart (R26, R35, R41). -/
def Link.reset : Link :=
  { framing := .hunting, bad := 0, fault := 0, unmatched := 0, foreign := 0, live := Six.all StationLive.reset }

/-- The Chainage unit of the factory. R96 takes the channels' present levels; both low is the model's choice (DESIGN CHOICE,
log 6). -/
def Chain.reset : Chain :=
  { levelA := false, levelB := false, known := false, position := 0, odoInvalid := 0, endWarned := false }

/-- The Run controller's volatile items after a restart (R110, R152). -/
def RunUnit.reset : RunUnit := { coast := 0, timer := none, wait := none, lastDrop := none }

/-- The Depth evaluator after a restart (R133). -/
def Evaluator.reset : Evaluator :=
  { serving := none, gradeCount := 0, gradeFlag := false, drive := 0, reference := none }

/-- The record store of the factory (R26, R176, R183). -/
def Store.reset : Store := { lines := [], stations := Six.all .undefined, settings := Settings.default }

/-- The module of the factory at the end of its first power-on, with the RESET input high (R171; log 24). -/
def State.reset : State :=
  { powered := true, resetLow := false, time := 0, store := Store.reset, cab := PortState.reset, plan := PortState.reset,
    recheck := Recheck.reset, link := Link.reset, chain := Chain.reset, run := RunUnit.reset, eval := Evaluator.reset,
    free := 0, pending := [] }

end Sys2Proof.Machine
end

