-- ==== Sys2Proof/Machine/Ops.lean ====
section
/-! DEFINITION. The named operations every row is built from: the accessors of the state, the record store's operations, the taking
of a command line, and the sending of a reply. -/
namespace Sys2Proof.Machine

/-! ## Power and the RESET input (R181) -/

/-- The module runs: power is present and the RESET input is high. Otherwise no row but those of the supply and of the RESET input has an
effect, and every output is released (R181). -/
def State.running (s : State) : Bool := s.powered && !s.resetLow

/-! ## Stations -/

/-- The value of a slot. -/
def Six.get {α : Type} (t : Six α) : StationId → α
  | .s1 => t.s1
  | .s2 => t.s2
  | .s3 => t.s3
  | .s4 => t.s4
  | .s5 => t.s5
  | .s6 => t.s6

/-- The table with one slot replaced. -/
def Six.set {α : Type} (t : Six α) (n : StationId) (x : α) : Six α :=
  match n with
  | .s1 => { t with s1 := x }
  | .s2 => { t with s2 := x }
  | .s3 => { t with s3 := x }
  | .s4 => { t with s4 := x }
  | .s5 => { t with s5 := x }
  | .s6 => { t with s6 := x }

/-- The slots in order (R24). -/
def StationId.all : List StationId := [.s1, .s2, .s3, .s4, .s5, .s6]

/-- The slot number, 1 to 6 (R24). -/
def StationId.number : StationId → Int
  | .s1 => 1
  | .s2 => 2
  | .s3 => 3
  | .s4 => 4
  | .s5 => 5
  | .s6 => 6

/-- The slot with a number; none outside 1..6 (R24). -/
def stationOf? (n : Int) : Option StationId := StationId.all.find? (fun k => k.number == n)

/-- The stored fields of a station in service or withdrawn. -/
def Station.data? : Station → Option StationData
  | .undefined => none
  | .inService d => some d
  | .withdrawn d => some d

/-- The station is IN_SERVICE (R25). -/
def Station.isInService : Station → Bool
  | .inService _ => true
  | _ => false

/-- The plane correction: 0 while UNDEFINED (R24). -/
def Station.correction (t : Station) : Int :=
  match t.data? with
  | some d => d.correction
  | none => 0

/-! ## Ports -/

/-- The port's part of the state. -/
def State.port (s : State) : Port → PortState
  | .cab => s.cab
  | .plan => s.plan

/-- The state with one port's part changed. -/
def State.updPort (s : State) (p : Port) (f : PortState → PortState) : State :=
  match p with
  | .cab => { s with cab := f s.cab }
  | .plan => { s with plan := f s.plan }

/-- The other port. -/
def otherPort : Port → Port
  | .cab => .plan
  | .plan => .cab

/-- A port is busy while it holds a command in hand or sends a reply (R165, R166; log 10). -/
def State.busy (s : State) (p : Port) : Bool := (s.port p).hand != .idle

/-- Which port's claim slot holds the id (R59). -/
def State.holder? (s : State) (id : Nat) : Option Port :=
  if s.cab.claim = some id then some .cab else if s.plan.claim = some id then some .plan else none

/-! ## Replies -/

/-- The command in hand. -/
def Hand.command? : Hand → Option Instr
  | .waiting c => some c
  | .sending c _ => c
  | .idle => none

/-- The reply to the command in hand begins to be sent (R165, R167). -/
def State.reply (s : State) (p : Port) (r : Reply) : State :=
  s.updPort p (fun q => { q with hand := .sending q.hand.command? r })

/-- The reply OK with its words (R167). -/
def State.ok (s : State) (p : Port) (fields : List Field := []) : State := s.reply p (.ok fields)

/-- The reply NO with a reason word and nothing further (R167). -/
def State.no (s : State) (p : Port) (r : Reason) : State := s.reply p (.no r [])

/-- The word CAB or PLAN, as after HELD and NOLINE (R167). -/
def portField : Port → Field
  | .cab => .word "CAB"
  | .plan => .word "PLAN"

/-! ## Taking a command line -/

/-- The port's line is the row's: the row brings the whole line when nothing of a line has arrived, and otherwise the line in the
buffer is the one the row says (log 2). -/
def State.lineIs (s : State) (p : Port) (row : Instr) : Bool :=
  (s.port p).buffer == emptyBuffer || decodeLine p (s.port p).buffer == row

/-- The line in the buffer is over (R163). -/
def State.clearBuffer (s : State) (p : Port) : State := s.updPort p (fun q => { q with buffer := emptyBuffer })

/-- A line whose LF is taken while the port is busy sets the overrun flag (R166). -/
def State.setOverrun (s : State) (p : Port) : State := s.updPort p (fun q => { q with overrun := true })

/-- The command line becomes the command in hand (R165), and the lapse timer stops (R63). -/
def State.takeInHand (s : State) (p : Port) (row : Instr) : State :=
  s.updPort p (fun q => { q with hand := .waiting row, lapse := none })

/-- A command line taken on a port that is not busy: its buffer is empty again, and it is the command in hand. -/
def State.taken (s : State) (p : Port) (row : Instr) : State := (s.clearBuffer p).takeInHand p row

/-- A line that is answered, at its LF: discarded on a busy port (R166), otherwise taken in hand and handed to its block (R165). -/
def takeLine (p : Port) (row : Instr) (s : State) (body : State → State) : State :=
  if s.running && s.lineIs p row then
    if s.busy p then (s.clearBuffer p).setOverrun p else body (s.taken p row)
  else s

/-! ## The line table -/

/-- The lifecycle word (R2). -/
def Lifecycle.kind : Lifecycle → LifecycleKind
  | .planned => .planned
  | .active _ _ => .active
  | .complete => .complete
  | .abandoned => .abandoned

/-- The line is ACTIVE. -/
def Line.isActive (l : Line) : Bool := l.lifecycle.kind == .active

/-- The staged revision of the line, if any (R20). -/
def Line.staged? (l : Line) : Option Staged :=
  match l.lifecycle with
  | .active _ st => st
  | _ => none

/-- The run context of the line, if it is ACTIVE (R12). -/
def Line.run? (l : Line) : Option RunContext :=
  match l.lifecycle with
  | .active r _ => some r
  | _ => none

/-- The breakpoints of the current profile without closure parts. -/
def Line.points (l : Line) : List Point := l.profile.map (fun b => b.point)

/-- The chainage of the last breakpoint; 0 for a list without one (log 28). -/
def lengthOf (pts : List Point) : Int :=
  match pts.getLast? with
  | some p => p.chainage
  | none => 0

/-- The length of the line (R2). -/
def Line.length (l : Line) : Int := lengthOf l.points

/-- The collector named by the parent field. -/
def Line.parent? (l : Line) : Option Nat := l.outlet.map (fun o => o.parent)

/-- The record with an id (R1). -/
def Store.line? (st : Store) (id : Nat) : Option Line := st.lines.find? (fun l => l.id == id)

/-- The record with an id (R1). -/
def State.line? (s : State) (id : Nat) : Option Line := s.store.line? id

/-- The ACTIVE line, if there is one (R13). -/
def State.active? (s : State) : Option Line := s.store.lines.find? Line.isActive

/-- The run context, none while the run is IDLE (R12, R13). -/
def State.context? (s : State) : Option RunContext := s.active?.bind Line.run?

/-- The run state, none while IDLE (R108). -/
def State.runState? (s : State) : Option RunState := s.context?.map (fun r => r.state)

/-- F, none while unset or while the run is IDLE (R100). -/
def State.furthest? (s : State) : Option Int := s.context?.bind (fun r => r.furthest)

/-- The staged revision of the ACTIVE line. -/
def State.staged? (s : State) : Option Staged := s.active?.bind Line.staged?

/-- The line table changed. -/
def State.setLines (s : State) (ls : List Line) : State := { s with store := { s.store with lines := ls } }

/-- Every record changed by a function. -/
def State.mapLines (s : State) (f : Line → Line) : State := s.setLines (s.store.lines.map f)

/-- One record changed. -/
def State.updLine (s : State) (id : Nat) (f : Line → Line) : State := s.mapLines (fun l => if l.id = id then f l else l)

/-- The ACTIVE line changed. -/
def State.updActive (s : State) (f : Line → Line) : State := s.mapLines (fun l => if l.isActive then f l else l)

/-- The run context changed. -/
def Line.updRun (l : Line) (f : RunContext → RunContext) : Line :=
  match l.lifecycle with
  | .active r st => { l with lifecycle := .active (f r) st }
  | _ => l

/-- The run context of the ACTIVE line changed. -/
def State.updRun (s : State) (f : RunContext → RunContext) : State := s.updActive (fun l => l.updRun f)

/-- The staged revision of an ACTIVE line replaced or removed. -/
def Line.setStaged (l : Line) (st : Option Staged) : Line :=
  match l.lifecycle with
  | .active r _ => { l with lifecycle := .active r st }
  | _ => l

/-- A record put at its place in ascending id (R1). -/
def insertLine (l : Line) : List Line → List Line
  | [] => [l]
  | m :: ms => if l.id < m.id then l :: m :: ms else m :: insertLine l ms

/-- A marked line: PLANNED and ACTIVE lines take staleness marks, COMPLETE and ABANDONED ones do not (R17). -/
def Line.takesMarks (l : Line) : Bool := l.lifecycle.kind == .planned || l.lifecycle.kind == .active

/-- The children of a line: the lines whose parent field names it, in ascending id (R18). -/
def Store.children (st : Store) (id : Nat) : List Line := st.lines.filter (fun l => l.parent? == some id)

/-! ## The breakpoint pool (R21) -/

/-- Slots a record holds: its current profile and its staged revision. -/
def Line.slots (l : Line) : Nat :=
  l.profile.length + (match l.staged? with
    | some st => st.profile.length
    | none => 0)

/-- Slots held by all records. -/
def Store.heldSlots (st : Store) : Nat := (st.lines.map Line.slots).sum

/-- Free pool slots. -/
def Store.freeSlots (st : Store) : Nat := Config.poolSlots - st.heldSlots

/-! ## Settings and blocks -/

/-- The settings in force. -/
def State.settings (s : State) : Settings := s.store.settings

/-- The Re-check unit changed. -/
def State.updRecheck (s : State) (f : Recheck → Recheck) : State := { s with recheck := f s.recheck }

/-- The Reference unit changed. -/
def State.updLink (s : State) (f : Link → Link) : State := { s with link := f s.link }

/-- The Chainage unit changed. -/
def State.updChain (s : State) (f : Chain → Chain) : State := { s with chain := f s.chain }

/-- The Run controller's volatile items changed. -/
def State.updRunUnit (s : State) (f : RunUnit → RunUnit) : State := { s with run := f s.run }

/-- The Depth evaluator changed. -/
def State.updEval (s : State) (f : Evaluator → Evaluator) : State := { s with eval := f s.eval }

/-- The volatile fields of a station changed. -/
def State.updLive (s : State) (n : StationId) (f : StationLive → StationLive) : State :=
  s.updLink (fun k => { k with live := k.live.set n (f (k.live.get n)) })

/-- A station record written. -/
def State.setStation (s : State) (n : StationId) (t : Station) : State :=
  { s with store := { s.store with stations := s.store.stations.set n t } }

/-! ## Freshness (R38) -/

/-- A duration setting in ms. -/
def msOf (v : Int) : Nat := v.toNat

/-- STRIKE_TIMEOUT in force, in ms. -/
def State.strikeTimeout (s : State) : Nat := msOf s.settings.strikeTimeout

/-- The last strike of a station. -/
def State.lastStrike? (s : State) (n : StationId) : Option Strike := (s.link.live.get n).last

/-- A time's age is no more than STRIKE_TIMEOUT (R38, R147). -/
def State.freshTime (s : State) (t : Nat) : Bool := decide (s.time - t ≤ s.strikeTimeout)

/-- The last strike of a station, if it is fresh (R38). -/
def State.freshStrike? (s : State) (n : StationId) : Option Strike :=
  (s.lastStrike? n).bind (fun k => if s.freshTime k.time then some k else none)

end Sys2Proof.Machine
end

