-- ==== Sys2Proof/Machine/Operands.lean ====
section
/-! DEFINITION. The forms a command's words take (R164, 12.1): numbers, ids, labels, event kinds, settings. -/
namespace Sys2Proof.Machine

/-- The value of a decimal digit. -/
def digit? (c : Char) : Option Nat :=
  if 48 ≤ c.toNat ∧ c.toNat ≤ 57 then some (c.toNat - 48) else none

/-- Digits read after a value already read. -/
def digitsFrom (acc : Nat) : Text → Option Nat
  | [] => some acc
  | c :: cs =>
    match digit? c with
    | some d => digitsFrom (10 * acc + d) cs
    | none => none

/-- One digit or more. -/
def natural? (w : Text) : Option Nat :=
  match w with
  | [] => none
  | cs => digitsFrom 0 cs

/-- A number: decimal digits, leading zeros allowed, optionally preceded by a plus sign or a hyphen (R164). -/
def number? (w : Text) : Option Int :=
  match w with
  | '+' :: cs => (natural? cs).map (fun n => (n : Int))
  | '-' :: cs => (natural? cs).map (fun n => -(n : Int))
  | cs => (natural? cs).map (fun n => (n : Int))

/-- Every word is a number. -/
def numbers? : List Text → Option (List Int)
  | [] => some []
  | w :: ws =>
    match number? w, numbers? ws with
    | some n, some ns => some (n :: ns)
    | _, _ => none

/-- A value within a range, both ends included. -/
def within (lo hi n : Int) : Bool := decide (lo ≤ n ∧ n ≤ hi)

/-- A line id, 1..999 (R1). -/
def lineId? (n : Int) : Option Nat := if within 1 999 n then some n.toNat else none

/-- A number, or the word that removes the value (NONE, OFF). -/
inductive NumberOr
  | number (n : Int)
  | removed
deriving DecidableEq, Repr

/-- A number or a removing keyword. -/
def numberOr? (k : String) (w : Text) : Option NumberOr :=
  if isKeyword k w then some .removed else (number? w).map .number

/-- A label that a command may set: 1 to 16 characters (R2), and not the word NONE in any case (R184). -/
def goodLabel (w : Text) : Bool := decide (w.length ≤ Config.labelChars) && !isKeyword "NONE" w

/-! ## Event kinds (R171) -/

/-- The 16 kinds in the order of the event table. -/
def EventKind.all : List EventKind :=
  [.start, .run, .grade, .coast, .halt, .close, .done, .mark, .endnear, .conflict, .swept, .lapse, .waiting, .revised, .dropped,
   .backlog]

/-- The kind's word. -/
def EventKind.word : EventKind → String
  | .start => "START"
  | .run => "RUN"
  | .grade => "GRADE"
  | .coast => "COAST"
  | .halt => "HALT"
  | .close => "CLOSE"
  | .done => "DONE"
  | .mark => "MARK"
  | .endnear => "ENDNEAR"
  | .conflict => "CONFLICT"
  | .swept => "SWEPT"
  | .lapse => "LAPSE"
  | .waiting => "WAITING"
  | .revised => "REVISED"
  | .dropped => "DROPPED"
  | .backlog => "BACKLOG"

/-- The kind a word names, in any mix of case. -/
def eventKind? (w : Text) : Option EventKind := EventKind.all.find? (fun e => isKeyword e.word w)

/-- Every word names a kind. -/
def eventKinds? : List Text → Option (List EventKind)
  | [] => some []
  | w :: ws =>
    match eventKind? w, eventKinds? ws with
    | some e, some es => some (e :: es)
    | _, _ => none

/-- The lifecycle a word names (R168). -/
def lifecycleKind? (w : Text) : Option LifecycleKind :=
  if isKeyword "PLANNED" w then some .planned
  else if isKeyword "ACTIVE" w then some .active
  else if isKeyword "COMPLETE" w then some .complete
  else if isKeyword "ABANDONED" w then some .abandoned
  else none

/-! ## Settings (R176) -/

/-- The settings by name, in the order of the table of R176. -/
inductive SettingName
  | minFall
  | junctionDrop
  | mast
  | clearBand
  | odoScale
  | odoDecode
  | sigMask
  | strikeTimeout
  | backup
  | handoffLen
  | freezeLead
  | gradeTol
  | gradeCount
  | gradeEffect
  | coastLimit
  | gain
  | deadband
  | slew
  | tieTol
  | handoffTol
  | trimRamp
  | endWarn
  | claimLapse
deriving DecidableEq, Repr

/-- The names in the order of the table. -/
def SettingName.all : List SettingName :=
  [.minFall, .junctionDrop, .mast, .clearBand, .odoScale, .odoDecode, .sigMask, .strikeTimeout, .backup, .handoffLen,
   .freezeLead, .gradeTol, .gradeCount, .gradeEffect, .coastLimit, .gain, .deadband, .slew, .tieTol, .handoffTol, .trimRamp,
   .endWarn, .claimLapse]

/-- The setting's word. -/
def SettingName.word : SettingName → String
  | .minFall => "MIN_FALL"
  | .junctionDrop => "JUNCTION_DROP"
  | .mast => "MAST"
  | .clearBand => "CLEAR_BAND"
  | .odoScale => "ODO_SCALE"
  | .odoDecode => "ODO_DECODE"
  | .sigMask => "SIG_MASK"
  | .strikeTimeout => "STRIKE_TIMEOUT"
  | .backup => "BACKUP"
  | .handoffLen => "HANDOFF_LEN"
  | .freezeLead => "FREEZE_LEAD"
  | .gradeTol => "GRADE_TOL"
  | .gradeCount => "GRADE_COUNT"
  | .gradeEffect => "GRADE_EFFECT"
  | .coastLimit => "COAST_LIMIT"
  | .gain => "GAIN"
  | .deadband => "DEADBAND"
  | .slew => "SLEW"
  | .tieTol => "TIE_TOL"
  | .handoffTol => "HANDOFF_TOL"
  | .trimRamp => "TRIM_RAMP"
  | .endWarn => "END_WARN"
  | .claimLapse => "CLAIM_LAPSE"

/-- The setting a word names, in any mix of case. -/
def settingName? (w : Text) : Option SettingName := SettingName.all.find? (fun n => isKeyword n.word w)

/-- The groups of settings (11). -/
inductive Group
  | a
  | b
  | c
deriving DecidableEq, Repr

/-- The group of a setting (R176). -/
def SettingName.group : SettingName → Group
  | .minFall => .a
  | .junctionDrop => .a
  | .mast => .a
  | .clearBand => .a
  | .odoScale => .c
  | .odoDecode => .c
  | .sigMask => .c
  | .strikeTimeout => .c
  | .backup => .c
  | .handoffLen => .c
  | .freezeLead => .c
  | .gradeTol => .b
  | .gradeCount => .b
  | .gradeEffect => .b
  | .coastLimit => .b
  | .gain => .b
  | .deadband => .b
  | .slew => .b
  | .tieTol => .b
  | .handoffTol => .b
  | .trimRamp => .b
  | .endWarn => .b
  | .claimLapse => .b

/-- The range of a setting that takes a number (R176); none for the two that take a word. -/
def SettingName.range? : SettingName → Option (Int × Int)
  | .minFall => some (200, 50000)
  | .junctionDrop => some (0, 500)
  | .mast => some (500, 6000)
  | .clearBand => some (20, 110)
  | .odoScale => some (10, 50000)
  | .odoDecode => none
  | .sigMask => some (1, 255)
  | .strikeTimeout => some (200, 5000)
  | .backup => some (0, 5000)
  | .handoffLen => some (500, 10000)
  | .freezeLead => some (1000, 50000)
  | .gradeTol => some (5, 100)
  | .gradeCount => some (1, 50)
  | .gradeEffect => none
  | .coastLimit => some (0, 20000)
  | .gain => some (1, 200)
  | .deadband => some (0, 20)
  | .slew => some (10, 1000)
  | .tieTol => some (5, 100)
  | .handoffTol => some (5, 100)
  | .trimRamp => some (1000, 20000)
  | .endWarn => some (0, 50000)
  | .claimLapse => some (30, 3600)

/-- The value of a setting: a number, or one of the words of ODO_DECODE or GRADE_EFFECT. -/
inductive SettingValue
  | num (n : Int)
  | decode (m : DecodeMode)
  | effect (e : GradeEffect)
deriving DecidableEq, Repr

/-- The value in force. -/
def Settings.get (t : Settings) : SettingName → SettingValue
  | .minFall => .num t.minFall
  | .junctionDrop => .num t.junctionDrop
  | .mast => .num t.mast
  | .clearBand => .num t.clearBand
  | .odoScale => .num t.odoScale
  | .odoDecode => .decode t.odoDecode
  | .sigMask => .num t.sigMask.toNat
  | .strikeTimeout => .num t.strikeTimeout
  | .backup => .num t.backup
  | .handoffLen => .num t.handoffLen
  | .freezeLead => .num t.freezeLead
  | .gradeTol => .num t.gradeTol
  | .gradeCount => .num t.gradeCount
  | .gradeEffect => .effect t.gradeEffect
  | .coastLimit => .num t.coastLimit
  | .gain => .num t.gain
  | .deadband => .num t.deadband
  | .slew => .num t.slew
  | .tieTol => .num t.tieTol
  | .handoffTol => .num t.handoffTol
  | .trimRamp => .num t.trimRamp
  | .endWarn => .num t.endWarn
  | .claimLapse => .num t.claimLapse

/-- The number of a setting's value. -/
def SettingValue.asNum : SettingValue → Int
  | .num n => n
  | _ => 0

/-- The settings with one replaced. A value of the wrong kind does not arise: settingValue? gives each setting its own. -/
def Settings.put (t : Settings) (name : SettingName) (v : SettingValue) : Settings :=
  match name with
  | .minFall => { t with minFall := v.asNum }
  | .junctionDrop => { t with junctionDrop := v.asNum }
  | .mast => { t with mast := v.asNum }
  | .clearBand => { t with clearBand := v.asNum }
  | .odoScale => { t with odoScale := v.asNum }
  | .odoDecode => match v with
    | .decode m => { t with odoDecode := m }
    | _ => t
  | .sigMask => { t with sigMask := BitVec.ofInt 8 v.asNum }
  | .strikeTimeout => { t with strikeTimeout := v.asNum }
  | .backup => { t with backup := v.asNum }
  | .handoffLen => { t with handoffLen := v.asNum }
  | .freezeLead => { t with freezeLead := v.asNum }
  | .gradeTol => { t with gradeTol := v.asNum }
  | .gradeCount => { t with gradeCount := v.asNum }
  | .gradeEffect => match v with
    | .effect e => { t with gradeEffect := e }
    | _ => t
  | .coastLimit => { t with coastLimit := v.asNum }
  | .gain => { t with gain := v.asNum }
  | .deadband => { t with deadband := v.asNum }
  | .slew => { t with slew := v.asNum }
  | .tieTol => { t with tieTol := v.asNum }
  | .handoffTol => { t with handoffTol := v.asNum }
  | .trimRamp => { t with trimRamp := v.asNum }
  | .endWarn => { t with endWarn := v.asNum }
  | .claimLapse => { t with claimLapse := v.asNum }

/-- The value a word of SET gives: a value, or the refusal SYNTAX or RANGE of items 1 and 2 of R177. -/
inductive ValueParse
  | good (v : SettingValue)
  | syn
  | range
deriving DecidableEq, Repr

/-- Items 1 and 2 of R177 for the value's word. -/
def settingValue? (name : SettingName) (w : Text) : ValueParse :=
  match name.range? with
  | some (lo, hi) =>
    match number? w with
    | none => .syn
    | some n => if within lo hi n then .good (.num n) else .range
  | none =>
    if name = .odoDecode then
      if isKeyword "1X" w then .good (.decode .x1)
      else if isKeyword "2X" w then .good (.decode .x2)
      else if isKeyword "4X" w then .good (.decode .x4)
      else .range
    else
      if isKeyword "REPORT" w then .good (.effect .report)
      else if isKeyword "HALT" w then .good (.effect .halt)
      else .range

end Sys2Proof.Machine
end

