-- ==== Sys2Proof/Machine/Flags.lean ====
section
/-! DEFINITION. The event sets, masks and attention lines (R171 to R174), and the other outputs, which are computed from the state
(log 27). -/
namespace Sys2Proof.Machine

/-- A kind set in an event set: a kind already set stays set. The set is kept in the order of the event table (R171). -/
def setKind (e : EventKind) (es : List EventKind) : List EventKind :=
  EventKind.all.filter (fun k => k == e || es.contains k)

/-- Kinds taken out of a set. -/
def clearKinds (gone : List EventKind) (es : List EventKind) : List EventKind :=
  es.filter (fun k => !(gone.contains k))

/-- An event raised in one port's set alone, as LAPSE is (R63, R171). -/
def State.raiseAt (s : State) (p : Port) (e : EventKind) : State :=
  s.updPort p (fun q => { q with events := setKind e q.events })

/-- An event raised: set in the event sets of both ports (R171). -/
def State.raise (s : State) (e : EventKind) : State := (s.raiseAt .cab e).raiseAt .plan e

/-- A kind in the set that is not masked. -/
def PortState.unmasked (q : PortState) : Bool := q.events.any (fun k => !(q.mask.contains k))

/-- The attention line of a port is asserted: while the set holds an unmasked kind, and released without power and while the RESET
input is held low (R174, R181). -/
def State.attention (s : State) (p : Port) : Bool := s.running && (s.port p).unmasked

/-- The run state asks for the travel permit: every state but SUSPENDED and HALTED (R109). -/
def permitFor (r : Option RunState) : Bool :=
  match r with
  | some (.suspended _) => false
  | some (.halted _) => false
  | _ => true

/-- The travel permit contact is closed (R109, R181). -/
def State.permit (s : State) : Bool := s.running && permitFor s.runState?

/-- Current in the raising coil, in microamperes: 1.5 mA per per mille of a positive drive level (R141). -/
def State.raisingCoil (s : State) : Int := if s.running && decide (0 < s.eval.drive) then 1500 * s.eval.drive else 0

/-- Current in the lowering coil, in microamperes (R141). -/
def State.loweringCoil (s : State) : Int := if s.running && decide (s.eval.drive < 0) then -(1500 * s.eval.drive) else 0

/-- A counter's next value, modulo 65,536 (00, Counters). -/
def bump (c : Count) : Count := c + 1

end Sys2Proof.Machine
end

