-- ==== Sys2Proof/Machine/Geometry.lean ====
section
/-! DEFINITION. Elevations and chainages: interpolation and rounding (00, Conventions), profile invert (R5), plane elevation (R6),
trim (R161), freeze chainage and freeze condition (R150, R151), chainage and position (R97). -/
namespace Sys2Proof.Machine

/-- n divided by d, for d above 0, rounded to the nearest whole number with halves away from zero (00, Interpolation and
rounding). -/
def roundDiv (n d : Int) : Int :=
  if 0 ≤ n then (2 * n + d) / (2 * d) else -((2 * (-n) + d) / (2 * d))

/-! ## Profiles -/

/-- The index of the segment in which a chainage lies: the number of inner breakpoints at or below it, so that a chainage below
0 lies in segment 0 and one at or beyond the length in the last segment (R4, R5). -/
def segmentIndex (pts : List Point) (c : Int) : Nat :=
  (((pts.drop 1).dropLast).filter (fun p => decide (p.chainage ≤ c))).length

/-- The straight line through two points at a chainage, rounded (R5). -/
def lineAt (p q : Point) (c : Int) : Int :=
  roundDiv (p.invert * (q.chainage - p.chainage) + (q.invert - p.invert) * (c - p.chainage)) (q.chainage - p.chainage)

/-- The profile invert at a chainage (R5); 0 for a list with no segment (log 28). -/
def invertAt (pts : List Point) (c : Int) : Int :=
  match pts[segmentIndex pts c]?, pts[segmentIndex pts c + 1]? with
  | some p, some q => lineAt p q c
  | _, _ => 0

/-! ## Spans -/

/-- The index of the span covering a chainage: span 0 below 0, the last span at the length and beyond (R6). -/
def spanIndex (spans : List Span) (c : Int) : Nat :=
  ((spans.drop 1).filter (fun k => decide (k.start ≤ c))).length

/-- The plane elevation of a span at a chainage, inside the span or out of it (R6). -/
def planeAt (k : Span) (c : Int) : Int :=
  roundDiv (k.plane * 1000000 + k.slope * (c - k.start)) 1000000

/-- The effective plane elevation: the plane elevation plus the correction of the span's station as it stands (R6, R27). -/
def effectivePlane (st : Store) (k : Span) (c : Int) : Int :=
  planeAt k c + (st.stations.get k.station).correction

/-- A span of the list names the station. -/
def namesStation (n : StationId) (spans : List Span) : Bool := spans.any (fun k => k.station == n)

/-- The line names the station in a span of its current profile or of its staged revision (R32). -/
def Line.namesStation (l : Line) (n : StationId) : Bool :=
  Machine.namesStation n l.spans || l.staged?.any (fun st => Machine.namesStation n st.spans)

/-! ## Trim (R161) -/

/-- The effective trim at a chainage under a given TRIM_RAMP. -/
def trimAt (r : RunContext) (ramp c : Int) : Int :=
  if c < r.rampStart then r.trimFrom
  else if r.rampStart + ramp ≤ c then r.trimTo
  else roundDiv (r.trimFrom * ramp + (r.trimTo - r.trimFrom) * (c - r.rampStart)) ramp

/-- The target invert of the ACTIVE line at a chainage: profile invert minus effective trim (R137). -/
def targetAt (st : Store) (l : Line) (r : RunContext) (c : Int) : Int :=
  invertAt l.points c - trimAt r st.settings.trimRamp c

/-- The measured invert of an offset under a span at a chainage (R138). -/
def measuredAt (st : Store) (k : Span) (c offset : Int) : Int :=
  effectivePlane st k c - st.settings.mast - offset

/-! ## Freeze (R150, R151) -/

/-- The freeze chainage: the lesser of F + FREEZE_LEAD and the length, and 0 while F is unset (R150). -/
def freezeChainage (st : Store) (l : Line) (f : Option Int) : Int :=
  match f with
  | none => 0
  | some f => min (f + st.settings.freezeLead) l.length

/-- Test 1 of R151: the lists keep breakpoints 0 to j, where j is the first at or above the freeze chainage. -/
def keepsPoints (freeze : Int) (current lists : List Point) : Bool :=
  let j := current.findIdx (fun p => decide (freeze ≤ p.chainage))
  decide (j + 1 ≤ lists.length) && (lists.take (j + 1) == current.take (j + 1))

/-- Test 2 of R151: the spans that start at or below the freeze chainage are the same. -/
def keepsSpans (freeze : Int) (current lists : List Span) : Bool :=
  (lists.filter (fun k => decide (k.start ≤ freeze))) == (current.filter (fun k => decide (k.start ≤ freeze)))

/-- The freeze condition of lists against an ACTIVE line (R151). -/
def meetsFreeze (st : Store) (l : Line) (f : Option Int) (pts : List Point) (spans : List Span) : Bool :=
  let freeze := freezeChainage st l f
  keepsPoints freeze l.points pts && keepsSpans freeze l.spans spans && f.all (fun f => decide (f < lengthOf pts))

/-! ## Position (R97) -/

/-- The chainage: the position divided by 1,000 and truncated toward zero (R97). -/
def Chain.chainage (k : Chain) : Int := Int.tdiv k.position 1000

/-- The micrometre remainder (R97). -/
def Chain.remainder (k : Chain) : Int := Int.tmod k.position 1000

/-- The chainage of the machine. -/
def State.chainage (s : State) : Int := s.chain.chainage

end Sys2Proof.Machine
end

