-- ==== Sys2Proof/Machine/PlanCheck.lean ====
section
/-! DEFINITION. The plan check (03): its subject, its tests in order, and a check in flight, which reads its inputs test by test
while other rows are taken (R43). -/
namespace Sys2Proof.Machine

/-! ## The subject (R44) -/

/-- What a check tests. -/
structure Subject where
  id : Nat
  points : List Point
  spans : List Span
  parent : Option Nat
  junction : Option Int
  /-- The check is a commit's: HOLE is made, and the move test where the line exists. -/
  commit : Bool
  /-- The lowest absent breakpoint slot below a present one (R47). -/
  pointGap : Option Nat
  /-- The lowest absent span slot below a present one (R47). -/
  spanGap : Option Nat
deriving DecidableEq, Repr

/-- The lowest absent slot that has a present one above it (R47). -/
def gapOf {α : Type} (slots : List (Option α)) : Option Nat :=
  let i := slots.findIdx Option.isNone
  if (slots.drop i).any Option.isSome then some i else none

/-- The present slots in index order. -/
def present {α : Type} (slots : List (Option α)) : List α := slots.filterMap (fun x => x)

/-- The subject of a commit: the draft (R44). -/
def Draft.subject (d : Draft) (id : Nat) : Subject :=
  { id := id, points := present d.points, spans := present d.spans, parent := d.parent, junction := d.junction, commit := true,
    pointGap := gapOf d.points, spanGap := gapOf d.spans }

/-- The subject of a re-check: the stored current profile, span list and header (R44). -/
def Line.subject (l : Line) : Subject :=
  { id := l.id, points := l.points, spans := l.spans, parent := l.parent?, junction := l.outlet.map (fun o => o.junction),
    commit := false, pointGap := none, spanGap := none }

/-! ## The tests (R45) -/

/-- One test of the check. STATION has one for each span and the clearance items one for each evaluation point, since each reads
the store when it is reached (R53, R55); PARENT and JUNCTION have one for each test of their rules. -/
inductive CheckTest
  | count
  | hole
  | order
  | spacing
  | length
  | fall
  | spans
  | station (k : Nat) (span : Span)
  | clear (chainage : Int) (span : Span)
  | move
  | parentExists
  | parentAbandoned
  | cycleAndLevel
  | junctionPresent
  | junctionRange
  | drop
deriving DecidableEq, Repr

/-- A failure with its reason and location. -/
def failAt (r : CheckReason) (w : Location) : Option Failure := some { reason := r, location := w }

/-- COUNT (R46). -/
def countTest (u : Subject) : Option Failure :=
  if ¬(2 ≤ u.points.length ∧ u.points.length ≤ Config.maxBreakpoints) then failAt .count (.breakpoint u.points.length)
  else if ¬(1 ≤ u.spans.length ∧ u.spans.length ≤ Config.maxSpans) then failAt .count (.span u.spans.length)
  else none

/-- HOLE (R47). -/
def holeTest (u : Subject) : Option Failure :=
  match u.pointGap with
  | some k => failAt .hole (.breakpoint k)
  | none =>
    match u.spanGap with
    | some k => failAt .hole (.span k)
    | none => none

/-- The first k, counting from the given one, at which a breakpoint's chainage is not above the one before it (R48). -/
def firstDisorder (k : Nat) : List Point → Option Nat
  | p :: q :: rest => if p.chainage < q.chainage then firstDisorder (k + 1) (q :: rest) else some (k + 1)
  | _ => none

/-- ORDER (R48). -/
def orderTest (u : Subject) : Option Failure :=
  match u.points with
  | [] => none
  | p :: _ =>
    if p.chainage ≠ 0 then failAt .order (.breakpoint 0)
    else match firstDisorder 0 u.points with
      | some k => failAt .order (.breakpoint k)
      | none => none

/-- The chainage of the start of the first segment for which a test fails. -/
def firstSegment (bad : Point → Point → Bool) : List Point → Option Int
  | p :: q :: rest => if bad p q then some p.chainage else firstSegment bad (q :: rest)
  | _ => none

/-- SPACING (R49). -/
def spacingTest (u : Subject) : Option Failure :=
  (firstSegment (fun p q => decide (q.chainage - p.chainage < 1000)) u.points).bind (fun c => failAt .spacing (.chainage c))

/-- LENGTH (R50). -/
def lengthTest (u : Subject) : Option Failure :=
  if within 5000 1200000 (lengthOf u.points) then none else failAt .length (.chainage (lengthOf u.points))

/-- FALL (R51), with the MIN_FALL in force when the item is reached. -/
def fallTest (st : Store) (u : Subject) : Option Failure :=
  (firstSegment
    (fun p q => decide ((q.invert - p.invert) * 1000000 < st.settings.minFall * (q.chainage - p.chainage)))
    u.points).bind (fun c => failAt .fall (.chainage c))

/-- The first span that fails SPANS (R52), from span k on, with the span before it. -/
def firstBadSpan (length : Int) (k : Nat) (before : Option Span) : List Span → Option Nat
  | [] => none
  | x :: rest =>
    let startBad := match before with
      | none => decide (x.start ≠ 0)
      | some b => decide (x.start ≤ b.start)
    let stationBad := match before with
      | none => false
      | some b => b.station == x.station
    if startBad || decide (length ≤ x.start) || stationBad then some k else firstBadSpan length (k + 1) (some x) rest

/-- SPANS (R52). -/
def spansTest (u : Subject) : Option Failure :=
  (firstBadSpan (lengthOf u.points) 0 none u.spans).bind (fun k => failAt .spans (.span k))

/-- STATION for one span (R53). -/
def stationTest (st : Store) (k : Nat) (x : Span) : Option Failure :=
  if (st.stations.get x.station).isInService then none else failAt .station (.span k)

/-- The evaluation points of one span, whose end is given (R54). -/
def spanPoints (pts : List Point) (x : Span) (stop : Int) : List (Int × Span) :=
  (x.start, x)
    :: ((pts.filter (fun p => decide (x.start < p.chainage ∧ p.chainage < stop))).map (fun p => (p.chainage, x)))
    ++ [(stop, x)]

/-- The evaluation points in ascending chainage, at one chainage the lower span first (R54). -/
def evaluationPoints (pts : List Point) : List Span → List (Int × Span)
  | [] => []
  | [x] => spanPoints pts x (lengthOf pts)
  | x :: y :: rest => spanPoints pts x y.start ++ evaluationPoints pts (y :: rest)

/-- The clearance at one evaluation point (R55). -/
def clearTest (st : Store) (u : Subject) (c : Int) (x : Span) : Option Failure :=
  let clearance := effectivePlane st x c - invertAt u.points c
  if clearance < st.settings.mast - st.settings.clearBand then failAt .clearLow (.chainage c)
  else if st.settings.mast + st.settings.clearBand < clearance then failAt .clearHigh (.chainage c)
  else none

/-- PARENT test 1: a line with children does not take another parent (R56). -/
def moveTest (st : Store) (u : Subject) : Option Failure :=
  match st.line? u.id with
  | none => none
  | some l =>
    if l.parent? = u.parent then none
    else match st.children u.id with
      | [] => none
      | k :: _ => failAt .parent (.line k.id)

/-- PARENT test 2: the parent is a line record (R56). -/
def parentExistsTest (st : Store) (u : Subject) : Option Failure :=
  match u.parent with
  | none => none
  | some p => if (st.line? p).isSome then none else failAt .parent (.line p)

/-- PARENT test 3: the parent is not ABANDONED (R56). -/
def parentAbandonedTest (st : Store) (u : Subject) : Option Failure :=
  match u.parent with
  | none => none
  | some p =>
    match st.line? p with
    | none => none
    | some l => if l.lifecycle.kind = .abandoned then failAt .parent (.line p) else none

/-- The chain of lines from an id upward, at most the given number of them (R56). -/
def Store.chainUp (st : Store) : Nat → Nat → List Nat
  | 0, _ => []
  | n + 1, id =>
    match st.line? id with
    | none => []
    | some l =>
      id :: (match l.parent? with
        | none => []
        | some p => st.chainUp n p)

/-- PARENT test 4: no cycle, and the subject's level is at most 3 (R56). -/
def cycleAndLevelTest (st : Store) (u : Subject) : Option Failure :=
  match u.parent with
  | none => none
  | some p =>
    let chain := st.chainUp Config.maxLevels p
    if chain.contains u.id then failAt .parent (.line u.id)
    else if Config.maxLevels ≤ chain.length then failAt .parent (.line p)
    else none

/-- JUNCTION test 1: a line with a parent has a junction (R57). -/
def junctionPresentTest (u : Subject) : Option Failure :=
  if u.parent.isSome && u.junction.isNone then failAt .junction .nowhere else none

/-- The parent's record and the junction, where both are present (a parent that is gone by now is left to the completion tests;
log 21). -/
def junctionOn (st : Store) (u : Subject) : Option (Line × Int) :=
  u.parent.bind (fun p => (st.line? p).bind (fun l => u.junction.map (fun j => (l, j))))

/-- JUNCTION test 2: the junction lies on the parent (R57). -/
def junctionRangeTest (st : Store) (u : Subject) : Option Failure :=
  match junctionOn st u with
  | none => none
  | some (l, j) => if within 0 l.length j then none else failAt .junction (.chainage j)

/-- JUNCTION test 3: the drop is at least JUNCTION_DROP (R57). -/
def dropTest (st : Store) (u : Subject) : Option Failure :=
  match junctionOn st u, u.points.head? with
  | some (l, j), some p0 =>
    if p0.invert - invertAt l.points j < st.settings.junctionDrop then failAt .junction (.chainage j) else none
  | _, _ => none

/-- One test made against the store as it stands. -/
def CheckTest.run (st : Store) (u : Subject) : CheckTest → Option Failure
  | .count => countTest u
  | .hole => holeTest u
  | .order => orderTest u
  | .spacing => spacingTest u
  | .length => lengthTest u
  | .fall => fallTest st u
  | .spans => spansTest u
  | .station k x => stationTest st k x
  | .clear c x => clearTest st u c x
  | .move => moveTest st u
  | .parentExists => parentExistsTest st u
  | .parentAbandoned => parentAbandonedTest st u
  | .cycleAndLevel => cycleAndLevelTest st u
  | .junctionPresent => junctionPresentTest u
  | .junctionRange => junctionRangeTest st u
  | .drop => dropTest st u

/-- HOLE is a commit's (R44). -/
def Subject.holeTests (u : Subject) : List CheckTest := if u.commit then [CheckTest.hole] else []

/-- STATION, span by span (R53). -/
def Subject.stationTests (u : Subject) : List CheckTest := u.spans.zipIdx.map (fun e => CheckTest.station e.2 e.1)

/-- The clearance items, point by point (R54). -/
def Subject.clearTests (u : Subject) : List CheckTest :=
  (evaluationPoints u.points u.spans).map (fun e => CheckTest.clear e.1 e.2)

/-- The move test is a commit's (R56). -/
def Subject.moveTests (u : Subject) : List CheckTest := if u.commit then [CheckTest.move] else []

/-- The rest of PARENT, and JUNCTION (R56, R57). -/
def forestTests : List CheckTest :=
  [CheckTest.parentExists, CheckTest.parentAbandoned, CheckTest.cycleAndLevel, CheckTest.junctionPresent,
   CheckTest.junctionRange, CheckTest.drop]

/-- The tests of a subject in the order of R45. HOLE and the move test are a commit's (R44, R56). -/
def Subject.tests (u : Subject) : List CheckTest :=
  CheckTest.count :: (u.holeTests ++ (CheckTest.order :: CheckTest.spacing :: CheckTest.length :: CheckTest.fall ::
    CheckTest.spans :: (u.stationTests ++ (u.clearTests ++ (u.moveTests ++ forestTests)))))

/-- The first failure of a list of tests made one after another against one store. -/
def firstFailure (st : Store) (u : Subject) (ts : List CheckTest) : Option Failure := ts.findSome? (fun t => t.run st u)

/-- The whole check made against one store (R45). -/
def planCheck (st : Store) (u : Subject) : Option Failure := firstFailure st u u.tests

/-! ## A check in flight (R43) -/

/-- A check that has just begun. -/
def CheckRun.begun : CheckRun := { made := 0, failure := none }

/-- The check makes up to n more of its tests against the store as it stands; a failure ends it. -/
def CheckRun.proceed (c : CheckRun) (st : Store) (u : Subject) (n : Nat) : CheckRun :=
  match c.failure with
  | some _ => c
  | none => { made := c.made + n, failure := firstFailure st u ((u.tests.drop c.made).take n) }

/-- The result at completion: the failure already met, or the first of the tests still to make. -/
def CheckRun.result (c : CheckRun) (st : Store) (u : Subject) : Option Failure :=
  match c.failure with
  | some f => some f
  | none => firstFailure st u (u.tests.drop c.made)

/-- The subject of a port's commit in flight: the port's draft under the id its slot holds (R44, R73). -/
def PortState.subject? (q : PortState) : Option Subject :=
  match q.claim, q.draft with
  | some id, some d => some (d.subject id)
  | _, _ => none

/-- A port's commit in flight proceeds by n tests. -/
def PortState.proceed (q : PortState) (st : Store) (n : Nat) : PortState :=
  match q.commit, q.subject? with
  | some c, some u => { q with commit := some { c with check := c.check.proceed st u n } }
  | _, _ => q

/-- The Re-check unit's check in flight proceeds by n tests. -/
def Recheck.proceed (r : Recheck) (st : Store) (n : Nat) : Recheck :=
  match r.inFlight with
  | none => r
  | some f =>
    match st.line? f.id with
    | none => r
    | some l => { r with inFlight := some { f with check := f.check.proceed st l.subject n } }

/-- Before a step changes an input of checks, each check in flight has proceeded by a number of tests that the manual leaves open
(R43; free value, log 5). -/
def State.proceedChecks (s : State) : State :=
  { s with
    cab := s.cab.proceed s.store (Config.checkReads s.free)
    plan := s.plan.proceed s.store (Config.checkReads (s.free + 1))
    recheck := s.recheck.proceed s.store (Config.checkReads (s.free + 2))
    free := s.free + 3 }

end Sys2Proof.Machine
end

