-- ==== Sys2Proof/Machine/Marks.lean ====
section
/-! DEFINITION. Staleness marks and the Re-check unit (05): backlog, the queue, the scan, the check in flight; and the marking changes
that reach commits in flight (R78). -/
namespace Sys2Proof.Machine

/-! ## Backlog (R92) -/

/-- The backlog flag evaluated after a change of the queue length or of scan-pending. -/
def State.evalBacklog (s : State) : State :=
  let r := s.recheck
  if !r.backlog && (decide (Config.backlogOn ≤ r.queue.length) || r.scanPending) then
    (s.updRecheck (fun r => { r with backlog := true })).raise .backlog
  else if r.backlog && decide (r.queue.length ≤ Config.backlogOff) && !r.scanPending then
    (s.updRecheck (fun r => { r with backlog := false })).raise .backlog
  else s

/-! ## The beginning and the end of a pass (R90, R91) -/

/-- SWEPT is raised when the unit is at rest with its work done (R91). -/
def State.sweptTest (s : State) : State :=
  if s.recheck.queue.isEmpty && s.recheck.inFlight.isNone && !s.recheck.scanPending then s.raise .swept else s

/-- A check of a line starts (R86). -/
def State.startCheck (s : State) (id : Nat) (o : Origin) : State :=
  s.updRecheck (fun r => { r with inFlight := some { id := id, discard := false, origin := o, check := CheckRun.begun } })

/-- The lowest id above a position that names a STALE line (R90). -/
def Store.staleAbove? (st : Store) (pos : Nat) : Option Nat :=
  (st.lines.find? (fun l => decide (pos < l.id) && l.status == .stale)).map (fun l => l.id)

/-- The scan reaches a line: its check starts with origin SCAN (R90). -/
def State.scanTo (s : State) (id : Nat) : State :=
  (s.updRecheck (fun r => { r with scanPos := some id })).startCheck id .scan

/-- The pass ends with repeat clear: scan-pending is cleared, backlog evaluated, and SWEPT tested (R90, R91). -/
def State.endPass (s : State) : State :=
  ((s.updRecheck (fun r => { r with scanPending := false, scanPos := none })).evalBacklog).sweptTest

/-- A pass from the start of the table (R90). -/
def State.beginPass (s : State) : State :=
  let s1 := s.updRecheck (fun r => { r with scanPos := some 0, again := false })
  match s1.store.staleAbove? 0 with
  | some id => s1.scanTo id
  | none => s1.endPass

/-- With nothing queued and nothing in flight, a pass that waits to be begun is begun. So a scan pass is the unit's first work after
a restart that found a STALE line, though a mark comes before CHECK_START (R82, R181; log 17). -/
def State.firstWork (s : State) : State :=
  let r := s.recheck
  if r.inFlight.isNone && r.queue.isEmpty && r.scanPending && r.scanPos.isNone then s.beginPass else s

/-! ## Marks (R17, R83, R84) -/

/-- The discard flag of the check in flight is set if that check is of the line (R87). -/
def State.discardCheck (s : State) (id : Nat) : State :=
  s.updRecheck (fun r =>
    { r with inFlight := r.inFlight.map (fun f => if f.id = id then { f with discard := true } else f) })

/-- The queue cases of R84. -/
def Recheck.takeMark (r : Recheck) (id : Nat) : Recheck :=
  if r.queue.contains id then r
  else if r.queue.length < Config.queueEntries then { r with queue := r.queue ++ [id] }
  else { r with scanPending := true, again := r.again || r.scanPos.isSome }

/-- One mark applied by the Re-check unit (R84). -/
def State.applyMark (s : State) (id : Nat) : State :=
  ((s.updRecheck (fun r => r.takeMark id)).discardCheck id).evalBacklog

/-- A discard that raises DROPPED sets the last drop (R152, R159). -/
def State.noteDrop (s : State) (id : Nat) (reason : DropReason) : State :=
  (s.raise .dropped).updRunUnit (fun r => { r with lastDrop := some { id := id, reason := reason } })

/-- A record marked STALE: any conflict goes, and so does a staged revision (R16, R17). -/
def Line.marked (l : Line) : Line := { l.setStaged none with status := .stale }

/-- A line that a change hits and that takes marks (R17). -/
def Line.takesMark (target : Line → Bool) (l : Line) : Bool := l.takesMarks && target l

/-- The records hit are set STALE (R17). -/
def State.writeMarks (s : State) (target : Line → Bool) : State := s.mapLines (fun l => if l.takesMark target then l.marked else l)

/-- A staged revision that a mark discards is noted with DROPPED and reason STALE (R17, R159). -/
def State.noteMarkDrop (s : State) (before : List Line) (target : Line → Bool) : State :=
  match before.find? (fun l => l.takesMark target && l.staged?.isSome) with
  | some l => s.noteDrop l.id .stale
  | none => s

/-- The ids of the records hit, in ascending order. -/
def markedIds (lines : List Line) (target : Line → Bool) : List Nat := (lines.filter (Line.takesMark target)).map (fun l => l.id)

/-- The marks of one change: the records are set STALE, a staged revision of the ACTIVE line is discarded with DROPPED, and the
batch is handed to the Re-check unit in ascending id (R17, R83). COMPLETE and ABANDONED lines take no mark. A pass that waits to be begun
is begun before a batch that is not empty (R82, R181; log 17). -/
def State.markLines (s : State) (target : Line → Bool) : State :=
  let s1 := if (markedIds s.store.lines target).isEmpty then s else s.firstWork
  (markedIds s.store.lines target).foldl State.applyMark ((s1.writeMarks target).noteMarkDrop s.store.lines target)

/-! ## Marking changes and commits in flight (R78) -/

/-- The changes of R78 that can mark a line. -/
inductive Change
  /-- PLANE with a changed value, WITHDRAW or RESTORE of a station. -/
  | station (n : StationId)
  /-- A commit, an applied revision, ABANDON, RETIRE or the creation of a line that others name as parent. -/
  | parent (id : Nat)
  /-- A group-A setting. -/
  | groupA
  /-- RECHECK of a line. -/
  | line (id : Nat)
deriving DecidableEq, Repr

/-- The change reaches the stored line. -/
def Change.hitsLine (c : Change) (l : Line) : Bool :=
  match c with
  | .station n => l.namesStation n
  | .parent id => l.parent? == some id
  | .groupA => true
  | .line id => l.id == id

/-- The change reaches a draft of the line with the claimed id. -/
def Change.hitsDraft (c : Change) (claimed : Nat) (d : Draft) : Bool :=
  match c with
  | .station n => namesStation n (present d.spans)
  | .parent id => d.parent == some id
  | .groupA => true
  | .line id => claimed == id

/-- The draft of the port's commit in flight is reached. -/
def PortState.draftHit (q : PortState) (c : Change) : Option Nat :=
  match q.commit, q.claim, q.draft with
  | some _, some id, some d => if c.hitsDraft id d then some id else none
  | _, _, _ => none

/-- The port's commit in flight is reached, through its draft or through the stored line (R78). -/
def PortState.isReached (q : PortState) (st : Store) (c : Change) : Bool :=
  (q.draftHit c).isSome || (q.commit.isSome && (q.claim.bind st.line?).any c.hitsLine)

/-- A reached commit is recorded as reached (R78). -/
def PortState.reach (q : PortState) (st : Store) (c : Change) : PortState :=
  if q.isReached st c then { q with commit := q.commit.map (fun k => { k with reached := true }) } else q

/-- The Claim unit records which commits in flight a change has reached (R78). -/
def State.reach (s : State) (c : Change) : State :=
  { s with cab := s.cab.reach s.store c, plan := s.plan.reach s.store c }

/-- The lines a change marks: those it reaches as stored, and those whose draft in flight it reaches (R32, R78; log 20). -/
def State.marksLine (s : State) (c : Change) (l : Line) : Bool :=
  c.hitsLine l || s.cab.draftHit c == some l.id || s.plan.draftHit c == some l.id

/-- A marking change: it reaches commits in flight and marks lines (R78). -/
def State.markingChange (s : State) (c : Change) : State := (s.reach c).markLines (s.marksLine c)

/-! ## The queue and the scan (R85, R86, R90, R91) -/

/-- An id leaves the queue wherever it stands (R85). -/
def State.unqueue (s : State) (id : Nat) : State :=
  if s.recheck.queue.contains id then
    (s.updRecheck (fun r => { r with queue := r.queue.filter (fun k => k != id) })).evalBacklog
  else s

/-- The running pass goes on above its position: to the next STALE line, or to its end and, with repeat set, a new pass (R90). -/
def State.carryPass (s : State) (pos : Nat) : State :=
  match s.store.staleAbove? pos with
  | some id => s.scanTo id
  | none => if s.recheck.again then s.beginPass else s.endPass

/-- With no check in flight, the unit looks for work (R86). -/
def State.lookForWork (s : State) : State :=
  match s.recheck.inFlight, s.recheck.queue with
  | some _, _ => s
  | none, id :: rest => ((s.updRecheck (fun r => { r with queue := rest })).startCheck id .queue).evalBacklog
  | none, [] =>
    if s.recheck.scanPending then
      match s.recheck.scanPos with
      | none => s.beginPass
      | some pos => s.carryPass pos
    else s

/-- A check that came from the scan carries the pass on when no entry waits in the queue (R88, R90). -/
def State.carryAfter (s : State) (o : Origin) : State :=
  match o, s.recheck.queue, s.recheck.scanPos with
  | .scan, [], some pos => s.carryPass pos
  | _, _, _ => s

/-- The write of a re-check's result that was not discarded (R88). -/
def State.writeResult (s : State) (id : Nat) (r : Option Failure) : State :=
  match r with
  | none => s.updLine id (fun l => { l with status := .checked })
  | some f => (s.updLine id (fun l => { l with status := .conflict f })).raise .conflict

/-- The completion of the check in flight (R88). -/
def State.finishRecheck (s : State) (f : InFlight) : State :=
  let written :=
    if f.discard then s
    else match s.line? f.id with
      | none => s
      | some l => s.writeResult f.id (f.check.result s.store l.subject)
  (((written.updRecheck (fun r => { r with inFlight := none })).carryAfter f.origin).sweptTest).lookForWork

end Sys2Proof.Machine
end

