-- ==== Sys2Proof/Machine/RunOps.lean ====
section
/-! DEFINITION. The Run controller's shared operations (07, 09): changes of run state, halts, the serving span and its switch (08), segments,
the application and discard of staged revisions. -/
namespace Sys2Proof.Machine

/-! ## Run state (R108) -/

/-- The run is CUTTING or COASTING. -/
def State.digging (s : State) : Bool := s.runState? == some .cutting || s.runState? == some .coasting

/-- The run is SUSPENDED or HALTED. -/
def State.stopped (s : State) : Bool :=
  match s.runState? with
  | some (.suspended _) => true
  | some (.halted _) => true
  | _ => false

/-- The further event of a change of run state: HALT into HALTED, COAST into COASTING (R108). -/
def State.raiseEntry (s : State) (r : RunState) : State :=
  match r with
  | .halted _ => s.raise .halt
  | .coasting => s.raise .coast
  | _ => s

/-- A change of run state: it is written to the run context, the strike timer stops (it runs in CUTTING alone, and each entry into
CUTTING starts it, R122), the drive level is 0 (R140), and RUN is raised, with HALT or COAST (R108). -/
def State.changeRun (s : State) (r : RunState) : State :=
  ((((s.updRun (fun c => { c with state := r })).updRunUnit (fun u => { u with timer := none })).updEval
    (fun e => { e with drive := 0 })).raise .run).raiseEntry r

/-- A halt is taken while CUTTING or COASTING (R126, R127). -/
def State.haltDigging (s : State) (h : HaltReason) : State := if s.digging then s.changeRun (.halted h) else s

/-- A GRADE halt is taken while CUTTING (R127). -/
def State.haltGrade (s : State) : State := if s.runState? == some .cutting then s.changeRun (.halted .grade) else s

/-- A suspension with a reason, taken while CUTTING or COASTING (R105, R116). -/
def State.suspendDigging (s : State) (r : SuspendReason) : State := if s.digging then s.changeRun (.suspended r) else s

/-- Entry into COASTING; with COAST_LIMIT 0 the limit is reached at once (R123). -/
def State.enterCoasting (s : State) : State :=
  let s1 := (s.updRunUnit (fun u => { u with coast := 0 })).changeRun .coasting
  if s1.settings.coastLimit ≤ 0 then s1.changeRun (.halted .coast) else s1

/-- The strike timer runs with a deadline (R122). -/
def State.startTimer (s : State) (deadline : Nat) : State := s.updRunUnit (fun u => { u with timer := some deadline })

/-! ## The serving span (R134, R135) -/

/-- The span list of the ACTIVE line's current profile. -/
def State.spanList (s : State) : List Span :=
  match s.active? with
  | some l => l.spans
  | none => []

/-- The serving span of the current list. -/
def State.servingSpan? (s : State) : Option Span := s.eval.serving.bind (fun k => s.spanList[k]?)

/-- The serving station. -/
def State.servingStation? (s : State) : Option StationId := s.servingSpan?.map (fun k => k.station)

/-- The span after the serving span (R39). -/
def State.nextSpan? (s : State) : Option Span := s.eval.serving.bind (fun k => s.spanList[k + 1]?)

/-- What a switch does in the run state in which it is taken (R135). -/
def State.afterSwitch (s : State) : State :=
  if s.runState? == some .cutting then
    match s.servingStation?.bind s.freshStrike? with
    | some k => s.startTimer (k.time + s.strikeTimeout)
    | none => s.enterCoasting
  else s

/-- The serving span set, with the handoff reference none (R135). -/
def State.setServing (s : State) (k : Option Nat) : State :=
  s.updEval (fun e => { e with serving := k, reference := none })

/-- The serving span worked out afresh (R134). `held` is the station of the span held until now: a span worked out that differs in
index or in station is a switch. -/
def State.moveServing (s : State) (held : Option StationId) : State :=
  if s.chain.known then
    let k := spanIndex s.spanList s.chainage
    if s.eval.serving = some k ∧ (s.spanList[k]?).map (fun x => x.station) = held then s
    else (s.setServing (some k)).afterSwitch
  else if s.eval.serving.isSome then s.setServing none else s

/-! ## Segments (R7, R8, R128, R129) -/

/-- A closure part at entry (R7). -/
def Closure.entered : Closure := { state := .opened, worst := 0, edge := false, grade := false, coasted := 0 }

/-- A segment's closure part changed, if it is OPEN (R8). -/
def Breakpoint.updOpen (b : Breakpoint) (f : Closure → Closure) : Breakpoint :=
  match b.closure with
  | some c => if c.state = .opened then { b with closure := some (f c) } else b
  | none => b

/-- The segment is OPEN. -/
def Breakpoint.isOpen (b : Breakpoint) : Bool := b.closure.any (fun c => c.state == .opened)

/-- Closing sets the state CLOSED and leaves the fields as they are (R8). -/
def Closure.close (c : Closure) : Closure := { c with state := .closed }

/-- Breakpoint k of a profile changed. -/
def updNth (k : Nat) (f : Breakpoint → Breakpoint) (bs : List Breakpoint) : List Breakpoint :=
  bs.zipIdx.map (fun e => if e.2 = k then f e.1 else e.1)

/-- Segment k of the ACTIVE line is entered: its closure part is created OPEN (R128). -/
def State.enterSegment (s : State) (k : Nat) : State :=
  s.updActive (fun l => { l with profile := updNth k (fun b => { b with closure := some Closure.entered }) l.profile })

/-- The end chainage of segment k. -/
def segmentEnd? (bs : List Breakpoint) (k : Nat) : Option Int := (bs[k + 1]?).map (fun b => b.point.chainage)

/-- The OPEN segment k closes at a new F: its end plus BACKUP is at or below F (R129). -/
def closesAt (bs : List Breakpoint) (k : Nat) (b : Breakpoint) (backup f : Int) : Bool :=
  b.isOpen && (segmentEnd? bs k).any (fun stop => decide (stop + backup ≤ f))

/-- A profile with the segments closed that a new F brings to their end plus BACKUP (R129). -/
def closeEnded (bs : List Breakpoint) (backup f : Int) : List Breakpoint :=
  bs.zipIdx.map (fun e => if closesAt bs e.2 e.1 backup f then e.1.updOpen Closure.close else e.1)

/-- The OPEN segments that a new F brings to their end plus BACKUP are closed, raising CLOSE (R129). -/
def State.closePassed (s : State) (f : Int) : State :=
  match s.active? with
  | none => s
  | some l =>
    if l.profile.zipIdx.any (fun e => closesAt l.profile e.2 e.1 s.settings.backup f) then
      (s.updActive (fun l => { l with profile := closeEnded l.profile s.settings.backup f })).raise .close
    else s

/-- Every OPEN closure part of a line closed. -/
def Line.closeAll (l : Line) : Line := { l with profile := l.profile.map (fun b => b.updOpen Closure.close) }

/-! ## Going to IDLE (R12, R98, R110, R133) -/

/-- The ACTIVE line leaves ACTIVE with its run context and staged revision gone, the run is IDLE, the chainage unknown and the
evaluator empty, and RUN is raised (R12, R98, R110, R133, R108). -/
def State.leaveActive (s : State) (to' : Lifecycle) : State :=
  (((((s.updActive (fun l => { l with lifecycle := to' })).updChain (fun k => { k with known := false, position := 0 })).updRunUnit
    (fun u => { u with coast := 0, timer := none, wait := none })).updEval (fun _ => Evaluator.reset))).raise .run

/-- The staged revision held by a line that leaves ACTIVE is discarded with a reason (R12, R159). -/
def State.noteDropIf (s : State) (l : Line) (reason : DropReason) : State :=
  if l.staged?.isSome then s.noteDrop l.id reason else s

/-! ## Discard and application of the staged revision (09) -/

/-- The staged revision of the ACTIVE line is discarded with DROPPED and its reason (R159). -/
def State.dropStaged (s : State) (l : Line) (reason : DropReason) : State :=
  (s.updActive (fun l => l.setStaged none)).noteDrop l.id reason

/-- The end-warning point of the ACTIVE line (R107). -/
def State.endWarningPoint (s : State) (l : Line) : Int := l.length - s.settings.endWarn

/-- A mark disarmed by a new length at or below it (R106). -/
def keepMark (length : Int) (m : Option Mark) : Option Mark :=
  m.bind (fun k => if length ≤ k.chainage then none else some k)

/-- The current lists replaced by the staged ones: closure parts carried index by index, the revision increased, a STALE or CONFLICT
status set STALE (R157). -/
def Line.applied (l : Line) (st : Staged) : Line :=
  { l.setStaged none with
    profile := st.profile.zipIdx.map (fun e => { point := e.1, closure := (l.profile[e.2]?).bind (fun b => b.closure) })
    spans := st.spans
    revision := l.revision + 1
    status := if l.status = .checked then .checked else .stale }

/-- Step 2 of R157: marks at or beyond the new length are disarmed, and the end-warning flag is cleared if the length has changed and
F is below the new point (R106, R107). -/
def State.fitToLength (s : State) (old : Line) : State :=
  match s.active? with
  | none => s
  | some l =>
    let s1 := s.updRun (fun r => { r with mark1 := keepMark l.length r.mark1, mark2 := keepMark l.length r.mark2 })
    if l.length ≠ old.length ∧ (s.furthest?.all (fun f => decide (f < s.endWarningPoint l))) then
      s1.updChain (fun k => { k with endWarned := false })
    else s1

/-- A successful application (R157): the write, then the marks in one batch, the Chainage unit, the Depth evaluator, REVISED. The
change reaches commits in flight that name the line as parent (R78). -/
def State.applyStaged (s : State) (l : Line) (st : Staged) : State :=
  let s0 := s.proceedChecks
  let held := s0.servingStation?
  let marks := fun k : Line => s0.marksLine (.parent l.id) k || (k.id == l.id && l.status != .checked)
  let s1 := s0.updActive (fun l => l.applied st)
  let s2 := ((s1.reach (.parent l.id)).discardCheck l.id).markLines marks
  ((s2.fitToLength l).moveServing held).raise .revised

/-- The staged revision applied if it meets the freeze condition against F as it stands, and otherwise discarded FROZEN
(R156 to R158). -/
def State.applyOrDrop (s : State) (l : Line) (st : Staged) : State :=
  if meetsFreeze s.store l s.furthest? st.profile st.spans then s.applyStaged l st else s.dropStaged l .frozen

end Sys2Proof.Machine
end

