-- ==== Sys2Proof/Machine/Walk.lean ====
section
/-! DEFINITION. The advance of F (06, 07): the walk over the points it meets, completion, the hand-on of the new F, and the taking of a
count. -/
namespace Sys2Proof.Machine

/-- The kinds of points an advance meets (R102). -/
inductive PointKind
  | crossing (k : Nat)
  | firstMark
  | secondMark
  | endWarning
  | completion
deriving DecidableEq, Repr

/-- At one chainage: crossing, mark 1, mark 2, end warning, and completion after them (R102, R107). -/
def PointKind.rank : PointKind → Nat
  | .crossing _ => 0
  | .firstMark => 1
  | .secondMark => 2
  | .endWarning => 3
  | .completion => 4

/-- A point of the walk. -/
structure Meeting where
  chainage : Int
  kind : PointKind
deriving DecidableEq, Repr

/-- The inner breakpoints of a profile, which F crosses (R103). -/
def crossings (bs : List Breakpoint) : List Meeting :=
  ((bs.zipIdx.drop 1).dropLast).map (fun e => { chainage := e.1.point.chainage, kind := .crossing e.2 })

/-- An armed mark as a point (R104). -/
def markMeeting (m : Option Mark) (k : PointKind) : List Meeting := (m.map (fun x => { chainage := x.chainage, kind := k })).toList

/-- The points of the ACTIVE line as they stand (R102). -/
def State.points (s : State) : List Meeting :=
  match s.active?, s.context? with
  | some l, some r =>
    crossings l.profile ++ markMeeting r.mark1 .firstMark ++ markMeeting r.mark2 .secondMark
      ++ (if s.chain.endWarned then [] else [{ chainage := s.endWarningPoint l, kind := .endWarning }])
      ++ [{ chainage := l.length, kind := .completion }]
  | _, _ => []

/-- A point comes before another in the walk. -/
def Meeting.before (x y : Meeting) : Bool :=
  decide (x.chainage < y.chainage) || (x.chainage == y.chainage && decide (x.kind.rank < y.kind.rank))

/-- The first of a list of points in the order of the walk. -/
def earliest : List Meeting → Option Meeting
  | [] => none
  | x :: xs =>
    match earliest xs with
    | none => some x
    | some y => if y.before x then some y else some x

/-- An end-warning point at or below the chainage at which the walk has changed the length is not met in this walk: an application that
leaves F at or above the new point leaves a clear flag to the next advance (R107). -/
def Meeting.isLeft (m : Meeting) (changedAt : Option Int) : Bool :=
  m.kind == .endWarning && changedAt.any (fun c => decide (m.chainage ≤ c))

/-- The next point after the last one met and at or below the new F, where `changedAt` is the chainage, if any, at which an application
in this walk changed the length (R102, R107). An application that keeps the length puts no new point, so an end-warning point at that
crossing is met after it, the model's reading (log 31). -/
def State.nextPoint? (s : State) (last : Meeting) (changedAt : Option Int) (new : Int) : Option Meeting :=
  earliest (s.points.filter (fun m => last.before m && decide (m.chainage ≤ new) && !m.isLeft changedAt))

/-- Each store write made during a walk records F as the chainage the walk has reached (R100). -/
def State.setFurthest (s : State) (f : Int) : State := s.updRun (fun r => { r with furthest := some f })

/-- A breakpoint crossing: segment k is entered, and then a SETTLED revision is applied or dropped, or WAITING raised for an UNSETTLED
one (R103, R128, R156). -/
def State.cross (s : State) (k : Nat) (c : Int) : State :=
  let s1 := (s.setFurthest c).enterSegment k
  match s1.active?, s1.staged? with
  | some l, some st => if st.settled then s1.applyOrDrop l st else s1.raise .waiting
  | _, _ => s1

/-- The effect of a mark met, before it is disarmed: MARK raised, and a suspension with reason MARK if its effect is SUSPEND (R105). -/
def State.actMark (s : State) (m : Option Mark) : State :=
  let s1 := s.raise .mark
  if m.any (fun x => x.suspends) then s1.suspendDigging .mark else s1

/-- Mark 1 met (R105). -/
def State.meetMark1 (s : State) (c : Int) : State :=
  ((s.setFurthest c).actMark (s.context?.bind (fun r => r.mark1))).updRun (fun r => { r with mark1 := none })

/-- Mark 2 met (R105). -/
def State.meetMark2 (s : State) (c : Int) : State :=
  ((s.setFurthest c).actMark (s.context?.bind (fun r => r.mark2))).updRun (fun r => { r with mark2 := none })

/-- ENDNEAR raised and the end-warning flag set (R107). -/
def State.warnEnd (s : State) : State := (s.updChain (fun k => { k with endWarned := true })).raise .endnear

/-- Completion (R130): OPEN segments closed, raising CLOSE; the line COMPLETE; the run IDLE; RUN, DONE, and DROPPED for a staged
revision. -/
def State.complete (s : State) (l : Line) : State :=
  let s1 := s.updActive Line.closeAll
  let s2 := if l.profile.any Breakpoint.isOpen then s1.raise .close else s1
  ((s2.leaveActive .complete).raise .done).noteDropIf l .complete

/-- One point met (R102). -/
def State.meet (s : State) (m : Meeting) : State :=
  match m.kind with
  | .crossing k => s.cross k m.chainage
  | .firstMark => s.meetMark1 m.chainage
  | .secondMark => s.meetMark2 m.chainage
  | .endWarning => s.warnEnd
  | .completion =>
    match s.active? with
    | some l => s.complete l
    | none => s

/-- The length of the ACTIVE line. -/
def State.activeLength? (s : State) : Option Int := s.active?.map (fun l => l.length)

/-- The chainage at which the walk last changed the length, after the point `m` has led from `s` to `t`. -/
def changeAt (s t : State) (m : Meeting) (changedAt : Option Int) : Option Int :=
  if t.activeLength? = s.activeLength? then changedAt else some m.chainage

/-- The walk (R102): the points are met one at a time, each read as it stands when the walk reaches it. The fuel is a bound on how
many there can be (walkFuel). -/
def State.walk : Nat → State → Meeting → Option Int → Int → State
  | 0, s, _, _, _ => s
  | n + 1, s, last, changedAt, new =>
    match s.nextPoint? last changedAt new with
    | none => s
    | some m => State.walk n (s.meet m) m (changeAt s (s.meet m) m changedAt) new

/-- At most this many points can be met: the breakpoints of the current profile, those of a staged revision that an application in the
walk may put in their place, two marks, the end warning (twice, as an application may clear its flag) and completion. -/
def State.walkFuel (s : State) : Nat :=
  match s.active? with
  | none => 0
  | some l => l.slots + 5

/-- An old F already at or above the end-warning point, with the flag clear, warns at this advance (R107). The test is made before the walk,
on the length as it then is, the model's reading (log 35). -/
def State.warnLate (s : State) (old : Int) : State :=
  match s.active? with
  | none => s
  | some l => if !s.chain.endWarned && decide (s.endWarningPoint l ≤ old) then s.warnEnd else s

/-- The length of the stretch from a to b that lies within a segment (R145). -/
def overlap (a b start stop : Int) : Int := max 0 (min b stop - max a start)

/-- The part of an advance that lies in segment k, added to its coasted field if it is OPEN (R145). -/
def accrueSegment (bs : List Breakpoint) (old new : Int) (k : Nat) (b : Breakpoint) : Breakpoint :=
  match segmentEnd? bs k with
  | none => b
  | some stop => b.updOpen (fun c => { c with coasted := c.coasted + overlap old new b.point.chainage stop })

/-- An advance in COASTING divided among the coasted fields of the OPEN segments it crosses (R145). -/
def State.accrueCoast (s : State) (old new : Int) : State :=
  s.updActive (fun l => { l with profile := l.profile.zipIdx.map (fun e => accrueSegment l.profile old new e.2 e.1) })

/-- The advance added to the coast distance, and the limit tested if the run is still COASTING (R125). -/
def State.addCoast (s : State) (d : Int) : State :=
  let s1 := s.updRunUnit (fun u => { u with coast := u.coast + d })
  if s1.runState? == some .coasting && decide (s1.settings.coastLimit ≤ s1.run.coast) then s1.changeRun (.halted .coast) else s1

/-- The new F handed on after the walk: written, coasting travel accrued and counted, segments closed (R100, R125, R129, R145). After
completion there is no F to hand on (R102; log 15). -/
def State.handOn (s : State) (old new : Int) (coasting : Bool) : State :=
  match s.active? with
  | none => s
  | some _ =>
    let s1 := s.setFurthest new
    let s2 := if coasting then (s1.accrueCoast old new).addCoast (new - old) else s1
    s2.closePassed new

/-- F advances to a greater chainage (R100): the late end warning (log 35), the walk, then the hand-on. `coasting` says that the count was taken in COASTING. -/
def State.advance (s : State) (new : Int) (coasting : Bool) : State :=
  match s.furthest? with
  | none => s
  | some old =>
    let s1 := s.warnLate old
    (s1.walk s1.walkFuel { chainage := old, kind := .completion } none new).handOn old new coasting

/-- Backtrack: while CUTTING or COASTING a chainage below F − BACKUP halts the run (R126). -/
def State.backtrackTest (s : State) : State :=
  match s.furthest? with
  | none => s
  | some f => if decide (s.chainage < f - s.settings.backup) then s.haltDigging .backtrack else s

/-- A new chainage handed to the Run controller and then to the Depth evaluator (R101; log 13), and F advanced if the count was taken
while CUTTING or COASTING (R100). -/
def State.handChainage (s : State) (wasDigging wasCoasting : Bool) : State :=
  let s1 := s.backtrackTest.moveServing s.servingStation?
  match s1.furthest? with
  | none => s1
  | some f => if wasDigging && decide (f < s1.chainage) then s1.advance s1.chainage wasCoasting else s1

/-- The length of a count, signed (R97). -/
def State.countLength (s : State) (forward : Bool) : Int :=
  if forward then s.settings.odoScale else -s.settings.odoScale

/-- A count (R97, R98): it moves the position while the chainage is known and the result lies within ±2,400,000 mm, and a chainage that
has changed is handed on. -/
def State.count (s : State) (forward : Bool) : State :=
  let p := s.chain.position + s.countLength forward
  if s.chain.known && decide (-Config.positionLimit ≤ p ∧ p ≤ Config.positionLimit) then
    let s1 := s.updChain (fun k => { k with position := p })
    if s1.chainage = s.chainage then s1
    else s1.handChainage s.digging (s.runState? == some .coasting)
  else s

end Sys2Proof.Machine
end

