-- ==== Sys2Proof/Machine/Evaluate.lean ====
section
/-! DEFINITION. What becomes of a strike: the evaluation and the boom drive, handoff (08), the judgement of a tie or retie (07), the routing
of an accepted strike and the judgement of a frame (02). -/
namespace Sys2Proof.Machine

/-! ## Demand and drive (R139, R140) -/

/-- A value limited to a range. -/
def clamp (lo hi n : Int) : Int := max lo (min hi n)

/-- The demand of a strike, with the error of an offset reading (R139). -/
def demand (t : Settings) (reading : Reading) (err : Int) : Int :=
  match reading with
  | .edgeHigh => 1000
  | .edgeLow => -1000
  | .offset _ => if (err.natAbs : Int) ≤ t.deadband then 0 else clamp (-1000) 1000 (-(t.gain * err))

/-- The drive level moved toward a demand by SLEW at most (R140). -/
def slewTo (slew level dem : Int) : Int :=
  if ((dem - level).natAbs : Int) ≤ slew then dem
  else if level < dem then level + slew
  else level - slew

/-! ## The steps of an evaluation (R146) -/

/-- An offset reading's value. -/
def Reading.offset? : Reading → Option Int
  | .offset d => some d
  | _ => none

/-- The error of an offset reading under the serving span at the chainage; an edge reading has none (R138). -/
def State.errorOf? (s : State) (reading : Reading) : Option Int :=
  match s.active?, s.context?, s.servingSpan?, reading.offset? with
  | some l, some r, some x, some d => some (measuredAt s.store x s.chainage d - targetAt s.store l r s.chainage)
  | _, _, _, _ => none

/-- An evaluation is out of tolerance: an edge strike, or an absolute error above GRADE_TOL (R142). -/
def outOfTolerance (t : Settings) (err : Option Int) : Bool :=
  match err with
  | none => true
  | some e => decide (t.gradeTol < (e.natAbs : Int))

/-- The grade count and flag updated, GRADE raised when the flag is set (R142). -/
def State.updateGrade (s : State) (out : Bool) : State :=
  let n := if out then min Config.gradeCountTop (s.eval.gradeCount + 1) else 0
  let flag := out && s.eval.gradeFlag
  if decide (s.settings.gradeCount ≤ (n : Int)) && !flag then
    (s.updEval (fun e => { e with gradeCount := n, gradeFlag := true })).raise .grade
  else s.updEval (fun e => { e with gradeCount := n, gradeFlag := flag })

/-- The fields of a closure part after an evaluation (R8, R144). -/
def Closure.accrue (c : Closure) (err : Option Int) (grade : Bool) : Closure :=
  { c with
    worst := match err with
      | some e => max c.worst (min Config.worstTop (e.natAbs : Int))
      | none => c.worst
    edge := c.edge || err.isNone
    grade := c.grade || grade }

/-- A line with an evaluation accrued to the OPEN segment that contains a chainage (R144). -/
def Line.accrue (l : Line) (c : Int) (err : Option Int) (grade : Bool) : Line :=
  { l with profile := updNth (segmentIndex l.points c) (fun b => b.updOpen (fun k => k.accrue err grade)) l.profile }

/-- The evaluation accrued to the OPEN segment that contains the chainage (R144). -/
def State.accrue (s : State) (err : Option Int) : State :=
  s.updActive (fun l => l.accrue s.chainage err s.eval.gradeFlag)

/-- The handoff reference set to a strike with an offset reading (R147). -/
def State.setReference (s : State) (reading : Reading) : State :=
  match reading.offset? with
  | some d => s.updEval (fun e => { e with reference := some { offset := d, chainage := s.chainage, time := s.time } })
  | none => s

/-- Steps 5 and 6 of R146: the drive and the handoff reference. -/
def State.drive (s : State) (reading : Reading) (err : Option Int) : State :=
  let dem := demand s.settings reading (err.getD 0)
  (s.updEval (fun e => { e with drive := slewTo s.settings.slew e.drive dem })).setReference reading

/-- An evaluation of a strike from the serving station while CUTTING (R146). -/
def State.evaluate (s : State) (reading : Reading) : State :=
  let err := s.errorOf? reading
  let s1 := (s.updateGrade (outOfTolerance s.settings err)).accrue err
  if s1.settings.gradeEffect = .halt && s1.eval.gradeFlag then s1.haltGrade else s1.drive reading err

/-! ## Handoff (R148) -/

/-- The chainage lies in the handoff zone of the serving span (R39, R148). -/
def State.inHandoffZone (s : State) : Bool :=
  match s.nextSpan? with
  | some x => decide (x.start - s.settings.handoffLen ≤ s.chainage ∧ s.chainage < x.start)
  | none => false

/-- The handoff difference of an offset from the next span's station, if there is a fresh reference (R147, R148). -/
def State.handoffDifference? (s : State) (d : Int) : Option Int :=
  match s.servingSpan?, s.nextSpan?, s.eval.reference with
  | some x, some y, some r =>
    if s.freshTime r.time then
      some (measuredAt s.store y s.chainage d - measuredAt s.store x r.chainage r.offset)
    else none
  | _, _, _ => none

/-- A handoff comparison (R148). -/
def State.compareHandoff (s : State) (reading : Reading) : State :=
  match reading.offset?.bind s.handoffDifference? with
  | some diff => if s.settings.handoffTol < (diff.natAbs : Int) then s.haltDigging .handoff else s
  | none => s

/-! ## TIE and RETIE (R115, R120) -/

/-- A tie wait ended. -/
def State.endWait (s : State) : State := s.updRunUnit (fun u => { u with wait := none })

/-- The end warning tested against F = 0 at a successful TIE (R107). -/
def State.warnAtTie (s : State) (l : Line) : State :=
  let s1 := s.updChain (fun k => { k with endWarned := false })
  if s.endWarningPoint l ≤ 0 then s1.warnEnd else s1

/-- A successful TIE (R115): position and F preset to 0, segment 0 entered, CUTTING, span 0 serving, the strike timer started. -/
def State.tieSucceeds (s : State) (l : Line) : State :=
  let s1 := (s.updChain (fun k => { k with known := true, position := 0 })).warnAtTie l
  let s2 := ((s1.setFurthest 0).enterSegment 0).changeRun .cutting
  (s2.updEval (fun _ => { Evaluator.reset with serving := some 0 })).startTimer (s.time + s.strikeTimeout)

/-- The judgement of the strike that ends a TIE wait (R115). TIE is a CAB command (R111), so the reply goes there. -/
def State.judgeTie (s : State) (reading : Reading) : State :=
  match s.active?, s.context? with
  | some l, some r =>
    if l.status ≠ .checked then s.no .cab .state
    else
      match reading.offset?, l.spans.head? with
      | some d, some x =>
        let diff := measuredAt s.store x 0 d - targetAt s.store l r 0
        if s.settings.tieTol < (diff.natAbs : Int) then s.reply .cab (.no .tieout [.num diff])
        else (s.tieSucceeds l).ok .cab [.num diff]
      | _, _ => s.reply .cab (.no .tieout [.word "EDGE"])
  | _, _ => s.no .cab .state

/-- A successful RETIE to a chainage (R99, R120): the position preset, retie-required cleared, the serving span taken. -/
def State.retieSucceeds (s : State) (c : Int) : State :=
  let held := s.servingStation?
  (((s.updChain (fun k => { k with known := true, position := c * 1000 })).updRun
    (fun r => { r with retie := false })).moveServing held)

/-- The judgement of the strike that ends a RETIE wait at a chainage (R120). The span is the one that covers the chainage, as the wait
named it (R119). -/
def State.judgeRetie (s : State) (c : Int) (reading : Reading) : State :=
  match s.active?, s.context? with
  | some l, some r =>
    match reading.offset?, l.spans[spanIndex l.spans c]? with
    | some d, some x =>
      let diff := measuredAt s.store x c d - targetAt s.store l r c
      if s.settings.tieTol < (diff.natAbs : Int) then s.reply .cab (.no .tieout [.num diff])
      else (s.retieSucceeds c).ok .cab [.num diff]
    | _, _ => s.reply .cab (.no .tieout [.word "EDGE"])
  | _, _ => s.no .cab .state

/-- The strike that ends a tie wait is judged (R115, R120). -/
def State.judgeWait (s : State) (w : TieWait) (reading : Reading) : State :=
  match w.kind with
  | .tie => s.endWait.judgeTie reading
  | .retie => s.endWait.judgeRetie w.chainage reading

/-! ## Routing (R39, R136) -/

/-- The wait that a strike of a station ends, in the run state of its row (R39). A strike accepted after the station has been withdrawn and
restored within the wait ends it too, the model's reading of R39 and R119 beside R31 (log 34). -/
def State.waitFor? (s : State) (n : StationId) : Option TieWait :=
  s.run.wait.bind (fun w =>
    if w.station = n ∧ ((w.kind = .tie ∧ s.runState? = some .armed) ∨ (w.kind = .retie ∧ s.stopped = true)) then some w else none)

/-- What the Depth evaluator is handed a strike for (R39, R136). -/
inductive EvalRoute
  | evaluation
  | coastEnd
  | reference
  | comparison
  | nothing
deriving DecidableEq, Repr

/-- The evaluator's row of R39 and R136 for a strike of a station. -/
def State.evalRoute (s : State) (n : StationId) : EvalRoute :=
  if !s.chain.known then .nothing
  else if s.servingStation? = some n then
    if s.runState? = some .cutting then .evaluation
    else if s.runState? = some .coasting then .coastEnd
    else if s.stopped then .reference
    else .nothing
  else if s.digging && s.inHandoffZone && s.nextSpan?.any (fun x => x.station == n) then .comparison
  else .nothing

/-- The end of a coast (R124). -/
def State.endCoast (s : State) : State := (s.changeRun .cutting).startTimer (s.time + s.strikeTimeout)

/-- What the evaluator does with a strike (R136). While CUTTING a strike of the serving station first moves the strike timer's deadline
(R122). -/
def State.handEvaluator (s : State) (r : EvalRoute) (reading : Reading) : State :=
  match r with
  | .evaluation => (s.startTimer (s.time + s.strikeTimeout)).evaluate reading
  | .coastEnd => s.endCoast.evaluate reading
  | .reference => s.setReference reading
  | .comparison => s.compareHandoff reading
  | .nothing => s

/-- An accepted strike passed on (R39): to the evaluator, then to the Run controller (log 14), or counted in LINK_FOREIGN. -/
def State.route (s : State) (n : StationId) (reading : Reading) : State :=
  let r := s.evalRoute n
  let s1 := s.handEvaluator r reading
  match s.waitFor? n with
  | some w => s1.judgeWait w reading
  | none => if r = .nothing then s1.updLink (fun k => { k with foreign := bump k.foreign }) else s1

/-- A report accepted for a station: recorded, then passed on (R38). -/
def State.accept (s : State) (n : StationId) (reading : Reading) : State :=
  (s.updLive n (fun v => { last := some { time := s.time, reading := reading }, accepted := bump v.accepted })).route n reading

/-! ## Frames (R35 to R37, R186) -/

/-- The five bytes of a frame after its marker (R186). -/
structure Frame where
  signature : Byte
  flags : Byte
  offsetHigh : Byte
  offsetLow : Byte
  check : Byte
deriving DecidableEq, Repr

/-- The marker that starts a frame (R35). -/
def frameMarker : Byte := 0xC3

/-- The frame's bytes in the order of arrival. -/
def Frame.bytes (f : Frame) : List Byte := [frameMarker, f.signature, f.flags, f.offsetHigh, f.offsetLow, f.check]

/-- The signed 16-bit offset, high byte first (R186). -/
def Frame.offset (f : Frame) : Int := (f.offsetHigh ++ f.offsetLow).toInt

/-- The check byte a frame should carry: the exclusive-or of bytes 1 to 4 and 0x5A (R36, R186). -/
def Frame.checkByte (f : Frame) : Byte := f.signature ^^^ f.flags ^^^ f.offsetHigh ^^^ f.offsetLow ^^^ 0x5A

/-- Bit 0 of the flags: edge high (R186). -/
def Frame.edgeHigh (f : Frame) : Bool := f.flags.getLsbD 0
/-- Bit 1 of the flags: edge low (R186). -/
def Frame.edgeLow (f : Frame) : Bool := f.flags.getLsbD 1
/-- Bit 2 of the flags: receiver fault (R186). -/
def Frame.receiverFault (f : Frame) : Bool := f.flags.getLsbD 2

/-- A bad frame (R36). -/
def Frame.isBad (f : Frame) : Bool :=
  f.check != f.checkByte || (f.edgeHigh && f.edgeLow) || (!f.edgeHigh && !f.edgeLow && !within (-120) 120 f.offset)

/-- The reading of a sound frame (R36). -/
def Frame.reading (f : Frame) : Reading :=
  if f.edgeHigh then .edgeHigh else if f.edgeLow then .edgeLow else .offset f.offset

/-- Two signatures are equal under a mask (R34). -/
def sameUnder (mask a b : Byte) : Bool := (a &&& mask) == (b &&& mask)

/-- The IN_SERVICE station a signature matches under SIG_MASK (R37). -/
def Store.matchStation? (st : Store) (sig : Byte) : Option StationId :=
  StationId.all.find? (fun n =>
    match st.stations.get n with
    | .inService d => sameUnder st.settings.sigMask d.signature sig
    | _ => false)

/-- A complete frame judged (R36, R37). -/
def State.judgeFrame (s : State) (f : Frame) : State :=
  if f.isBad then s.updLink (fun k => { k with bad := bump k.bad })
  else if f.receiverFault then s.updLink (fun k => { k with fault := bump k.fault })
  else match s.store.matchStation? f.signature with
    | none => s.updLink (fun k => { k with unmatched := bump k.unmatched })
    | some n => s.accept n f.reading

/-- Hunting resumes (R35). -/
def State.hunt (s : State) : State := s.updLink (fun k => { k with framing := .hunting })

/-- A frame in collection is abandoned and counted in LINK_BAD (R35). -/
def State.abandonFrame (s : State) : State := s.updLink (fun k => { k with framing := .hunting, bad := bump k.bad })

end Sys2Proof.Machine
end

