-- ==== Sys2Proof/Machine/Replies.lean ====
section
/-! DEFINITION. Replies: the words of reply lines and how they are written (R184), and the records of the reads (R169, R170, R185). -/
namespace Sys2Proof.Machine

/-! ## Words -/

/-- The reason word of a refusal (R167). -/
def Reason.word : Reason → String
  | .syn => "SYNTAX"
  | .range => "RANGE"
  | .port => "PORT"
  | .state => "STATE"
  | .noline => "NOLINE"
  | .noclaim => "NOCLAIM"
  | .nodraft => "NODRAFT"
  | .held => "HELD"
  | .backlog => "BACKLOG"
  | .staledraft => "STALEDRAFT"
  | .full => "FULL"
  | .check => "CHECK"
  | .frozen => "FROZEN"
  | .pool => "POOL"
  | .children => "CHILDREN"
  | .inuse => "INUSE"
  | .collide => "COLLIDE"
  | .retie => "RETIE"
  | .backtrack => "BACKTRACK"
  | .gap => "GAP"
  | .nostrike => "NOSTRIKE"
  | .tieout => "TIEOUT"
  | .backfall => "BACKFALL"
  | .overrun => "OVERRUN"

/-- The reason word of the plan check (R45). -/
def CheckReason.word : CheckReason → String
  | .count => "COUNT"
  | .hole => "HOLE"
  | .order => "ORDER"
  | .spacing => "SPACING"
  | .length => "LENGTH"
  | .fall => "FALL"
  | .spans => "SPANS"
  | .station => "STATION"
  | .clearLow => "CLEAR_LOW"
  | .clearHigh => "CLEAR_HIGH"
  | .parent => "PARENT"
  | .junction => "JUNCTION"

/-- The lifecycle word (R2). -/
def LifecycleKind.word : LifecycleKind → String
  | .planned => "PLANNED"
  | .active => "ACTIVE"
  | .complete => "COMPLETE"
  | .abandoned => "ABANDONED"

/-- The check status word (R2). -/
def CheckStatus.word : CheckStatus → String
  | .checked => "CHECKED"
  | .stale => "STALE"
  | .conflict _ => "CONFLICT"

/-- The word of a discard (R159). -/
def DropReason.word : DropReason → String
  | .unstage => "UNSTAGE"
  | .frozen => "FROZEN"
  | .stale => "STALE"
  | .deselect => "DESELECT"
  | .abandon => "ABANDON"
  | .complete => "COMPLETE"

/-- The run state word and its reason (R108). -/
def RunState.words : RunState → String × Option String
  | .armed => ("ARMED", none)
  | .cutting => ("CUTTING", none)
  | .coasting => ("COASTING", none)
  | .suspended .operator => ("SUSPENDED", some "OPERATOR")
  | .suspended .mark => ("SUSPENDED", some "MARK")
  | .suspended .power => ("SUSPENDED", some "POWER")
  | .halted .coast => ("HALTED", some "COAST")
  | .halted .grade => ("HALTED", some "GRADE")
  | .halted .handoff => ("HALTED", some "HANDOFF")
  | .halted .backtrack => ("HALTED", some "BACKTRACK")

/-- The word NONE for a field that is absent, unset or none (R184). -/
def noneField : Field := .word "NONE"

/-- A word or NONE. -/
def optWord (w : Option String) : Field := (w.map Field.word).getD noneField

/-- A number or NONE. -/
def optNum (n : Option Int) : Field := (n.map Field.num).getD noneField

/-- A natural number. -/
def natField (n : Nat) : Field := .num n

/-- A natural number or NONE. -/
def optNat (n : Option Nat) : Field := (n.map natField).getD noneField

/-- A counter or a revision. -/
def countField (c : Count) : Field := natField c.toNat

/-- A label or NONE. -/
def optLabel (t : Option Text) : Field := (t.map Field.label).getD noneField

/-- A flag (R184). -/
def flagField (b : Bool) : Field := .word (if b then "SET" else "CLEAR")

/-! ## How a reply is written (R184) -/

/-- A natural number in decimal, no leading zeros. -/
def decimal (n : Nat) : Text := Nat.toDigits 10 n

/-- A number in decimal, with a hyphen before a negative value. -/
def decimalInt (n : Int) : Text := if n < 0 then '-' :: decimal n.natAbs else decimal n.natAbs

/-- A location: a letter and a number, or NONE (R184). -/
def Location.text : Location → Text
  | .nowhere => "NONE".toList
  | .chainage mm => 'C' :: decimalInt mm
  | .breakpoint k => 'B' :: decimal k
  | .span k => 'S' :: decimal k
  | .line id => 'L' :: decimal id

/-- One word of a reply line. -/
def Field.text : Field → Text
  | .word w => w.toList
  | .num n => decimalInt n
  | .label t => t
  | .loc l => l.text

/-- A reply line: words separated by one space, ended by CR and LF. -/
def lineText (fs : List Field) : Text := joinWords (fs.map Field.text) ++ ['\r', '\n']

/-- The lines of a reply: the status line, and for a reply with records the records and a full stop (R167). -/
def Reply.lines : Reply → List (List Field)
  | .ok fs => [.word "OK" :: fs]
  | .no r fs => [.word "NO" :: .word r.word :: fs]
  | .records rs => [.word "OK"] :: rs ++ [[.word "."]]

/-- The characters of a reply. -/
def Reply.text (r : Reply) : Text := (r.lines.map lineText).flatten

/-- What a port is sending (R165, R166). -/
def State.sending? (s : State) (p : Port) : Option Text :=
  match (s.port p).hand with
  | .sending _ r => some r.text
  | _ => none

/-! ## LINE and DRAFT records -/

/-- Conflict reason and location (R184, R185). -/
def conflictFields : CheckStatus → List Field
  | .conflict f => [.word f.reason.word, .loc f.location]
  | _ => [noneField, noneField]

/-- Staged state and drop reason of a line (R152, R185). -/
def stagedFields (s : State) (l : Line) : List Field :=
  match l.staged? with
  | some st => [.word (if st.settled then "SETTLED" else "UNSETTLED"), noneField]
  | none =>
    match s.run.lastDrop with
    | some d => if d.id = l.id then [.word "DROPPED", .word d.reason.word] else [noneField, noneField]
    | none => [noneField, noneField]

/-- The freeze chainage for the ACTIVE line (R150, R169). -/
def freezeField (s : State) (l : Line) : Field :=
  match l.run? with
  | some r => .num (freezeChainage s.store l r.furthest)
  | none => noneField

/-- The LINE record (R169, R185). -/
def lineRecord (s : State) (l : Line) : List Field :=
  [.word "LINE", natField l.id, optLabel l.label, optNat l.parent?, optNum (l.outlet.map (fun o => o.junction)), .num l.length,
   .word l.lifecycle.kind.word, .word l.status.word]
    ++ conflictFields l.status
    ++ [countField l.revision, ((s.holder? l.id).map portField).getD noneField]
    ++ stagedFields s l ++ [freezeField s l]

/-- The DRAFT record (R169, R185). -/
def draftRecord (id : Nat) (d : Draft) : List Field :=
  [.word "DRAFT", natField id, (d.base.map countField).getD noneField, optNat d.parent, optNum d.junction, optLabel d.label,
   natField d.first, natField d.last, natField d.cursor, natField (present d.points).length, natField (present d.spans).length]

/-! ## BP and SPAN records -/

/-- The five closure fields of a BP record (R185). -/
def closureFields : Option Closure → List Field
  | none => [noneField, noneField, noneField, noneField, noneField]
  | some c =>
    [.word (if c.state = .opened then "OPEN" else "CLOSED"), .num c.worst, flagField c.edge, flagField c.grade, .num c.coasted]

/-- A BP record (R185). -/
def bpRecord (k : Nat) (p : Point) (c : Option Closure) : List Field :=
  [.word "BP", natField k, .num p.chainage, .num p.invert] ++ closureFields c

/-- A SPAN record (R185). -/
def spanRecord (k : Nat) (x : Span) : List Field :=
  [.word "SPAN", natField k, .num x.start, .num x.station.number, .num x.plane, .num x.slope]

/-- An index lies in a range. -/
def inIndexes (first last : Nat) (k : Nat) : Bool := decide (first ≤ k ∧ k ≤ last)

/-- The BP records of a current profile in an index range (R169). -/
def profileRecords (first last : Nat) (bs : List Breakpoint) : List (List Field) :=
  (bs.zipIdx.filter (fun e => inIndexes first last e.2)).map (fun e => bpRecord e.2 e.1.point e.1.closure)

/-- The BP records of a staged revision in an index range (R169). -/
def stagedRecords (first last : Nat) (ps : List Point) : List (List Field) :=
  (ps.zipIdx.filter (fun e => inIndexes first last e.2)).map (fun e => bpRecord e.2 e.1 none)

/-- The BP records of the present slots of a draft in an index range (R72). -/
def draftRecords (first last : Nat) (ps : List (Option Point)) : List (List Field) :=
  ps.zipIdx.filterMap (fun e => if inIndexes first last e.2 then e.1.map (fun p => bpRecord e.2 p none) else none)

/-- The SPAN records of a list (R169). -/
def spanRecords (xs : List Span) : List (List Field) := xs.zipIdx.map (fun e => spanRecord e.2 e.1)

/-- The SPAN records of the present span slots of a draft (R72). -/
def draftSpanRecords (xs : List (Option Span)) : List (List Field) :=
  xs.zipIdx.filterMap (fun e => e.1.map (fun x => spanRecord e.2 x))

/-! ## STATION, RUN, QUEUE, COUNTERS, EVENTS, SETTING, IDENT records -/

/-- The state word of a station (R25). -/
def Station.word : Station → String
  | .undefined => "UNDEFINED"
  | .inService _ => "IN_SERVICE"
  | .withdrawn _ => "WITHDRAWN"

/-- The last reading (R185). -/
def readingField : Reading → Field
  | .offset d => .num d
  | .edgeHigh => .word "EDGE_HIGH"
  | .edgeLow => .word "EDGE_LOW"

/-- The STATION record (R42, R185). -/
def stationRecord (s : State) (n : StationId) : List Field :=
  let t := s.store.stations.get n
  let last := s.lastStrike? n
  [.word "STATION", .num n.number, .word t.word, optNum (t.data?.map (fun d => (d.signature.toNat : Int))),
   optLabel (t.data?.bind (fun d => d.label)), .num t.correction, countField (s.link.live.get n).accepted,
   (last.map (fun k => readingField k.reading)).getD noneField, optNat (last.map (fun k => s.time - k.time))]

/-- The two fields of a mark: a disarmed mark is NONE OFF (R185). -/
def markFields : Option Mark → List Field
  | none => [noneField, .word "OFF"]
  | some m => [.num m.chainage, .word (if m.suspends then "SUSPEND" else "REPORT")]

/-- The RUN record of a line's run (R169, R185). -/
def activeRunRecord (s : State) (l : Line) (r : RunContext) : List Field :=
  [.word "RUN", .word r.state.words.1, optWord r.state.words.2, natField l.id,
   if s.chain.known then .num s.chainage else .word "UNKNOWN",
   (r.furthest.map Field.num).getD (.word "UNSET"), optNat s.eval.serving, .num r.trimFrom, .num r.trimTo, .num r.rampStart,
   .num (trimAt r s.settings.trimRamp (r.furthest.getD 0))]
    ++ markFields r.mark1 ++ markFields r.mark2
    ++ [natField s.eval.gradeCount, flagField s.eval.gradeFlag, .num s.run.coast, .num s.eval.drive, flagField r.retie]

/-- The RUN record; in IDLE the state and NONE in the 18 other fields (R169, R185). -/
def runRecord (s : State) : List Field :=
  match s.active?, s.context? with
  | some l, some r => activeRunRecord s l r
  | _, _ => [.word "RUN", .word "IDLE"] ++ List.replicate 18 noneField

/-- The origin word (R185). -/
def originWord : Origin → String
  | .queue => "QUEUE"
  | .scan => "SCAN"

/-- The QUEUE record (R94, R185). -/
def queueRecord (s : State) : List Field :=
  let r := s.recheck
  [.word "QUEUE", natField r.queue.length] ++ r.queue.map natField
    ++ [optNat (r.inFlight.map (fun f => f.id)), optWord (r.inFlight.map (fun f => originWord f.origin)), flagField r.scanPending,
        optNat r.scanPos, .word (if r.backlog then "ON" else "OFF")]

/-- The COUNTERS record (R41, R185). -/
def countersRecord (s : State) : List Field :=
  [.word "COUNTERS", countField s.link.bad, countField s.link.fault, countField s.link.unmatched, countField s.link.foreign,
   countField s.chain.odoInvalid] ++ StationId.all.map (fun n => countField (s.link.live.get n).accepted)

/-- A list of kinds with its count, in the order of the event table (R185). -/
def kindFields (es : List EventKind) : List Field :=
  let ks := EventKind.all.filter (fun k => es.contains k)
  natField ks.length :: ks.map (fun k => .word k.word)

/-- Claim id and claim kind (R168, R185). -/
def claimFields (s : State) (p : Port) : List Field :=
  match (s.port p).claim with
  | none => [noneField, noneField]
  | some id => [natField id, .word (if (s.line? id).isSome then "LINE" else "FREE")]

/-- The EVENTS record of a port (R168, R185). -/
def eventsRecord (s : State) (p : Port) : List Field :=
  [.word "EVENTS"] ++ kindFields (s.port p).events ++ kindFields (s.port p).mask ++ claimFields s p

/-- The field of a setting's value (R176). -/
def valueField : SettingValue → Field
  | .num n => .num n
  | .decode .x1 => .word "1X"
  | .decode .x2 => .word "2X"
  | .decode .x4 => .word "4X"
  | .effect .report => .word "REPORT"
  | .effect .halt => .word "HALT"

/-- The SETTING records in the order of R176. -/
def settingRecords (t : Settings) : List (List Field) :=
  SettingName.all.map (fun n => [.word "SETTING", .word n.word, valueField (t.get n)])

/-- The IDENT record (R170, R185). -/
def identRecord (s : State) : List Field :=
  [.word "IDENT", .word "VALJOWAN", .word "RKD620", natField Config.programVersion, natField s.store.lines.length,
   natField Config.maxLines, natField s.store.heldSlots, natField Config.poolSlots,
   natField (StationId.all.filter (fun n => (s.store.stations.get n).data?.isSome)).length, natField 6,
   natField s.recheck.queue.length, natField Config.queueEntries, natField Config.maxBreakpoints, natField Config.maxSpans,
   natField 2, natField Config.maxLevels, natField Config.lineChars]

end Sys2Proof.Machine
end

