-- ==== Sys2Proof/Machine/Restart.lean ====
section
/-! DEFINITION. Restart (R131, R181) and the volatile state it leaves. -/
namespace Sys2Proof.Machine

/-- The run context after restart: ARMED stays, any other state becomes SUSPENDED with reason POWER and retie required (R131). -/
def RunContext.afterRestart (r : RunContext) : RunContext :=
  if r.state = .armed then r else { r with state := .suspended .power, retie := true }

/-- A record after restart: a staged revision discarded, the run state set (R23, R131, R181). -/
def Line.afterRestart (l : Line) : Line := (l.setStaged none).updRun RunContext.afterRestart

/-- The end-warning flag after restart: set if F is set and at or above the end-warning point (R107). -/
def State.warnedAfterRestart (s : State) : Bool :=
  match s.active?, s.furthest? with
  | some l, some f => decide (s.endWarningPoint l ≤ f)
  | _, _ => false

/-- The volatile state of every block as a restart leaves it, over the record store as it stands, with the odometer's reference levels
given (the table of R181). Module time is 0 (00, Module time). -/
def State.volatileReset (s : State) (levels : Bool × Bool) : State :=
  let scan := s.store.lines.any (fun l => l.status == .stale)
  { s with
    time := 0
    cab := PortState.reset
    plan := PortState.reset
    recheck := { Recheck.reset with scanPending := scan, backlog := scan }
    link := Link.reset
    chain := { Chain.reset with levelA := levels.1, levelB := levels.2, endWarned := s.warnedAfterRestart }
    run := RunUnit.reset
    eval := Evaluator.reset }

/-- The restart of R181: the staged revisions discarded without DROPPED, the run state set, the volatile state reset, the channels'
present levels taken as the reference (a free value, log 6). -/
def State.restart (s : State) : State :=
  { (s.mapLines Line.afterRestart).volatileReset (Config.odoLevels s.free) with free := s.free + 1 }

end Sys2Proof.Machine
end

