-- ==== Sys2Proof/Machine/PortRows.lean ====
section
/-! DEFINITION. The rows of the Port unit (10): bytes, line ends that are no command of a block, the end of a reply, and the lapse timer
that goes with it (04). -/
namespace Sys2Proof.Machine

/-! ## Bytes (R163) -/

/-- A byte other than LF in a line buffer (R163). A byte with a framing error is a bad byte whatever its value (log 12). -/
def LineBuffer.add (q : LineBuffer) (b : Byte) (framingError : Bool) : LineBuffer :=
  if framingError then { q with bad := true }
  else if b = 13 ∨ b = 10 then q
  else if 32 ≤ b.toNat ∧ b.toNat ≤ 126 then
    if q.chars.length < Config.lineChars then { q with chars := q.chars ++ [Char.ofNat b.toNat] } else { q with tooLong := true }
  else { q with bad := true }

/-- COMMAND_PORT_BYTE (R163). -/
def execCommandPortByte (p : Port) (b : Byte) (framingError : Bool) (s : State) : Host.Outcome State Fault Refusal :=
  .next (if s.running then s.updPort p (fun q => { q with buffer := LineBuffer.add q.buffer b framingError }) else s)

/-! ## Line ends -/

/-- COMMAND_LINE_BAD (R163): NO SYNTAX is sent, with no command in hand; the port is busy while it is sent (log 10). -/
def execCommandLineBad (p : Port) (s : State) : Host.Outcome State Fault Refusal :=
  .next (takeLine p (.commandLineBad p) s
    (fun s => s.updPort p (fun q => { q with hand := .sending none (.no .syn []) })))

/-- EMPTY_LINE (R163): discarded without a reply, busy or not. -/
def execEmptyLine (p : Port) (s : State) : Host.Outcome State Fault Refusal :=
  .next (if s.running && s.lineIs p (.emptyLine p) then s.clearBuffer p else s)

/-- UNKNOWN_COMMAND (R164): refused SYNTAX by the Port unit. -/
def execUnknownCommand (p : Port) (ws : List Text) (s : State) : Host.Outcome State Fault Refusal :=
  .next (takeLine p (.unknownCommand p ws) s (fun s => s.no p .syn))

/-- LINE_WHILE_BUSY (R166): a command line, bad line or over-length line on a busy port is discarded unexamined and sets the overrun
flag. -/
def execLineWhileBusy (p : Port) (s : State) : Host.Outcome State Fault Refusal :=
  .next
    (if s.running && s.busy p
        && ((s.port p).buffer == emptyBuffer || decodeLine p (s.port p).buffer != .emptyLine p) then
      (s.clearBuffer p).setOverrun p
    else s)

/-! ## The end of a reply (R63, R165, R166, R182) -/

/-- The lapse timer starts again with the full CLAIM_LAPSE, while the slot is holding (R63). -/
def State.startLapse (s : State) (p : Port) : State :=
  s.updPort p (fun q =>
    { q with lapse := if q.claim.isSome then some (s.time + msOf (s.settings.claimLapse * 1000)) else none })

/-- The reply that a RESTART sends before the restart (R182). -/
def restartsAfter (c : Option Instr) (r : Reply) : Bool :=
  match c, r with
  | some (.restart _ _), .ok _ => true
  | _, _ => false

/-- NO OVERRUN begins to be sent: the flag is cleared and the port stays busy (R166). -/
def State.sendOverrun (s : State) (p : Port) : State :=
  s.updPort p (fun q => { q with overrun := false, hand := .sending none (.no .overrun []), lapse := none })

/-- The last character of a reply has been sent (R165): the command in hand ends and the lapse timer restarts; with the overrun flag set,
NO OVERRUN follows (R166). -/
def State.endReply (s : State) (p : Port) : State :=
  let s1 := (s.updPort p (fun q => { q with hand := .idle })).startLapse p
  if (s.port p).overrun then s1.sendOverrun p else s1

/-- REPLY_SENT (R165); after the OK of RESTART the restart follows (R182). It follows at once even with the overrun flag set: no
NO OVERRUN is sent, the model's choice between R166 and R182 (log 32). -/
def execReplySent (p : Port) (s : State) : Host.Outcome State Fault Refusal :=
  .next
    (if s.running then
      match (s.port p).hand with
      | .sending c r => if restartsAfter c r then s.restart else s.endReply p
      | _ => s
    else s)

end Sys2Proof.Machine
end

