-- ==== Sys2Proof/Machine/ClaimRows.lean ====
section
/-! DEFINITION. Claims and drafts (04, 4.1 to 4.3): CLAIM, RELEASE, the lapse, OPEN, WINDOW, PUT, MORE, CUT, SPAN, HEAD, DISCARD. -/
namespace Sys2Proof.Machine

/-! ## Claims -/

/-- The slot, any reservation, the draft and the lapse timer are emptied together (R63, R64, R80). -/
def State.emptyClaim (s : State) (p : Port) : State :=
  s.updPort p (fun q => { q with claim := none, draft := none, lapse := none })

/-- A new claim on an id: the draft is empty, and the reply says whether the id is free (R60). -/
def State.takeClaim (s : State) (p : Port) (id : Nat) : State :=
  let s1 := s.updPort p (fun q => { q with claim := some id, draft := none })
  if (s.line? id).isSome then s1.ok p else s1.ok p [.word "FREE"]

/-- CLAIM of an id (R60, tests 3 and 4). -/
def State.claimId (s : State) (p : Port) (id : Nat) : State :=
  if (s.port (otherPort p)).claim = some id then s.reply p (.no .held [portField (otherPort p)])
  else match (s.port p).claim with
    | some k => if k = id then s.ok p else s.no p .state
    | none => s.takeClaim p id

/-- The argument of a command that names one line id: SYNTAX and RANGE, then what the command does (R60, R81). -/
def State.withId (s : State) (p : Port) (args : List Text) (k : Nat → State) : State :=
  match args with
  | [w] =>
    match number? w with
    | none => s.no p .syn
    | some n =>
      match lineId? n with
      | none => s.no p .range
      | some id => k id
  | _ => s.no p .syn

/-- CLAIM (R60). -/
def execClaim (p : Port) (args : List Text) (s : State) : Host.Outcome State Fault Refusal :=
  .next (takeLine p (.claim p args) s (fun s => s.withId p args (fun id => s.claimId p id)))

/-- A command without arguments: SYNTAX for any (R64 and others). -/
def State.withNone (s : State) (p : Port) (args : List Text) (k : State) : State :=
  if args.isEmpty then k else s.no p .syn

/-- A command that needs a holding slot (R59). -/
def State.withClaim (s : State) (p : Port) (k : Nat → State) : State :=
  match (s.port p).claim with
  | none => s.no p .noclaim
  | some id => k id

/-- RELEASE (R64). -/
def execRelease (p : Port) (args : List Text) (s : State) : Host.Outcome State Fault Refusal :=
  .next (takeLine p (.release p args) s (fun s =>
    s.withNone p args (s.withClaim p (fun _ => (s.emptyClaim p).ok p))))

/-- The lapse timer of a port is due: it runs, and its deadline has come (R63; log 8). -/
def State.lapseDue (s : State) (p : Port) : Bool := (s.port p).lapse.any (fun d => decide (d ≤ s.time))

/-- The claim lapses: slot, reservation and draft are emptied and LAPSE is raised in this port's set alone (R63). -/
def State.expireLapse (s : State) (p : Port) : State :=
  if s.lapseDue p then (s.emptyClaim p).raiseAt p .lapse else s

/-- CLAIM_LAPSE_EXPIRY (R63). -/
def execClaimLapseExpiry (p : Port) (s : State) : Host.Outcome State Fault Refusal :=
  .next (if s.running then s.expireLapse p else s)

/-! ## The draft -/

/-- A command that needs a holding slot and an open draft (R65). -/
def State.withDraft (s : State) (p : Port) (k : Draft → State) : State :=
  s.withClaim p (fun _ =>
    match (s.port p).draft with
    | none => s.no p .nodraft
    | some d => k d)

/-- The draft replaced. -/
def State.setDraft (s : State) (p : Port) (d : Draft) : State := s.updPort p (fun q => { q with draft := some d })

/-- Slots filled from the first on, the rest absent (R66). -/
def fillSlots {α : Type} (n : Nat) (xs : List α) : List (Option α) :=
  (xs.map some ++ List.replicate (n - xs.length) none).take n

/-- A draft filled from lists (R66). -/
def draftFrom (base : Option Count) (o : Option Outlet) (label : Option Text) (pts : List Point) (spans : List Span) : Draft :=
  { base := base, parent := o.map (fun o => o.parent), junction := o.map (fun o => o.junction), label := label,
    points := fillSlots Config.maxBreakpoints pts, spans := fillSlots Config.maxSpans spans, first := 0, last := 63, cursor := 0 }

/-- The draft that OPEN fills for an id (R66). -/
def openedDraft (st : Store) (id : Nat) : Draft :=
  match st.line? id with
  | none => draftFrom none none none [] []
  | some l =>
    match l.staged? with
    | some g => draftFrom (some g.base) l.outlet l.label g.profile g.spans
    | none => draftFrom (some l.revision) l.outlet l.label l.points l.spans

/-- OPEN (R66). That a further word is SYNTAX is the model's reading (log 23). -/
def execOpenDraft (p : Port) (args : List Text) (s : State) : Host.Outcome State Fault Refusal :=
  .next (takeLine p (.openDraft p args) s (fun s =>
    s.withNone p args (s.withClaim p (fun id =>
      let d := openedDraft s.store id
      (s.setDraft p d).ok p
        [natField (present d.points).length, natField (present d.spans).length, (d.base.map countField).getD noneField]))))

/-- WINDOW (R67). -/
def State.setWindow (s : State) (p : Port) (a b : Int) : State :=
  s.withDraft p (fun d =>
    if within 0 63 a && within 0 63 b && decide (a ≤ b) then
      (s.setDraft p { d with first := a.toNat, last := b.toNat, cursor := a.toNat }).ok p
    else s.no p .range)

/-- WINDOW (R67). That a word too many or too few is SYNTAX is the model's reading (log 23). -/
def execWindow (p : Port) (args : List Text) (s : State) : Host.Outcome State Fault Refusal :=
  .next (takeLine p (.window p args) s (fun s =>
    match numbers? args with
    | some [a, b] => s.setWindow p a b
    | _ => s.no p .syn))

/-- Numbers as chainage and invert pairs; none for an odd count. -/
def pairs? : List Int → Option (List Point)
  | [] => some []
  | [_] => none
  | c :: z :: rest => (pairs? rest).map (fun ps => { chainage := c, invert := z } :: ps)

/-- The words of PUT and MORE: 1 to 8 pairs of numbers (R68). -/
def putPairs? (args : List Text) : Option (List Point) :=
  match (numbers? args).bind pairs? with
  | some ps => if 1 ≤ ps.length ∧ ps.length ≤ Config.putPairs then some ps else none
  | none => none

/-- The ranges of a pair (R68). -/
def goodPair (q : Point) : Bool := within 0 1200000 q.chainage && within (-50000) 50000 q.invert

/-- Consecutive slots written from an index on (R68). -/
def writeSlots (k : Nat) (ps : List Point) (slots : List (Option Point)) : List (Option Point) :=
  match ps with
  | [] => slots
  | q :: rest => writeSlots (k + 1) rest (slots.set k (some q))

/-- The pairs that fit from a slot up to the window's last index (R68). -/
def fitting (d : Draft) (start : Nat) (ps : List Point) : List Point := ps.take (d.last + 1 - start)

/-- The draft after pairs are written from a slot; a command that wrote nothing leaves the cursor (R68). -/
def Draft.write (d : Draft) (start : Nat) (ps : List Point) : Draft :=
  let ws := fitting d start ps
  if ws.isEmpty then d else { d with points := writeSlots start ws d.points, cursor := start + ws.length }

/-- The words after OK: the number of pairs written, and FULL if some were not (R68). -/
def writtenFields (d : Draft) (start : Nat) (ps : List Point) : List Field :=
  let n := (fitting d start ps).length
  if n < ps.length then [natField n, .word "FULL"] else [natField n]

/-- PUT and MORE, from the slot given by the draft (R68). -/
def State.putFrom (s : State) (p : Port) (args : List Text) (start : Draft → Nat) : State :=
  match putPairs? args with
  | none => s.no p .syn
  | some ps => s.withDraft p (fun d =>
      if ps.all goodPair then (s.setDraft p (d.write (start d) ps)).ok p (writtenFields d (start d) ps)
      else s.no p .range)

/-- PUT (R68): from the window's first index. -/
def execPut (p : Port) (args : List Text) (s : State) : Host.Outcome State Fault Refusal :=
  .next (takeLine p (.put p args) s (fun s => s.putFrom p args (fun d => d.first)))

/-- MORE (R68): from the cursor. -/
def execMore (p : Port) (args : List Text) (s : State) : Host.Outcome State Fault Refusal :=
  .next (takeLine p (.more p args) s (fun s => s.putFrom p args (fun d => d.cursor)))

/-- CUT (R69): the slots from an index on made absent. -/
def Draft.cut (d : Draft) (k : Nat) : Draft :=
  { d with points := d.points.take k ++ List.replicate (d.points.length - k) none }

/-- CUT (R69). -/
def State.cutAt (s : State) (p : Port) (n : Int) : State :=
  s.withDraft p (fun d =>
    if within 0 63 n then
      (s.setDraft p (d.cut n.toNat)).ok p [natField (present (d.points.drop n.toNat)).length]
    else s.no p .range)

/-- CUT (R69). That a word too many or too few is SYNTAX is the model's reading (log 23). -/
def execCut (p : Port) (args : List Text) (s : State) : Host.Outcome State Fault Refusal :=
  .next (takeLine p (.cut p args) s (fun s =>
    match numbers? args with
    | some [n] => s.cutAt p n
    | _ => s.no p .syn))

/-- The words of SPAN: a slot with OFF, or a slot with start, station, plane and slope (R70). -/
inductive SpanForm
  | off (k : Int)
  | set (k start station plane slope : Int)
deriving DecidableEq, Repr

/-- The words of SPAN read (R70). That a word too many or too few is SYNTAX is the model's reading (log 23). -/
def spanForm? (args : List Text) : Option SpanForm :=
  match args with
  | [a, b] => if isKeyword "OFF" b then (number? a).map .off else none
  | _ =>
    match numbers? args with
    | some [k, start, station, plane, slope] => some (.set k start station plane slope)
    | _ => none

/-- The span that SPAN writes, with the ranges of R70. -/
def spanOf? (start station plane slope : Int) : Option Span :=
  if within 0 1200000 start && within (-50000) 50000 plane && within (-30000) 30000 slope then
    (stationOf? station).map (fun n => { start := start, station := n, plane := plane, slope := slope })
  else none

/-- A span slot of the draft set or made absent (R70). -/
def State.setSpan (s : State) (p : Port) (k : Int) (x : Option Span) : State :=
  s.withDraft p (fun d =>
    if within 0 5 k then (s.setDraft p { d with spans := d.spans.set k.toNat x }).ok p else s.no p .range)

/-- SPAN (R70). -/
def execSpan (p : Port) (args : List Text) (s : State) : Host.Outcome State Fault Refusal :=
  .next (takeLine p (.span p args) s (fun s =>
    match spanForm? args with
    | none => s.no p .syn
    | some (.off k) => s.setSpan p k none
    | some (.set k start station plane slope) =>
      match spanOf? start station plane slope with
      | some x => s.setSpan p k (some x)
      | none => s.withDraft p (fun _ => s.no p .range)))

/-- The argument of HEAD PARENT and HEAD JUNCTION: a number or NONE (R71). That no word, or a second one, is SYNTAX is the model's reading
(log 23). -/
def headArg? (args : List Text) : Option NumberOr :=
  match args with
  | [w] => numberOr? "NONE" w
  | _ => none

/-- HEAD PARENT (R71). -/
def State.setParent (s : State) (p : Port) (v : NumberOr) : State :=
  s.withDraft p (fun d =>
    match v with
    | .removed => (s.setDraft p { d with parent := none }).ok p
    | .number n =>
      match lineId? n with
      | some id => (s.setDraft p { d with parent := some id }).ok p
      | none => s.no p .range)

/-- HEAD PARENT (R71). -/
def execHeadParent (p : Port) (args : List Text) (s : State) : Host.Outcome State Fault Refusal :=
  .next (takeLine p (.headParent p args) s (fun s =>
    match headArg? args with
    | none => s.no p .syn
    | some v => s.setParent p v))

/-- HEAD JUNCTION (R71). -/
def State.setJunction (s : State) (p : Port) (v : NumberOr) : State :=
  s.withDraft p (fun d =>
    match v with
    | .removed => (s.setDraft p { d with junction := none }).ok p
    | .number n =>
      if within 0 1200000 n then (s.setDraft p { d with junction := some n }).ok p else s.no p .range)

/-- HEAD JUNCTION (R71). -/
def execHeadJunction (p : Port) (args : List Text) (s : State) : Host.Outcome State Fault Refusal :=
  .next (takeLine p (.headJunction p args) s (fun s =>
    match headArg? args with
    | none => s.no p .syn
    | some v => s.setJunction p v))

/-- The label that HEAD LABEL sets: none for no word; a label longer than 16 characters or reading as NONE is refused SYNTAX (R71,
R184). -/
inductive LabelArg
  | remove
  | set (t : Text)
  | bad
deriving DecidableEq, Repr

/-- The words of HEAD LABEL (R71). That a second word is SYNTAX is the model's reading (log 23). -/
def labelArg (args : List Text) : LabelArg :=
  match args with
  | [] => .remove
  | [w] => if goodLabel w then .set w else .bad
  | _ => .bad

/-- HEAD LABEL (R71). -/
def execHeadLabel (p : Port) (args : List Text) (s : State) : Host.Outcome State Fault Refusal :=
  .next (takeLine p (.headLabel p args) s (fun s =>
    match labelArg args with
    | .bad => s.no p .syn
    | .remove => s.withDraft p (fun d => (s.setDraft p { d with label := none }).ok p)
    | .set t => s.withDraft p (fun d => (s.setDraft p { d with label := some t }).ok p)))

/-- DISCARD (R72). That a further word is SYNTAX is the model's reading (log 23). -/
def execDiscard (p : Port) (args : List Text) (s : State) : Host.Outcome State Fault Refusal :=
  .next (takeLine p (.discard p args) s (fun s =>
    s.withNone p args (s.withDraft p (fun _ => (s.updPort p (fun q => { q with draft := none })).ok p))))

end Sys2Proof.Machine
end

