-- ==== Sys2Proof/Machine/CommitRows.lean ====
section
/-! DEFINITION. Commits, retirement and re-checks (04, 4.4 and 4.5; 05): COMMIT, COMMIT_COMPLETION, RETIRE, RECHECK, CHECK_START,
RECHECK_COMPLETION. -/
namespace Sys2Proof.Machine

/-! ## COMMIT taken (R73) -/

/-- Test 4 of R73: a COMPLETE or ABANDONED line, or the ACTIVE line with another parent or, under a parent, another junction. -/
def commitBarred (l : Line) (d : Draft) : Bool :=
  match l.lifecycle with
  | .complete => true
  | .abandoned => true
  | .planned => false
  | .active _ _ =>
    d.parent != l.parent? || (d.parent.isSome && d.junction != l.outlet.map (fun o => o.junction))

/-- Tests 4 to 7 of R73, in order: the refusal of the first that fails. -/
def State.commitRefusal? (s : State) (id : Nat) (d : Draft) : Option Reason :=
  let l := s.line? id
  if l.any (fun l => commitBarred l d) then some .state
  else if s.recheck.backlog then some .backlog
  else if l.any (fun l => d.base != some l.revision) then some .staledraft
  else if l.isNone && decide (Config.maxLines ≤ s.store.lines.length) then some .full
  else none

/-- A commit goes in flight: the lifecycle is recorded and the check is asked for (R73). -/
def State.beginCommit (s : State) (p : Port) (id : Nat) : State :=
  let c : CommitRun := { was := (s.line? id).map (fun l => l.lifecycle.kind), reached := false, check := CheckRun.begun }
  s.updPort p (fun q => { q with commit := some c })

/-- COMMIT (R73). -/
def execCommit (p : Port) (args : List Text) (s : State) : Host.Outcome State Fault Refusal :=
  .next (takeLine p (.commit p args) s (fun s =>
    s.withNone p args (s.withClaim p (fun id => s.withDraft p (fun d =>
      match s.commitRefusal? id d with
      | some r => s.no p r
      | none => s.beginCommit p id)))))

/-! ## The completion tests (R74) -/

/-- Pool slots that the write returns (R21). -/
def slotsReturned (l : Option Line) : Nat :=
  match l with
  | none => 0
  | some l =>
    match l.lifecycle with
    | .active _ (some st) => st.profile.length
    | .active _ none => 0
    | _ => l.profile.length

/-- Test 4: the forest tests of PARENT made again, less the abandoned-parent test. -/
def forestFailure (st : Store) (u : Subject) : Option Failure :=
  firstFailure st u [CheckTest.move, CheckTest.parentExists, CheckTest.cycleAndLevel]

/-- Test 5: a draft for the ACTIVE line does not meet the freeze condition. -/
def frozenOut (st : Store) (l : Option Line) (u : Subject) : Bool :=
  match l with
  | none => false
  | some l =>
    match l.lifecycle with
    | .active r _ => !meetsFreeze st l r.furthest u.points u.spans
    | _ => false

/-- A failure as the reply NO CHECK (R45, R184). -/
def checkReply (f : Failure) : Reply := .no .check [.word f.reason.word, .loc f.location]

/-- The completion tests in order: the reply of the first that fails (R74). -/
def State.completionRefusal? (s : State) (c : CommitRun) (u : Subject) (d : Draft) : Option Reply :=
  let l := s.line? u.id
  if l.map (fun l => l.lifecycle.kind) ≠ c.was then some (.no .state [])
  else if l.any (fun l => d.base != some l.revision) then some (.no .staledraft [])
  else if l.isNone && decide (Config.maxLines ≤ s.store.lines.length) then some (.no .full [])
  else match forestFailure s.store u with
    | some f => some (checkReply f)
    | none =>
      if frozenOut s.store l u then some (.no .frozen [])
      else if s.store.freeSlots < u.points.length - slotsReturned l then some (.no .pool [])
      else none

/-! ## The write (R75 to R78) -/

/-- The stored parent and junction: the junction is written when a parent is present (R71, R75). -/
def Draft.outlet (d : Draft) : Option Outlet := d.parent.map (fun p => { parent := p, junction := d.junction.getD 0 })

/-- Breakpoints without closure parts. -/
def plainProfile (ps : List Point) : List Breakpoint := ps.map (fun q => { point := q, closure := none })

/-- The record that a commit of a free id creates (R75). -/
def Draft.newLine (d : Draft) (id : Nat) : Line :=
  { id := id, label := d.label, outlet := d.outlet, lifecycle := .planned, status := .checked, revision := 0,
    profile := plainProfile (present d.points), spans := present d.spans }

/-- The record of a PLANNED line after a commit (R76). -/
def Draft.replaced (d : Draft) (l : Line) : Line :=
  { d.newLine l.id with lifecycle := l.lifecycle, revision := l.revision + 1 }

/-- The staged revision that a commit of the ACTIVE line stores (R77). -/
def Draft.stagedFor (d : Draft) (l : Line) : Staged :=
  { profile := present d.points, spans := present d.spans, settled := false, base := l.revision }

/-- A commit of a free id written: the line is created; one reached is STALE and marked (R75, R78). The new line may be the parent that
a draft in flight names (R78). -/
def State.writeNew (s : State) (id : Nat) (d : Draft) (reached : Bool) : State :=
  let s1 := (s.setLines (insertLine (d.newLine id) s.store.lines)).reach (.parent id)
  if reached then s1.markLines (fun l => l.id == id) else s1

/-- A commit of a PLANNED line written (R76): the line leaves the queue unless the commit was reached, a check of it is discarded, and
the children are marked, with the line itself if the commit was reached (R78; log 18). -/
def State.writePlanned (s : State) (id : Nat) (d : Draft) (reached : Bool) : State :=
  let s1 := (s.updLine id d.replaced).reach (.parent id)
  let s2 := if reached then s1 else s1.unqueue id
  (s2.discardCheck id).markLines (fun l => s.marksLine (.parent id) l || (reached && l.id == id))

/-- A commit of the ACTIVE line written: the staged revision and the label are stored, replacing an earlier one without a discard; one
reached stores no revision, raises DROPPED, and the line is STALE and marked after its write (R16, R77, R78, R83). -/
def State.writeActive (s : State) (l : Line) (d : Draft) (reached : Bool) : State :=
  let s1 := s.updLine l.id (fun k =>
    { k.setStaged (if reached then none else some (d.stagedFor l)) with label := d.label })
  if reached then (s1.noteDrop l.id .stale).markLines (fun k => k.id == l.id) else s1

/-- The write of a commit that has passed its tests. Other checks in flight have proceeded by a free number of tests before it (R43). -/
def State.writeCommit (s : State) (id : Nat) (d : Draft) (reached : Bool) : State :=
  let s0 := s.proceedChecks
  match s0.line? id with
  | none => s0.writeNew id d reached
  | some l =>
    match l.lifecycle with
    | .active _ _ => s0.writeActive l d reached
    | _ => s0.writePlanned id d reached

/-- After the write the draft is emptied, the claim kept, and the reply is OK or OK STALE (R75 to R78). -/
def State.commitDone (s : State) (p : Port) (reached : Bool) : State :=
  (s.updPort p (fun q => { q with draft := none })).ok p (if reached then [.word "STALE"] else [])

/-- The completion of a commit (R74). The commit is no longer in flight, so that its own write does not reach it. -/
def State.completeCommit (s : State) (p : Port) (c : CommitRun) (id : Nat) (d : Draft) : State :=
  let s0 := s.updPort p (fun q => { q with commit := none })
  match c.check.result s.store (d.subject id) with
  | some f => s0.reply p (checkReply f)
  | none =>
    match s.completionRefusal? c (d.subject id) d with
    | some r => s0.reply p r
    | none => (s0.writeCommit id d c.reached).commitDone p c.reached

/-- COMMIT_COMPLETION (R74). -/
def execCommitCompletion (p : Port) (s : State) : Host.Outcome State Fault Refusal :=
  .next
    (if s.running then
      match (s.port p).commit, (s.port p).claim, (s.port p).draft with
      | some c, some id, some d => s.completeCommit p c id d
      | _, _, _ => s
    else s)

/-! ## RETIRE (R80) -/

/-- The tests of R80 after NOCLAIM. -/
def State.retireRefusal? (s : State) (id : Nat) : Option Reason :=
  match s.line? id with
  | none => some .noline
  | some l =>
    if l.isActive then some .state
    else if (s.store.children id).isEmpty then none
    else some .children

/-- A last drop that names a retired line goes (R80, R152). -/
def forgetDrop (id : Nat) (d : Option LastDrop) : Option LastDrop := d.bind (fun x => if x.id = id then none else some x)

/-- The record is removed (R80); commits in flight that name the line as parent are reached (R78), and no line is marked (log 19). -/
def State.retireLine (s : State) (id : Nat) : State :=
  let s0 := s.proceedChecks.reach (.parent id)
  let s1 := s0.setLines (s0.store.lines.filter (fun l => l.id != id))
  ((s1.unqueue id).discardCheck id).updRunUnit (fun u => { u with lastDrop := forgetDrop id u.lastDrop })

/-- RETIRE (R80). -/
def execRetire (p : Port) (args : List Text) (s : State) : Host.Outcome State Fault Refusal :=
  .next (takeLine p (.retire p args) s (fun s =>
    s.withNone p args (s.withClaim p (fun id =>
      match s.retireRefusal? id with
      | some r => s.no p r
      | none => ((s.retireLine id).emptyClaim p).ok p))))

/-! ## RECHECK and the Re-check unit's rows -/

/-- RECHECK of an id (R81). -/
def State.recheckId (s : State) (p : Port) (id : Nat) : State :=
  match s.line? id with
  | none => s.no p .noline
  | some l => if l.takesMarks then (s.markingChange (.line id)).ok p else s.no p .state

/-- RECHECK (R81). -/
def execRecheck (p : Port) (args : List Text) (s : State) : Host.Outcome State Fault Refusal :=
  .next (takeLine p (.recheck p args) s (fun s => s.withId p args (fun id => s.recheckId p id)))

/-- CHECK_START (R86, R90): with no check in flight the unit looks for work. -/
def execCheckStart (s : State) : Host.Outcome State Fault Refusal :=
  .next (if s.running then s.lookForWork else s)

/-- RECHECK_COMPLETION (R88). -/
def execRecheckCompletion (s : State) : Host.Outcome State Fault Refusal :=
  .next
    (if s.running then
      match s.recheck.inFlight with
      | some f => s.finishRecheck f
      | none => s
    else s)

end Sys2Proof.Machine
end

