-- ==== Sys2Proof/Machine/LinkRows.lean ====
section
/-! DEFINITION. The receiver link and the odometer (02, 2.5; 06, 6.1): FRAME_COMPLETE, RECEIVER_LINK_BYTE, FRAME_FRAMING_ERROR,
FRAME_GAP_TIMEOUT, ODO_VALID_TRANSITION, ODO_INVALID_TRANSITION. -/
namespace Sys2Proof.Machine

/-! ## Frames (R35, R36) -/

/-- The bytes of a frame before its check byte. -/
def Frame.opening (f : Frame) : List Byte := [frameMarker, f.signature, f.flags, f.offsetHigh, f.offsetLow]

/-- The frame of the six bytes collected (R186); none for another number of bytes. -/
def frameOf? (bytes : List Byte) : Option Frame :=
  match bytes with
  | [_, signature, flags, offsetHigh, offsetLow, check] =>
    some { signature := signature, flags := flags, offsetHigh := offsetHigh, offsetLow := offsetLow, check := check }
  | _ => none

/-- The frame can complete: the row brings the whole frame while the unit is hunting, and its last byte when the frame's first five
are the ones collected (R35; log 2). -/
def State.frameFits (s : State) (f : Frame) : Bool :=
  match s.link.framing with
  | .hunting => true
  | .collecting bytes _ => bytes == f.opening

/-- The frame is complete: hunting resumes with the byte that follows, and the frame is judged (R35, R36). -/
def State.finishFrame (s : State) (f : Frame) : State := s.hunt.judgeFrame f

/-- FRAME_COMPLETE (R36). -/
def execFrameComplete (signature flags offsetHigh offsetLow check : Byte) (s : State) : Host.Outcome State Fault Refusal :=
  let f : Frame := { signature := signature, flags := flags, offsetHigh := offsetHigh, offsetLow := offsetLow, check := check }
  .next (if s.running && s.frameFits f then s.finishFrame f else s)

/-- A byte in collection (R35): the sixth byte completes the frame. -/
def State.collectByte (s : State) (bytes : List Byte) (b : Byte) : State :=
  match frameOf? (bytes ++ [b]) with
  | some f => s.finishFrame f
  | none => s.updLink (fun k => { k with framing := .collecting (bytes ++ [b]) s.time })

/-- A byte without a framing error (R35): while hunting only the marker starts a frame, in collection every value is taken. -/
def State.linkByte (s : State) (b : Byte) : State :=
  match s.link.framing with
  | .hunting => if b = frameMarker then s.updLink (fun k => { k with framing := .collecting [b] s.time }) else s
  | .collecting bytes _ => s.collectByte bytes b

/-- RECEIVER_LINK_BYTE (R35). -/
def execReceiverLinkByte (b : Byte) (s : State) : Host.Outcome State Fault Refusal :=
  .next (if s.running then s.linkByte b else s)

/-- A frame is in collection. -/
def Framing.isCollecting : Framing → Bool
  | .hunting => false
  | .collecting _ _ => true

/-- FRAME_FRAMING_ERROR (R35): a frame in collection is abandoned; in hunting the byte is discarded without counting. -/
def execFrameFramingError (s : State) : Host.Outcome State Fault Refusal :=
  .next (if s.running && s.link.framing.isCollecting then s.abandonFrame else s)

/-- The gap since the last byte of a frame in collection can be more than 2 ms: the clock stands at least 2 ms after it (log 9). -/
def State.gapDue (s : State) : Bool :=
  match s.link.framing with
  | .hunting => false
  | .collecting _ lastAt => decide (lastAt + Config.frameGap ≤ s.time)

/-- A frame whose gap is too long is abandoned (R35). -/
def State.expireGap (s : State) : State := if s.gapDue then s.abandonFrame else s

/-- FRAME_GAP_TIMEOUT (R35). -/
def execFrameGapTimeout (s : State) : Host.Outcome State Fault Refusal :=
  .next (if s.running then s.expireGap else s)

/-! ## Odometer transitions (R95, R96) -/

/-- What a valid transition gives (R95). -/
inductive CountKind
  | forward
  | reverse
  | nothing
deriving DecidableEq, Repr

/-- The level pairs (A, B) of the encoder (R95). -/
abbrev Levels := Bool × Bool

/-- The table of R95 for 4X: every valid transition counts; none for a pair of levels that is no valid transition. -/
def count4X (before after : Levels) : CountKind :=
  match before, after with
  | (false, false), (true, false) => .forward
  | (true, false), (true, true) => .forward
  | (true, true), (false, true) => .forward
  | (false, true), (false, false) => .forward
  | (true, false), (false, false) => .reverse
  | (true, true), (true, false) => .reverse
  | (false, true), (true, true) => .reverse
  | (false, false), (false, true) => .reverse
  | _, _ => .nothing

/-- The table of R95 for 2X. -/
def count2X (before after : Levels) : CountKind :=
  match before, after with
  | (false, false), (true, false) => .forward
  | (true, true), (false, true) => .forward
  | (true, false), (false, false) => .reverse
  | (false, true), (true, true) => .reverse
  | _, _ => .nothing

/-- The table of R95 for 1X. -/
def count1X (before after : Levels) : CountKind :=
  match before, after with
  | (false, false), (true, false) => .forward
  | (true, false), (false, false) => .reverse
  | _, _ => .nothing

/-- The column of ODO_DECODE (R95). -/
def countOf (m : DecodeMode) (before after : Levels) : CountKind :=
  match m with
  | .x4 => count4X before after
  | .x2 => count2X before after
  | .x1 => count1X before after

/-- The reference levels. -/
def Chain.levels (k : Chain) : Levels := (k.levelA, k.levelB)

/-- The level pair after one channel changes. -/
def changeChannel (v : Levels) : Channel → Levels
  | .a => (!v.1, v.2)
  | .b => (v.1, !v.2)

/-- The new pair taken as the reference. -/
def State.takeLevels (s : State) (v : Levels) : State := s.updChain (fun k => { k with levelA := v.1, levelB := v.2 })

/-- What a transition gives, acted on (R97). -/
def State.applyCount (s : State) : CountKind → State
  | .forward => s.count true
  | .reverse => s.count false
  | .nothing => s

/-- A valid transition of one channel (R95). -/
def State.validTransition (s : State) (ch : Channel) : State :=
  let before := s.chain.levels
  let after := changeChannel before ch
  (s.takeLevels after).applyCount (countOf s.settings.odoDecode before after)

/-- ODO_VALID_TRANSITION (R95). -/
def execOdoValidTransition (ch : Channel) (s : State) : Host.Outcome State Fault Refusal :=
  .next (if s.running then s.validTransition ch else s)

/-- An invalid transition: both channels change at once, ODO_INVALID counts, and no count is produced (R96). -/
def Chain.invalid (k : Chain) : Chain :=
  { k with levelA := !k.levelA, levelB := !k.levelB, odoInvalid := bump k.odoInvalid }

/-- ODO_INVALID_TRANSITION (R96). -/
def execOdoInvalidTransition (s : State) : Host.Outcome State Fault Refusal :=
  .next (if s.running then s.updChain Chain.invalid else s)

end Sys2Proof.Machine
end

