-- ==== Sys2Proof/Machine/StationRows.lean ====
section
/-! DEFINITION. The station commands and reads (02, 2.3, 2.9): STATION_DEFINE, STATION_PLANE, STATION_WITHDRAW, STATION_RESTORE,
STATION_FORGET, STATION_READ, COUNTERS, ZERO_COUNTERS. -/
namespace Sys2Proof.Machine

/-! ## The words of the station commands (R28) -/

/-- The words of a station command: its number and its further numbers; none for SYNTAX. -/
def stationArgs? (args : List Text) : Option (Int × List Int) :=
  match numbers? args with
  | some (n :: rest) => some (n, rest)
  | _ => none

/-- A command of a station number and no further word: SYNTAX, RANGE, then what the command does (R28). -/
def State.withStation (s : State) (p : Port) (args : List Text) (k : StationId → State) : State :=
  match stationArgs? args with
  | some (n, []) =>
    match stationOf? n with
    | some id => k id
    | none => s.no p .range
  | _ => s.no p .syn

/-! ## Tests -/

/-- COLLIDE: the signature equals that of another IN_SERVICE station under SIG_MASK (R29, R32). -/
def Store.collides (st : Store) (n : StationId) (sig : Byte) : Bool :=
  StationId.all.any (fun m =>
    m != n && (match st.stations.get m with
      | .inService d => sameUnder st.settings.sigMask d.signature sig
      | _ => false))

/-- INUSE of PLANE and WITHDRAW: the run is CUTTING or COASTING and the ACTIVE line names the station (R30, R31). -/
def State.stationInUse (s : State) (n : StationId) : Bool := s.digging && s.active?.any (fun l => l.namesStation n)

/-- INUSE of FORGET: a PLANNED or ACTIVE line names the station (R33). -/
def State.stationNamed (s : State) (n : StationId) : Bool :=
  s.store.lines.any (fun l => l.takesMarks && l.namesStation n)

/-- The tests after STATE: BACKLOG and then the command's own (R28). -/
def State.stationTests (s : State) (p : Port) (fails : Bool) (r : Reason) (k : State) : State :=
  if s.recheck.backlog then s.no p .backlog
  else if fails then s.no p r
  else k

/-- A station record written, with checks in flight having proceeded by a free number of tests before it (R43). -/
def State.writeStation (s : State) (n : StationId) (t : Station) : State := s.proceedChecks.setStation n t

/-! ## STATION_DEFINE (R29) -/

/-- The words of DEFINE: number, signature, and a label if given. -/
structure DefineArgs where
  number : Int
  signature : Int
  label : Option Text
deriving DecidableEq, Repr

/-- The words of DEFINE read; a label that is too long or reads as NONE is SYNTAX (R28, R184). -/
def defineArgs? (args : List Text) : Option DefineArgs :=
  match args with
  | [n, g] =>
    match number? n, number? g with
    | some n, some g => some { number := n, signature := g, label := none }
    | _, _ => none
  | [n, g, t] =>
    match number? n, number? g with
    | some n, some g => if goodLabel t then some { number := n, signature := g, label := some t } else none
    | _, _ => none
  | _ => none

/-- DEFINE of a slot after SYNTAX and RANGE (R28, R29). -/
def State.defineStation (s : State) (p : Port) (n : StationId) (sig : Byte) (label : Option Text) : State :=
  match s.store.stations.get n with
  | .undefined =>
    s.stationTests p (s.store.collides n sig) .collide
      (((s.writeStation n (.inService { signature := sig, label := label, correction := 0 })).updLive n
        (fun _ => StationLive.reset)).ok p)
  | _ => s.no p .state

/-- STATION_DEFINE (R29). -/
def execStationDefine (p : Port) (args : List Text) (s : State) : Host.Outcome State Fault Refusal :=
  .next (takeLine p (.stationDefine p args) s (fun s =>
    match defineArgs? args with
    | none => s.no p .syn
    | some a =>
      match stationOf? a.number with
      | none => s.no p .range
      | some n =>
        if within 1 255 a.signature then s.defineStation p n (BitVec.ofInt 8 a.signature) a.label else s.no p .range))

/-! ## STATION_PLANE (R30) -/

/-- The correction written; a changed one marks the lines that name the station (R30, R32). -/
def State.setCorrection (s : State) (n : StationId) (old : StationData) (t : Station) (mm : Int) : State :=
  if mm = old.correction then s else (s.writeStation n t).markingChange (.station n)

/-- PLANE of a slot after SYNTAX and RANGE (R28, R30). -/
def State.planeStation (s : State) (p : Port) (n : StationId) (mm : Int) : State :=
  match s.store.stations.get n with
  | .undefined => s.no p .state
  | .inService d =>
    s.stationTests p (s.stationInUse n) .inuse
      ((s.setCorrection n d (.inService { d with correction := mm }) mm).ok p)
  | .withdrawn d =>
    s.stationTests p (s.stationInUse n) .inuse
      ((s.setCorrection n d (.withdrawn { d with correction := mm }) mm).ok p)

/-- STATION_PLANE (R30). -/
def execStationPlane (p : Port) (args : List Text) (s : State) : Host.Outcome State Fault Refusal :=
  .next (takeLine p (.stationPlane p args) s (fun s =>
    match stationArgs? args with
    | some (a, [mm]) =>
      match stationOf? a with
      | none => s.no p .range
      | some n => if within (-500) 500 mm then s.planeStation p n mm else s.no p .range
    | _ => s.no p .syn))

/-! ## STATION_WITHDRAW (R31) -/

/-- WITHDRAW of a slot after SYNTAX and RANGE (R28, R31). -/
def State.withdrawStation (s : State) (p : Port) (n : StationId) : State :=
  match s.store.stations.get n with
  | .inService d =>
    s.stationTests p (s.stationInUse n) .inuse
      ((((s.writeStation n (.withdrawn d)).updLive n (fun v => { v with last := none })).markingChange (.station n)).ok p)
  | _ => s.no p .state

/-- STATION_WITHDRAW (R31). -/
def execStationWithdraw (p : Port) (args : List Text) (s : State) : Host.Outcome State Fault Refusal :=
  .next (takeLine p (.stationWithdraw p args) s (fun s => s.withStation p args (fun n => s.withdrawStation p n)))

/-! ## STATION_RESTORE (R32) -/

/-- RESTORE of a slot after SYNTAX and RANGE (R28, R32). -/
def State.restoreStation (s : State) (p : Port) (n : StationId) : State :=
  match s.store.stations.get n with
  | .withdrawn d =>
    s.stationTests p (s.store.collides n d.signature) .collide
      (((s.writeStation n (.inService d)).markingChange (.station n)).ok p)
  | _ => s.no p .state

/-- STATION_RESTORE (R32). -/
def execStationRestore (p : Port) (args : List Text) (s : State) : Host.Outcome State Fault Refusal :=
  .next (takeLine p (.stationRestore p args) s (fun s => s.withStation p args (fun n => s.restoreStation p n)))

/-! ## STATION_FORGET (R33) -/

/-- FORGET of a slot after SYNTAX and RANGE (R28, R33). -/
def State.forgetStation (s : State) (p : Port) (n : StationId) : State :=
  match s.store.stations.get n with
  | .withdrawn _ =>
    s.stationTests p (s.stationNamed n) .inuse
      (((s.writeStation n .undefined).updLive n (fun _ => StationLive.reset)).ok p)
  | _ => s.no p .state

/-- STATION_FORGET (R33). -/
def execStationForget (p : Port) (args : List Text) (s : State) : Host.Outcome State Fault Refusal :=
  .next (takeLine p (.stationForget p args) s (fun s => s.withStation p args (fun n => s.forgetStation p n)))

/-! ## Reads and counters -/

/-- STATION_READ (R42). -/
def execStationRead (p : Port) (args : List Text) (s : State) : Host.Outcome State Fault Refusal :=
  .next (takeLine p (.stationRead p args) s (fun s =>
    s.withStation p args (fun n => s.reply p (.records [stationRecord s n]))))

/-- COUNTERS (R41). -/
def execCounters (p : Port) (args : List Text) (s : State) : Host.Outcome State Fault Refusal :=
  .next (takeLine p (.counters p args) s (fun s => s.withNone p args (s.reply p (.records [countersRecord s]))))

/-- Accepted counts set to 0, last strikes kept. -/
def zeroAccepted (v : StationLive) : StationLive := { v with accepted := 0 }

/-- Every slot's value changed. -/
def Six.map {α : Type} (f : α → α) (t : Six α) : Six α :=
  { s1 := f t.s1, s2 := f t.s2, s3 := f t.s3, s4 := f t.s4, s5 := f t.s5, s6 := f t.s6 }

/-- Every counter that COUNTERS reports set to 0 (R41). -/
def State.zeroCounters (s : State) : State :=
  (s.updLink (fun k => { k with bad := 0, fault := 0, unmatched := 0, foreign := 0, live := k.live.map zeroAccepted })).updChain
    (fun k => { k with odoInvalid := 0 })

/-- ZERO_COUNTERS (R41). That a further word is SYNTAX is the model's reading (log 23). -/
def execZeroCounters (p : Port) (args : List Text) (s : State) : Host.Outcome State Fault Refusal :=
  .next (takeLine p (.zeroCounters p args) s (fun s => s.withNone p args (s.zeroCounters.ok p)))

end Sys2Proof.Machine
end

