-- ==== Sys2Proof/Machine/RunRows.lean ====
section
/-! DEFINITION. The run commands and the run's timers (07; 06, 6.5): SELECT, DESELECT, TIE, TIE_WAIT_DEADLINE, SUSPEND, RESUME, RETIE,
ABANDON, MARK, STRIKE_TIMER_EXPIRY. -/
namespace Sys2Proof.Machine

/-- A command of the CAB port alone: PORT on the PLAN port, after SYNTAX (R111, R175). -/
def State.cabOnly (s : State) (p : Port) (k : State) : State :=
  match p with
  | .cab => k
  | .plan => s.no .plan .port

/-- The run is ARMED. -/
def State.isArmed (s : State) : Bool := s.runState? == some .armed

/-- The run is IDLE: there is no run context (R13, R108). -/
def State.isIdle (s : State) : Bool := s.context?.isNone

/-! ## SELECT (R112) -/

/-- The run context that SELECT creates (R112, R161). -/
def RunContext.selected : RunContext :=
  { state := .armed, retie := false, furthest := none, mark1 := none, mark2 := none, trimFrom := 0, trimTo := 0, rampStart := 0 }

/-- Item 6 of R112: the line is PLANNED and CHECKED, and a parent is COMPLETE. -/
def State.selectable (s : State) (l : Line) : Bool :=
  l.lifecycle.kind == .planned && l.status == .checked
    && l.parent?.all (fun p => (s.line? p).any (fun k => k.lifecycle.kind == .complete))

/-- The line becomes ACTIVE and the run ARMED (R98, R107, R112, R133). -/
def State.selectLine (s : State) (id : Nat) : State :=
  ((((s.updLine id (fun l => { l with lifecycle := .active RunContext.selected none })).updChain
    (fun k => { k with known := false, position := 0, endWarned := false })).updRunUnit
      (fun u => { u with coast := 0, timer := none, wait := none })).updEval (fun _ => Evaluator.reset)).raise .run

/-- Items 5 to 7 of R112 and the selection. -/
def State.selectId (s : State) (p : Port) (id : Nat) : State :=
  match s.line? id with
  | none => s.no p .noline
  | some l =>
    if s.selectable l then
      match s.holder? id with
      | some h => s.reply p (.no .held [portField h])
      | none => (s.selectLine id).ok p
    else s.no p .state

/-- Items 3 and 4 of R112. -/
def State.selectNumber (s : State) (p : Port) (n : Int) : State :=
  if s.isIdle then
    match lineId? n with
    | none => s.no p .range
    | some id => s.selectId p id
  else s.no p .state

/-- One argument that is a number, else SYNTAX (R112, R119, R162). -/
def State.withNumber (s : State) (p : Port) (args : List Text) (k : Int → State) : State :=
  match numbers? args with
  | some [n] => k n
  | _ => s.no p .syn

/-- SELECT (R112). -/
def execSelect (p : Port) (args : List Text) (s : State) : Host.Outcome State Fault Refusal :=
  .next (takeLine p (.select p args) s (fun s =>
    s.withNumber p args (fun n => s.cabOnly p (s.selectNumber p n))))

/-! ## DESELECT (R113) -/

/-- The ACTIVE line returned to PLANNED (R12, R113, R159). -/
def State.deselectLine (s : State) : State :=
  match s.active? with
  | some l => (s.leaveActive .planned).noteDropIf l .deselect
  | none => s

/-- DESELECT (R113). -/
def execDeselect (p : Port) (args : List Text) (s : State) : Host.Outcome State Fault Refusal :=
  .next (takeLine p (.deselect p args) s (fun s =>
    s.withNone p args (s.cabOnly p (if s.isArmed then s.deselectLine.ok p else s.no p .state))))

/-! ## TIE and RETIE taken (R114, R119) -/

/-- A tie wait set up, with a deadline of the present time plus STRIKE_TIMEOUT as read now. -/
def State.startWait (s : State) (k : TieKind) (n : StationId) (c : Int) : State :=
  s.updRunUnit (fun u =>
    { u with wait := some { kind := k, station := n, chainage := c, deadline := s.time + s.strikeTimeout } })

/-- The station of a span of a list; a list without that span does not arise (log 28). -/
def stationAt (spans : List Span) (k : Nat) : StationId := ((spans[k]?).map (fun x => x.station)).getD .s1

/-- The ACTIVE line is CHECKED. -/
def State.activeChecked (s : State) : Bool := s.active?.any (fun l => l.status == .checked)

/-- TIE (R114). The reply waits. -/
def execTie (p : Port) (args : List Text) (s : State) : Host.Outcome State Fault Refusal :=
  .next (takeLine p (.tie p args) s (fun s =>
    s.withNone p args (s.cabOnly p
      (if s.isArmed && s.activeChecked then s.startWait .tie (stationAt s.spanList 0) 0 else s.no p .state))))

/-- F, read as 0 where it is unset, which does not arise while the run is SUSPENDED or HALTED (log 28). -/
def State.reachedF (s : State) : Int := s.furthest?.getD 0

/-- RETIE of a chainage after SYNTAX and PORT (R119). The reply waits. -/
def State.retieTo (s : State) (p : Port) (mm : Int) : State :=
  if s.stopped then
    if within (s.reachedF - s.settings.backup) s.reachedF mm then
      s.startWait .retie (stationAt s.spanList (spanIndex s.spanList mm)) mm
    else s.no p .range
  else s.no p .state

/-- RETIE (R119). -/
def execRetie (p : Port) (args : List Text) (s : State) : Host.Outcome State Fault Refusal :=
  .next (takeLine p (.retie p args) s (fun s =>
    s.withNumber p args (fun n => s.cabOnly p (s.retieTo p n))))

/-- The deadline of a tie wait has come (R114; log 8). -/
def State.waitDue (s : State) : Bool := s.run.wait.any (fun w => decide (w.deadline ≤ s.time))

/-- A wait whose deadline passes ends with NO NOSTRIKE; TIE and RETIE are CAB commands (R111, R114, R119). -/
def State.expireWait (s : State) : State := if s.waitDue then s.endWait.no .cab .nostrike else s

/-- TIE_WAIT_DEADLINE (R114). -/
def execTieWaitDeadline (s : State) : Host.Outcome State Fault Refusal := .next (if s.running then s.expireWait else s)

/-! ## SUSPEND (R116) -/

/-- SUSPEND (R116). -/
def execSuspend (p : Port) (args : List Text) (s : State) : Host.Outcome State Fault Refusal :=
  .next (takeLine p (.suspend p args) s (fun s =>
    s.withNone p args (if s.digging then (s.suspendDigging .operator).ok p else s.no p .state)))

/-! ## RESUME (R117, R118) -/

/-- The fresh last strike of the serving station (R117, item 8). -/
def State.servingStrike? (s : State) : Option Strike := s.servingStation?.bind s.freshStrike?

/-- Items 3 to 7 of R117: the refusal of the first test that fails. -/
def State.resumeRefusal? (s : State) : Option Reason :=
  if !s.stopped then some .state
  else if s.context?.any (fun r => r.retie) then some .retie
  else if !s.activeChecked then some .state
  else if s.chainage < s.reachedF - s.settings.backup then some .backtrack
  else if s.reachedF + Config.resumeGap < s.chainage then some .gap
  else none

/-- CUTTING again, with the grade count and flag cleared and the strike timer started from the serving station's last strike
(R118). -/
def State.enterCutting (s : State) (k : Strike) : State :=
  (((s.changeRun .cutting).updRunUnit (fun u => { u with coast := 0 })).updEval
    (fun e => { e with gradeCount := 0, gradeFlag := false })).startTimer (k.time + s.strikeTimeout)

/-- A RESUME that passes: CUTTING, and then F advances to a chainage above it (R100, R118). -/
def State.resumeDig (s : State) (k : Strike) : State :=
  let s1 := s.enterCutting k
  if s1.reachedF < s1.chainage then s1.advance s1.chainage false else s1

/-- RESUME after SYNTAX and PORT (R117, R118). -/
def State.resumeRun (s : State) (p : Port) : State :=
  match s.resumeRefusal? with
  | some r => s.no p r
  | none =>
    match s.servingStrike? with
    | none => s.no p .nostrike
    | some k => (s.resumeDig k).ok p

/-- RESUME (R117). -/
def execResume (p : Port) (args : List Text) (s : State) : Host.Outcome State Fault Refusal :=
  .next (takeLine p (.resume p args) s (fun s => s.withNone p args (s.cabOnly p (s.resumeRun p))))

/-! ## ABANDON (R121) -/

/-- ABANDON's states: ARMED, SUSPENDED or HALTED. -/
def State.abandonable (s : State) : Bool := s.isArmed || s.stopped

/-- The ACTIVE line given up (R8, R12, R121, R159), and its children marked (R78, R83). -/
def State.abandonLine (s : State) : State :=
  match s.active? with
  | some l =>
    let s0 := s.proceedChecks.updActive Line.closeAll
    ((s0.leaveActive .abandoned).noteDropIf l .abandon).markingChange (.parent l.id)
  | none => s

/-- ABANDON (R121). -/
def execAbandon (p : Port) (args : List Text) (s : State) : Host.Outcome State Fault Refusal :=
  .next (takeLine p (.abandon p args) s (fun s =>
    s.withNone p args (s.cabOnly p (if s.abandonable then s.abandonLine.ok p else s.no p .state))))

/-! ## MARK (R104) -/

/-- The words of MARK: a mark number with OFF, or with a chainage and an effect (R104; log 23). -/
inductive MarkForm
  | off (n : Int)
  | arm (n mm : Int) (suspends : Bool)
deriving DecidableEq, Repr

/-- The effect a word names: whether it is SUSPEND. -/
def markEffect? (w : Text) : Option Bool :=
  if isKeyword "REPORT" w then some false else if isKeyword "SUSPEND" w then some true else none

/-- The words of MARK read (R104). -/
def markForm? (args : List Text) : Option MarkForm :=
  match args with
  | [n, w] => if isKeyword "OFF" w then (number? n).map .off else none
  | [n, mm, w] =>
    match number? n, number? mm, markEffect? w with
    | some n, some mm, some e => some (.arm n mm e)
    | _, _, _ => none
  | _ => none

/-- The number of the mark a form names. -/
def MarkForm.number : MarkForm → Int
  | .off n => n
  | .arm n _ _ => n

/-- The mark a form leaves: none for OFF. -/
def MarkForm.mark : MarkForm → Option Mark
  | .off _ => none
  | .arm _ mm e => some { chainage := mm, suspends := e }

/-- Mark n of the run context written. -/
def RunContext.setMark (r : RunContext) (n : Int) (m : Option Mark) : RunContext :=
  if n = 1 then { r with mark1 := m } else { r with mark2 := m }

/-- Item 5 of R104: above F, or above 0 while F is unset, and below the length. -/
def State.markInRange (s : State) (m : Option Mark) : Bool :=
  m.all (fun k => decide (s.reachedF < k.chainage) && s.active?.any (fun l => decide (k.chainage < l.length)))

/-- MARK after SYNTAX and PORT (R104). -/
def State.setMark (s : State) (p : Port) (f : MarkForm) : State :=
  if s.isIdle then s.no p .state
  else if within 1 2 f.number && s.markInRange f.mark then (s.updRun (fun r => r.setMark f.number f.mark)).ok p
  else s.no p .range

/-- MARK (R104). -/
def execMark (p : Port) (args : List Text) (s : State) : Host.Outcome State Fault Refusal :=
  .next (takeLine p (.mark p args) s (fun s =>
    match markForm? args with
    | none => s.no p .syn
    | some f => s.cabOnly p (s.setMark p f)))

/-! ## The strike timer (R122) -/

/-- The strike timer is due: it runs, the run is CUTTING, and its deadline has come (R122; log 8). -/
def State.timerDue (s : State) : Bool :=
  s.runState? == some .cutting && s.run.timer.any (fun d => decide (d ≤ s.time))

/-- The strike timer expires (R122, R123). -/
def State.expireTimer (s : State) : State := if s.timerDue then s.enterCoasting else s

/-- STRIKE_TIMER_EXPIRY (R122). -/
def execStrikeTimerExpiry (s : State) : Host.Outcome State Fault Refusal := .next (if s.running then s.expireTimer else s)

end Sys2Proof.Machine
end

