-- ==== Sys2Proof/Machine/RevisionRows.lean ====
section
/-! DEFINITION. The commands on the staged revision and the trim (09): SETTLE, UNSETTLE, UNSTAGE, TRIM. -/
namespace Sys2Proof.Machine

/-! ## SETTLE (R153) -/

/-- The staged revision of the ACTIVE line set SETTLED or UNSETTLED (R152). -/
def State.setSettled (s : State) (b : Bool) : State :=
  s.updActive (fun l => l.setStaged (l.staged?.map (fun st => { st with settled := b })))

/-- SETTLE of a revision while the run is ARMED, SUSPENDED or HALTED: applied at once or discarded FROZEN (R153, R157, R158). -/
def State.settleNow (s : State) (p : Port) (l : Line) (st : Staged) : State :=
  let s1 := s.applyOrDrop l st
  if meetsFreeze s.store l s.furthest? st.profile st.spans then s1.ok p [.word "REVISED", countField (l.revision + 1)]
  else s1.no p .frozen

/-- SETTLE after SYNTAX and PORT (R153). -/
def State.settle (s : State) (p : Port) : State :=
  match s.active?, s.staged? with
  | some l, some st => if s.digging then (s.setSettled true).ok p else s.settleNow p l st
  | _, _ => s.no p .state

/-- SETTLE (R153). -/
def execSettle (p : Port) (args : List Text) (s : State) : Host.Outcome State Fault Refusal :=
  .next (takeLine p (.settle p args) s (fun s => s.withNone p args (s.cabOnly p (s.settle p))))

/-! ## UNSETTLE (R154) -/

/-- UNSETTLE after SYNTAX (R154). -/
def State.unsettle (s : State) (p : Port) : State :=
  if s.staged?.isSome then (s.setSettled false).ok p else s.no p .state

/-- UNSETTLE (R154). -/
def execUnsettle (p : Port) (args : List Text) (s : State) : Host.Outcome State Fault Refusal :=
  .next (takeLine p (.unsettle p args) s (fun s => s.withNone p args (s.unsettle p)))

/-! ## UNSTAGE (R155) -/

/-- Item 3 of R155: on the PLAN port the claim slot holds the ACTIVE line's id. -/
def State.mayUnstage (s : State) (p : Port) (l : Line) : Bool :=
  match p with
  | .cab => true
  | .plan => s.plan.claim == some l.id

/-- UNSTAGE after SYNTAX (R155). -/
def State.unstage (s : State) (p : Port) : State :=
  match s.active? with
  | none => s.no p .state
  | some l =>
    if s.mayUnstage p l then
      if l.staged?.isSome then (s.dropStaged l .unstage).ok p else s.no p .state
    else s.no p .noclaim

/-- UNSTAGE (R155). -/
def execUnstage (p : Port) (args : List Text) (s : State) : Host.Outcome State Fault Refusal :=
  .next (takeLine p (.unstage p args) s (fun s => s.withNone p args (s.unstage p)))

/-! ## TRIM (R162) -/

/-- The trim ramp written. -/
def RunContext.ramp (r : RunContext) (fromTrim toTrim start : Int) : RunContext :=
  { r with trimFrom := fromTrim, trimTo := toTrim, rampStart := start }

/-- TRIM with F set: a new ramp from the effective trim at F, or BACKFALL (R162). -/
def State.trimAtF (s : State) (p : Port) (mm eff f : Int) : State :=
  if mm < eff then s.no p .backfall else (s.updRun (fun r => r.ramp eff mm f)).ok p [.num eff]

/-- TRIM of a value in range (R162): with F unset it acts along the whole line. R162 gives the reply for F set alone, OK and the effective
trim at F; with F unset the reply is OK and the effective trim that TRIM has set along the line, mm itself, the model's reading (log 36). -/
def State.trimTo (s : State) (p : Port) (r : RunContext) (mm : Int) : State :=
  match r.furthest with
  | none => (s.updRun (fun r => r.ramp mm mm 0)).ok p [.num mm]
  | some f => s.trimAtF p mm (trimAt r s.settings.trimRamp f) f

/-- TRIM after SYNTAX and PORT (R162). -/
def State.trim (s : State) (p : Port) (mm : Int) : State :=
  match s.context? with
  | none => s.no p .state
  | some r => if within (-50) 50 mm then s.trimTo p r mm else s.no p .range

/-- TRIM (R162). -/
def execTrim (p : Port) (args : List Text) (s : State) : Host.Outcome State Fault Refusal :=
  .next (takeLine p (.trim p args) s (fun s => s.withNumber p args (fun n => s.cabOnly p (s.trim p n))))

end Sys2Proof.Machine
end

