-- ==== Sys2Proof/Machine/ReadRows.lean ====
section
/-! DEFINITION. The reads (10.4): IDENT, LINES, LINE, PROFILE, SPANS, RUN, QUEUE, SETTINGS, EVENTS. -/
namespace Sys2Proof.Machine

/-- The records of a read sent as its reply (R167). -/
def State.records (s : State) (p : Port) (rs : List (List Field)) : State := s.reply p (.records rs)

/-- IDENT (R170). -/
def execIdent (p : Port) (args : List Text) (s : State) : Host.Outcome State Fault Refusal :=
  .next (takeLine p (.ident p args) s (fun s => s.withNone p args (s.records p [identRecord s])))

/-- RUN (R169). -/
def execRun (p : Port) (args : List Text) (s : State) : Host.Outcome State Fault Refusal :=
  .next (takeLine p (.run p args) s (fun s => s.withNone p args (s.records p [runRecord s])))

/-- QUEUE (R94). -/
def execQueue (p : Port) (args : List Text) (s : State) : Host.Outcome State Fault Refusal :=
  .next (takeLine p (.queue p args) s (fun s => s.withNone p args (s.records p [queueRecord s])))

/-- SETTINGS (R176). -/
def execSettings (p : Port) (args : List Text) (s : State) : Host.Outcome State Fault Refusal :=
  .next (takeLine p (.settings p args) s (fun s => s.withNone p args (s.records p (settingRecords s.settings))))

/-- EVENTS (R168). -/
def execEvents (p : Port) (args : List Text) (s : State) : Host.Outcome State Fault Refusal :=
  .next (takeLine p (.events p args) s (fun s => s.withNone p args (s.records p [eventsRecord s p])))

/-! ## LINES (R168) -/

/-- The LINE records of the lines that a filter keeps, in ascending id. -/
def linesRecords (s : State) (keep : Line → Bool) : List (List Field) :=
  (s.store.lines.filter keep).map (lineRecord s)

/-- The lines in a lifecycle. -/
def Line.isIn (k : LifecycleKind) (l : Line) : Bool := l.lifecycle.kind == k

/-- LINES (R168; log 22). That a word after the lifecycle is SYNTAX is the model's reading (log 23). -/
def execLines (p : Port) (args : List Text) (s : State) : Host.Outcome State Fault Refusal :=
  .next (takeLine p (.lines p args) s (fun s =>
    match args with
    | [] => s.records p (linesRecords s (fun _ => true))
    | [w] =>
      match lifecycleKind? w with
      | some k => s.records p (linesRecords s (Line.isIn k))
      | none => s.no p .syn
    | _ => s.no p .syn))

/-! ## The line reads (R169) -/

/-- Which copy of the design a read gives (R169). -/
inductive Copy
  | current
  | staged
  | draft
deriving DecidableEq, Repr

/-- The last word of PROFILE and SPANS: none, STAGED or DRAFT. That another word, or a word after it, is SYNTAX is the model's reading
(log 23). -/
def copyOf? (ws : List Text) : Option Copy :=
  match ws with
  | [] => some .current
  | [w] => if isKeyword "STAGED" w then some .staged else if isKeyword "DRAFT" w then some .draft else none
  | _ => none

/-- The last word of LINE: none or DRAFT. That another word, or a word after it, is SYNTAX is the model's reading (log 23). -/
def draftWord? (ws : List Text) : Option Copy :=
  match ws with
  | [] => some .current
  | [w] => if isKeyword "DRAFT" w then some .draft else none
  | _ => none

/-- NOLINE, with the port that holds the reservation where the id is reserved (R61, R169). -/
def State.noLine (s : State) (p : Port) (id : Nat) : State :=
  s.reply p (.no .noline ((s.holder? id).map portField).toList)

/-- A read of a stored line: NOLINE where the id names none. -/
def State.withLine (s : State) (p : Port) (id : Nat) (k : Line → State) : State :=
  match s.line? id with
  | none => s.noLine p id
  | some l => k l

/-- A read of this port's draft: NODRAFT unless the port's claim holds the id and the draft is open (R72, R169). -/
def State.withOwnDraft (s : State) (p : Port) (id : Nat) (k : Draft → State) : State :=
  match (s.port p).draft with
  | none => s.no p .nodraft
  | some d => if (s.port p).claim = some id then k d else s.no p .nodraft

/-- An id after SYNTAX: RANGE outside 1..999. -/
def State.withLineId (s : State) (p : Port) (n : Int) (k : Nat → State) : State :=
  match lineId? n with
  | none => s.no p .range
  | some id => k id

/-- LINE of an id (R169). -/
def State.readLine (s : State) (p : Port) (c : Copy) (id : Nat) : State :=
  match c with
  | .draft => s.withOwnDraft p id (fun d => s.records p [draftRecord id d])
  | _ => s.withLine p id (fun l => s.records p [lineRecord s l])

/-- LINE (R169). That LINE without a word is SYNTAX is the model's reading (log 23). -/
def execLine (p : Port) (args : List Text) (s : State) : Host.Outcome State Fault Refusal :=
  .next (takeLine p (.line p args) s (fun s =>
    match args with
    | [] => s.no p .syn
    | w :: rest =>
      match number? w, draftWord? rest with
      | some n, some c => s.withLineId p n (fun id => s.readLine p c id)
      | _, _ => s.no p .syn))

/-- The spans of a staged revision, or none. -/
def stagedSpanRecords (l : Line) : List (List Field) :=
  match l.staged? with
  | some st => spanRecords st.spans
  | none => []

/-- SPANS of an id (R169). -/
def State.readSpans (s : State) (p : Port) (c : Copy) (id : Nat) : State :=
  match c with
  | .draft => s.withOwnDraft p id (fun d => s.records p (draftSpanRecords d.spans))
  | .staged => s.withLine p id (fun l => s.records p (stagedSpanRecords l))
  | .current => s.withLine p id (fun l => s.records p (spanRecords l.spans))

/-- SPANS (R169). That SPANS without a word is SYNTAX is the model's reading (log 23). -/
def execSpans (p : Port) (args : List Text) (s : State) : Host.Outcome State Fault Refusal :=
  .next (takeLine p (.spans p args) s (fun s =>
    match args with
    | [] => s.no p .syn
    | w :: rest =>
      match number? w, copyOf? rest with
      | some n, some c => s.withLineId p n (fun id => s.readSpans p c id)
      | _, _ => s.no p .syn))

/-- The breakpoints of a staged revision in an index range, or none. -/
def stagedPointRecords (first last : Nat) (l : Line) : List (List Field) :=
  match l.staged? with
  | some st => stagedRecords first last st.profile
  | none => []

/-- PROFILE of an id and an index range (R169). -/
def State.readProfile (s : State) (p : Port) (c : Copy) (first last : Nat) (id : Nat) : State :=
  match c with
  | .draft => s.withOwnDraft p id (fun d => s.records p (draftRecords first last d.points))
  | .staged => s.withLine p id (fun l => s.records p (stagedPointRecords first last l))
  | .current => s.withLine p id (fun l => s.records p (profileRecords first last l.profile))

/-- The range of PROFILE's indexes (R169). -/
def goodIndexes (a b : Int) : Bool := within 0 63 a && within 0 63 b && decide (a ≤ b)

/-- PROFILE (R169). That fewer than three words are SYNTAX is the model's reading (log 23). -/
def execProfile (p : Port) (args : List Text) (s : State) : Host.Outcome State Fault Refusal :=
  .next (takeLine p (.profile p args) s (fun s =>
    match args with
    | w :: a :: b :: rest =>
      match numbers? [w, a, b], copyOf? rest with
      | some [n, a, b], some c =>
        s.withLineId p n (fun id => if goodIndexes a b then s.readProfile p c a.toNat b.toNat id else s.no p .range)
      | _, _ => s.no p .syn
    | _ => s.no p .syn))

end Sys2Proof.Machine
end

