-- ==== Sys2Proof/Machine/ModuleRows.lean ====
section
/-! DEFINITION. Events, settings, restart and power (10.5; 11): ACK, MASK, SET, RESTART, CLEARSTORE, POWER_ON, SUPPLY_LOSS, RESET_INPUT. -/
namespace Sys2Proof.Machine

/-! ## ACK and MASK (R172, R173) -/

/-- The kinds ACK clears: every kind where ALL is among the names (R172; log 23). -/
def ackKinds? (args : List Text) : Option (List EventKind) :=
  if args.isEmpty then none
  else if args.any (isKeyword "ALL") then
    (eventKinds? (args.filter (fun w => !isKeyword "ALL" w))).map (fun _ => EventKind.all)
  else eventKinds? args

/-- Kinds cleared in this port's event set. -/
def State.clearEvents (s : State) (p : Port) (es : List EventKind) : State :=
  s.updPort p (fun q => { q with events := clearKinds es q.events })

/-- ACK (R172). -/
def execAck (p : Port) (args : List Text) (s : State) : Host.Outcome State Fault Refusal :=
  .next (takeLine p (.ack p args) s (fun s =>
    match ackKinds? args with
    | none => s.no p .syn
    | some es => (s.clearEvents p es).ok p))

/-- The last word of MASK. -/
def onOff? (w : Text) : Option Bool :=
  if isKeyword "ON" w then some true else if isKeyword "OFF" w then some false else none

/-- The words of MASK: a kind and ON or OFF (R173). That a third word is SYNTAX is the model's reading (log 23). -/
def maskArgs? (args : List Text) : Option (EventKind × Bool) :=
  match args with
  | [k, w] =>
    match eventKind? k, onOff? w with
    | some e, some b => some (e, b)
    | _, _ => none
  | _ => none

/-- A kind put into a mask or taken out of it (R173). -/
def maskWith (e : EventKind) (on : Bool) (m : List EventKind) : List EventKind :=
  if on then setKind e m else clearKinds [e] m

/-- A kind put into this port's mask or taken out of it. -/
def State.setMask (s : State) (p : Port) (e : EventKind) (on : Bool) : State :=
  s.updPort p (fun q => { q with mask := maskWith e on q.mask })

/-- MASK (R173). -/
def execMask (p : Port) (args : List Text) (s : State) : Host.Outcome State Fault Refusal :=
  .next (takeLine p (.mask p args) s (fun s =>
    match maskArgs? args with
    | none => s.no p .syn
    | some (e, on) => (s.setMask p e on).ok p))

/-! ## SET (R177 to R179) -/

/-- Item 3 of R177: MAST less CLEAR_BAND stays above 0. -/
def bandGood (t : Settings) : Bool := decide (0 < t.mast - t.clearBand)

/-- Two IN_SERVICE stations would have equal signatures under a mask (R34, R177 item 6). -/
def Store.collidesUnder (st : Store) (mask : Byte) : Bool :=
  StationId.all.any (fun n => StationId.all.any (fun m =>
    decide (n.number < m.number) && (match st.stations.get n, st.stations.get m with
      | .inService d, .inService e => sameUnder mask d.signature e.signature
      | _, _ => false)))

/-- Item 4 of R177: the STATE refusals. -/
def State.setBarred (s : State) (name : SettingName) (v : SettingValue) : Bool :=
  match name.group with
  | .a => !s.isIdle
  | .b => false
  | .c => s.digging || (name == .backup && s.furthest?.isSome && decide (s.settings.backup < v.asNum))

/-- Items 3 to 6 of R177: the refusal of the first that fails. -/
def State.setRefusal? (s : State) (name : SettingName) (v : SettingValue) : Option Reason :=
  let t := s.settings.put name v
  if (name == .mast || name == .clearBand) && !bandGood t then some .range
  else if s.setBarred name v then some .state
  else if name.group == .a && s.recheck.backlog then some .backlog
  else if name == .sigMask && s.store.collidesUnder t.sigMask then some .collide
  else none

/-- The settings written. -/
def State.setSettings (s : State) (t : Settings) : State := { s with store := { s.store with settings := t } }

/-- A ramp rewritten so that the effective trim at F is unchanged by a new TRIM_RAMP (R161). -/
def RunContext.rewriteRamp (r : RunContext) (old : Int) : RunContext :=
  match r.furthest with
  | none => r
  | some f => if r.trimFrom ≠ r.trimTo ∧ f < r.rampStart + old then r.ramp (trimAt r old f) r.trimTo f else r

/-- A changed value written, with the effects of its group (R178, R179). -/
def State.changeSetting (s : State) (name : SettingName) (v : SettingValue) : State :=
  let t := s.settings.put name v
  match name.group with
  | .a => (s.proceedChecks.setSettings t).markingChange .groupA
  | _ => if name = .trimRamp then (s.updRun (fun r => r.rewriteRamp s.settings.trimRamp)).setSettings t else s.setSettings t

/-- SET of a value in its range (R177): an equal value writes nothing. -/
def State.setValue (s : State) (p : Port) (name : SettingName) (v : SettingValue) : State :=
  match s.setRefusal? name v with
  | some r => s.no p r
  | none => if s.settings.get name = v then s.ok p else (s.changeSetting name v).ok p

/-- SET (R177). -/
def execSet (p : Port) (args : List Text) (s : State) : Host.Outcome State Fault Refusal :=
  .next (takeLine p (.set p args) s (fun s =>
    match args with
    | [n, w] =>
      match settingName? n with
      | none => s.no p .syn
      | some name =>
        match settingValue? name w with
        | .syn => s.no p .syn
        | .range => s.no p .range
        | .good v => s.setValue p name v
    | _ => s.no p .syn))

/-! ## RESTART, CLEARSTORE (R182, R183) -/

/-- RESTART (R182): the OK is sent, and the restart follows its last character (REPLY_SENT). -/
def execRestart (p : Port) (args : List Text) (s : State) : Host.Outcome State Fault Refusal :=
  .next (takeLine p (.restart p args) s (fun s => s.withNone p args (s.ok p)))

/-- The clear write and the volatile state after it (R183). The channels' levels are read at no restart, and stay the reference
(log 6). CLEARSTORE stays in hand with its OK. A RESTART whose OK is still being sent on the CAB port ends there like any command in hand,
and no restart follows it: the model's choice between R183 and R182 with R165 (log 37). -/
def State.clearStore (s : State) (row : Instr) : State :=
  let cleared : State := { s with store := Store.reset }
  (cleared.volatileReset s.chain.levels).updPort .plan (fun q => { q with hand := .sending (some row) (.ok []) })

/-- CLEARSTORE after SYNTAX (R183). -/
def State.clearOn (s : State) (p : Port) (row : Instr) : State :=
  match p with
  | .cab => s.no .cab .port
  | .plan => if s.isIdle then s.clearStore row else s.no .plan .state

/-- CLEARSTORE (R183). -/
def execClearstore (p : Port) (args : List Text) (s : State) : Host.Outcome State Fault Refusal :=
  .next (takeLine p (.clearstore p args) s (fun s => s.withNone p args (s.clearOn p (.clearstore p args))))

/-! ## Power and the RESET input (R181; log 33) -/

/-- The restart proceeds when power is present and RESET is high (R181). -/
def State.restartIfRunning (s : State) : State := if s.running then s.restart else s

/-- POWER_ON (R181): the supply returns after a loss that has stopped the module, and the restart proceeds if RESET is high. -/
def execPowerOn (s : State) : Host.Outcome State Fault Refusal :=
  .next (if s.powered then s else ({ s with powered := true } : State).restartIfRunning)

/-- SUPPLY_LOSS (R181): the module stops. Steps are whole, so no store write is half made (R180; log 30). -/
def execSupplyLoss (s : State) : Host.Outcome State Fault Refusal := .next { s with powered := false }

/-- RESET_INPUT (R181; log 33): the input, high until now, has been held low for 50 ms; or, low until now, it is high again, and the
restart proceeds if power is present. -/
def execResetInput (s : State) : Host.Outcome State Fault Refusal :=
  .next (if s.resetLow then ({ s with resetLow := false } : State).restartIfRunning else { s with resetLow := true })

/-! ## The module clock (00, Module time; log 1) -/

/-- The timers that are due expire before the clock leaves their deadlines behind (log 8). -/
def State.expireAll (s : State) : State :=
  ((((s.expireTimer.expireWait).expireLapse .cab).expireLapse .plan).expireGap)

/-- A millisecond of module time passes; while the module does not run the clock stands. -/
def idle (s : State) : State :=
  if s.running then { s.expireAll with time := s.time + 1 } else s

end Sys2Proof.Machine
end

