-- ==== Sys2Proof/Machine/Dispatch.lean ====
section
/-! DEFINITION. One arm per row of the opcode table. -/
namespace Sys2Proof.Machine

/-- The row's effect on everything but the queue. -/
def exec (i : Instr) (s : State) : Host.Outcome State Fault Refusal :=
  match i with
  | .commandLineBad p => Sys2Proof.Machine.execCommandLineBad p s
  | .emptyLine p => Sys2Proof.Machine.execEmptyLine p s
  | .unknownCommand p ws => Sys2Proof.Machine.execUnknownCommand p ws s
  | .lineWhileBusy p => Sys2Proof.Machine.execLineWhileBusy p s
  | .replySent p => Sys2Proof.Machine.execReplySent p s
  | .claim p args => Sys2Proof.Machine.execClaim p args s
  | .release p args => Sys2Proof.Machine.execRelease p args s
  | .claimLapseExpiry p => Sys2Proof.Machine.execClaimLapseExpiry p s
  | .openDraft p args => Sys2Proof.Machine.execOpenDraft p args s
  | .window p args => Sys2Proof.Machine.execWindow p args s
  | .put p args => Sys2Proof.Machine.execPut p args s
  | .more p args => Sys2Proof.Machine.execMore p args s
  | .cut p args => Sys2Proof.Machine.execCut p args s
  | .span p args => Sys2Proof.Machine.execSpan p args s
  | .headParent p args => Sys2Proof.Machine.execHeadParent p args s
  | .headJunction p args => Sys2Proof.Machine.execHeadJunction p args s
  | .headLabel p args => Sys2Proof.Machine.execHeadLabel p args s
  | .discard p args => Sys2Proof.Machine.execDiscard p args s
  | .commit p args => Sys2Proof.Machine.execCommit p args s
  | .commitCompletion p => Sys2Proof.Machine.execCommitCompletion p s
  | .retire p args => Sys2Proof.Machine.execRetire p args s
  | .recheck p args => Sys2Proof.Machine.execRecheck p args s
  | .checkStart => Sys2Proof.Machine.execCheckStart s
  | .recheckCompletion => Sys2Proof.Machine.execRecheckCompletion s
  | .stationDefine p args => Sys2Proof.Machine.execStationDefine p args s
  | .stationPlane p args => Sys2Proof.Machine.execStationPlane p args s
  | .stationWithdraw p args => Sys2Proof.Machine.execStationWithdraw p args s
  | .stationRestore p args => Sys2Proof.Machine.execStationRestore p args s
  | .stationForget p args => Sys2Proof.Machine.execStationForget p args s
  | .stationRead p args => Sys2Proof.Machine.execStationRead p args s
  | .counters p args => Sys2Proof.Machine.execCounters p args s
  | .zeroCounters p args => Sys2Proof.Machine.execZeroCounters p args s
  | .frameComplete signature flags offsetHigh offsetLow check => Sys2Proof.Machine.execFrameComplete signature flags offsetHigh offsetLow check s
  | .frameFramingError => Sys2Proof.Machine.execFrameFramingError s
  | .frameGapTimeout => Sys2Proof.Machine.execFrameGapTimeout s
  | .odoValidTransition ch => Sys2Proof.Machine.execOdoValidTransition ch s
  | .odoInvalidTransition => Sys2Proof.Machine.execOdoInvalidTransition s
  | .strikeTimerExpiry => Sys2Proof.Machine.execStrikeTimerExpiry s
  | .select p args => Sys2Proof.Machine.execSelect p args s
  | .deselect p args => Sys2Proof.Machine.execDeselect p args s
  | .tie p args => Sys2Proof.Machine.execTie p args s
  | .tieWaitDeadline => Sys2Proof.Machine.execTieWaitDeadline s
  | .suspend p args => Sys2Proof.Machine.execSuspend p args s
  | .resume p args => Sys2Proof.Machine.execResume p args s
  | .retie p args => Sys2Proof.Machine.execRetie p args s
  | .abandon p args => Sys2Proof.Machine.execAbandon p args s
  | .mark p args => Sys2Proof.Machine.execMark p args s
  | .settle p args => Sys2Proof.Machine.execSettle p args s
  | .unsettle p args => Sys2Proof.Machine.execUnsettle p args s
  | .unstage p args => Sys2Proof.Machine.execUnstage p args s
  | .trim p args => Sys2Proof.Machine.execTrim p args s
  | .ident p args => Sys2Proof.Machine.execIdent p args s
  | .lines p args => Sys2Proof.Machine.execLines p args s
  | .line p args => Sys2Proof.Machine.execLine p args s
  | .profile p args => Sys2Proof.Machine.execProfile p args s
  | .spans p args => Sys2Proof.Machine.execSpans p args s
  | .run p args => Sys2Proof.Machine.execRun p args s
  | .queue p args => Sys2Proof.Machine.execQueue p args s
  | .settings p args => Sys2Proof.Machine.execSettings p args s
  | .events p args => Sys2Proof.Machine.execEvents p args s
  | .ack p args => Sys2Proof.Machine.execAck p args s
  | .mask p args => Sys2Proof.Machine.execMask p args s
  | .set p args => Sys2Proof.Machine.execSet p args s
  | .restart p args => Sys2Proof.Machine.execRestart p args s
  | .clearstore p args => Sys2Proof.Machine.execClearstore p args s
  | .powerOn => Sys2Proof.Machine.execPowerOn s
  | .supplyLoss => Sys2Proof.Machine.execSupplyLoss s
  | .resetInput => Sys2Proof.Machine.execResetInput s
  | .receiverLinkByte b => Sys2Proof.Machine.execReceiverLinkByte b s
  | .commandPortByte p b framingError => Sys2Proof.Machine.execCommandPortByte p b framingError s

end Sys2Proof.Machine
end

