-- ==== Sys2Proof/Machine/Step.lean ====
section
/-! DEFINITION. One step: the row at the front of the queue is taken; on an empty queue a millisecond of module time passes. -/
namespace Sys2Proof.Machine

/-- One step of the module. -/
def step (s : State) : Host.Outcome State Fault Refusal :=
  match s.pending with
  | [] => .next (idle s)
  | c :: rest => exec c { s with pending := rest }

/-- The state with the row that a word spells put at the front of its queue; no row gives bits, so the state is unchanged. -/
def State.withFetchWord (s : State) (nbits w : Nat) : State :=
  match decodeTableWord nbits w with
  | some c => { s with pending := c :: s.pending }
  | none => s

end Sys2Proof.Machine
end

