-- ==== Sys2Proof/Safety.lean ====
section
/-! DEFINITION. The laws of the manual that hold of every state the module can be in, as decidable predicates on states. -/
namespace Sys2Proof.Machine

/-! ## What statements about a command line speak of -/

/-- The row is the line that ends now, on a port that is not busy, while the module runs (R165, R181). -/
abbrev State.ready (s : State) (p : Port) (row : Instr) : Prop := s.running = true ∧ s.lineIs p row = true ∧ s.busy p = false

/-- The state in which nothing but the port has changed: its line is over, the row is in hand with its reply being sent, and the lapse
timer is stopped (R63, R165). -/
def State.answered (s : State) (p : Port) (row : Instr) (r : Reply) : State :=
  s.updPort p (fun q => { q with buffer := emptyBuffer, lapse := none, hand := .sending (some row) r })

/-- The reply OK with nothing further. -/
def okReply : Reply := .ok []

/-- The reply NO with a reason word and nothing further. -/
def noReply (r : Reason) : Reply := .no r []

/-! ## What statements about marks and writes speak of -/

/-- What of a port a change made elsewhere leaves: everything but its event set and how far a commit in flight has got. -/
abbrev PortState.keeps (q r : PortState) : Prop :=
  r.buffer = q.buffer ∧ r.hand = q.hand ∧ r.overrun = q.overrun ∧ r.claim = q.claim ∧ r.draft = q.draft ∧ r.lapse = q.lapse
    ∧ r.mask = q.mask ∧ r.commit.map (fun c => c.was) = q.commit.map (fun c => c.was)

/-- The event sets hold what they held, these kinds apart. -/
abbrev State.raisesOnly (s t : State) (ks : List EventKind) : Prop :=
  ∀ (p : Port) (k : EventKind), k ∉ ks → (k ∈ (t.port p).events ↔ k ∈ (s.port p).events)

/-- Apart from the store, the Re-check unit and the last drop nothing of the module has changed, and no event but these kinds is
raised. -/
abbrev State.keepsMachine (s t : State) (ks : List EventKind) : Prop :=
  t.powered = s.powered ∧ t.resetLow = s.resetLow ∧ t.time = s.time ∧ t.link = s.link ∧ t.chain = s.chain ∧ t.eval = s.eval ∧ t.pending = s.pending
    ∧ t.run = { s.run with lastDrop := t.run.lastDrop } ∧ (∀ p : Port, (s.port p).keeps (t.port p)) ∧ s.raisesOnly t ks

/-- A staged revision of a line hit, discarded by its mark, raises DROPPED and becomes the last drop, with reason STALE; where no line hit
has one, the last drop and DROPPED stand (R17, R152, R159). -/
abbrev State.notesDrop (s t : State) (hit : Line → Bool) : Prop :=
  let held := s.store.lines.find? (fun l => l.takesMarks && hit l && l.staged?.isSome)
  (∀ l, held = some l → t.run.lastDrop = some { id := l.id, reason := .stale } ∧ ∀ p : Port, .dropped ∈ (t.port p).events)
    ∧ (held = none → t.run.lastDrop = s.run.lastDrop ∧ ∀ p : Port, .dropped ∈ (t.port p).events ↔ .dropped ∈ (s.port p).events)

/-- A change reaches the port's commit in flight: through its draft, or through the stored line of the id it claims (R78). -/
abbrev PortState.reachedBy (q : PortState) (st : Store) (c : Change) : Prop :=
  ∃ id, q.claim = some id ∧ ((∃ d, q.draft = some d ∧ c.hitsDraft id d = true) ∨ ∃ l, st.line? id = some l ∧ c.hitsLine l = true)

/-- The Claim unit has recorded which commits in flight a change reaches, and no other (R78). -/
abbrev State.reaches (s t : State) (c : Change) : Prop :=
  ∀ (p : Port) (k : CommitRun), (s.port p).commit = some k →
    ∃ k', (t.port p).commit = some k' ∧ (k'.reached = true ↔ k.reached = true ∨ (s.port p).reachedBy s.store c)

/-- The lines have taken the marks of a change: every PLANNED or ACTIVE line it hits is STALE without a conflict or a staged revision,
the others stand; each line hit waits in the queue or for the scan, and a check of it in flight is to be discarded (R17, R83, R84). A
staged revision so discarded raises DROPPED and is the last drop, with reason STALE (R17, R159). -/
abbrev State.marked (s t : State) (hit : Line → Bool) : Prop :=
  t.store.lines = s.store.lines.map (fun l => if l.takesMarks && hit l then { l.setStaged none with status := .stale } else l)
    ∧ (∀ l ∈ s.store.lines, l.takesMarks = true → hit l = true →
        (l.id ∈ t.recheck.queue ∨ t.recheck.scanPending = true)
          ∧ (∀ f ∈ t.recheck.inFlight, f.id = l.id → f.discard = true))
    ∧ s.notesDrop t hit

/-- The state in which nothing but the port has changed: its commit is no longer in flight and the reply to it is being sent. -/
def State.commitAnswered (s : State) (p : Port) (r : Reply) : State :=
  s.updPort p (fun q => { q with commit := none, hand := .sending q.hand.command? r })

/-- The state in which nothing but the port has changed: its commit is written, the draft is empty, and OK, or OK STALE for a commit
that was reached, is being sent (R75 to R78). -/
def State.commitWritten (s : State) (p : Port) (reached : Bool) : State :=
  s.updPort p (fun q => { q with commit := none, draft := none,
                                 hand := .sending q.hand.command? (.ok (if reached then [.word "STALE"] else [])) })

/-- What a restart leaves (R181): the volatile state of every block as its table gives, over the store as it was, with the staged
revisions gone and a run under way SUSPENDED with reason POWER and retie required (R131). The odometer's reference levels are open
(log 6). -/
abbrev State.restartedTo (s t : State) : Prop :=
  t.powered = true ∧ t.resetLow = false ∧ t.time = 0 ∧ t.cab = PortState.reset ∧ t.plan = PortState.reset ∧ t.link = Link.reset ∧ t.run = RunUnit.reset
    ∧ t.eval = Evaluator.reset ∧ t.pending = s.pending ∧ t.store.stations = s.store.stations ∧ t.settings = s.settings
    ∧ t.store.lines = s.store.lines.map (fun l => { l with lifecycle := match l.lifecycle with
        | .active r _ => .active (if r.state = .armed then r else { r with state := .suspended .power, retie := true }) none
        | x => x })
    ∧ t.recheck = { queue := [], inFlight := none, scanPending := s.store.lines.any (fun l => l.status == .stale), scanPos := none,
                    again := false, backlog := s.store.lines.any (fun l => l.status == .stale) }
    ∧ t.chain.known = false ∧ t.chain.position = 0 ∧ t.chain.odoInvalid = 0
    ∧ (t.chain.endWarned = true ↔ ∃ l f, s.active? = some l ∧ s.furthest? = some f ∧ l.length - s.settings.endWarn ≤ f)

/-! ## The line table (R1, R13, R21) -/

/-- Ids are strictly ascending, so no two records share one (R1). -/
abbrev Store.idsAscending (st : Store) : Prop := (st.lines.map (fun l => l.id)).Pairwise (fun a b => a < b)

/-- Every id is from 1 to 999 (R1). -/
abbrev Store.idsInRange (st : Store) : Prop := ∀ l ∈ st.lines, 1 ≤ l.id ∧ l.id ≤ 999

/-- At most one line is ACTIVE (R13). -/
abbrev Store.oneActive (st : Store) : Prop := (st.lines.filter Line.isActive).length ≤ 1

/-- A claim slot that holds, holds an id from 1 to 999 (R59). -/
abbrev PortState.claimInRange (q : PortState) : Prop := ∀ id ∈ q.claim, 1 ≤ id ∧ id ≤ 999

/-- The line table of R1 and R13, with the claims that new lines take their ids from. -/
abbrev State.tableLaw (s : State) : Prop :=
  s.store.idsAscending ∧ s.store.idsInRange ∧ s.store.lines.length ≤ Config.maxLines ∧ s.store.oneActive
    ∧ s.cab.claimInRange ∧ s.plan.claimInRange

/-- The pool of R21: the slots held by the lines are no more than there are. With it stands what keeps it: one record for an id, and
one ACTIVE line. -/
abbrev State.poolLaw (s : State) : Prop := s.store.idsAscending ∧ s.store.oneActive ∧ s.store.heldSlots ≤ Config.poolSlots

/-! ## The forest (R18, R19) -/

/-- Every parent reference names a line of the table, and no line's level exceeds 3: the parent's parent, if there is one, has none
(R18). -/
abbrev Store.levelLaw (st : Store) : Prop :=
  ∀ l ∈ st.lines, ∀ p, l.parent? = some p →
    ∃ k, st.line? p = some k ∧ ∀ g, k.parent? = some g → ∃ m, st.line? g = some m ∧ m.parent? = none

/-- The parent of the ACTIVE line is COMPLETE (R19). -/
abbrev Store.activeParentLaw (st : Store) : Prop :=
  ∀ l ∈ st.lines, l.isActive = true → ∀ p k, l.parent? = some p → st.line? p = some k → k.lifecycle = .complete

/-- The law of the forest, with one record for an id. -/
abbrev Store.forestLaw (st : Store) : Prop := st.idsAscending ∧ st.levelLaw ∧ st.activeParentLaw

/-! ## Segments (R4, R7, R9) -/

/-- Chainages strictly ascending and not below 0 (R4). -/
abbrev ascending (ps : List Point) : Prop := ps.Pairwise (fun a b => a.chainage < b.chainage) ∧ ∀ a ∈ ps, 0 ≤ a.chainage

/-- No segment of the line has a closure part (R7). -/
abbrev Line.unentered (l : Line) : Prop := ∀ b ∈ l.profile, b.closure = none

/-- A list of points that a line may take as its profile: chainages in order, the last no less than 5,000 (R2, R4). -/
abbrev laidOut (ps : List Point) : Prop := ascending ps ∧ 5000 ≤ lengthOf ps

/-- The segments of a line: the current profile and a staged revision in order, of 5,000 mm or more; none entered before the line's run, nor
while F is unset; and F below the length, with every CLOSED segment ending at or below it (R2, R4, R7, R8, R150). -/
abbrev Line.segmentLaw (l : Line) : Prop :=
  laidOut l.points ∧ (∀ st ∈ l.staged?, laidOut st.profile) ∧ (l.lifecycle = .planned → l.unentered)
    ∧ ∀ r ∈ l.run?, (r.state = .armed → r.furthest = none) ∧ (r.furthest = none → l.unentered)
      ∧ ∀ f ∈ r.furthest, f < l.length ∧ ∀ (k : Nat) (b : Breakpoint) (c : Closure), l.profile[k]? = some b → b.closure = some c →
          c.state = .closed → ∃ e, l.profile[k + 1]? = some e ∧ e.point.chainage ≤ f

/-- A commit in flight that has passed ORDER has a draft in order, and one that has passed LENGTH a draft of 5,000 mm or more (R48,
R50). -/
abbrev PortState.passedLaw (q : PortState) : Prop :=
  ∀ c ∈ q.commit, ∀ id ∈ q.claim, ∀ d ∈ q.draft, c.check.failure = none →
    let made := (d.subject id).tests.take c.check.made
    (CheckTest.order ∈ made → ascending (present d.points)) ∧ (CheckTest.length ∈ made → 5000 ≤ lengthOf (present d.points))

/-- The CLOSED segments of a line stand in a later record of it: the breakpoint that begins each, with its closure part, and the
chainage and invert of the one that ends it (R9). -/
abbrev Line.closedStand (l m : Line) : Prop :=
  ∀ (k : Nat) (b e : Breakpoint) (c : Closure), l.profile[k]? = some b → b.closure = some c → c.state = .closed →
    l.profile[k + 1]? = some e → m.profile[k]? = some b ∧ (m.profile[k + 1]?).map (fun x => x.point) = some e.point

/-! ## Stations (R34) -/

/-- The collision law: no two IN_SERVICE stations have equal signatures under SIG_MASK (R34). -/
abbrev Store.collisionLaw (st : Store) : Prop := st.collidesUnder st.settings.sigMask = false

/-! ## The Re-check unit (R82, R90, R92) -/

/-- The queue holds at most 16 different ids; a pass runs only while scan-pending is set; and backlog stands as R92 gives: on from 12
entries or with scan-pending set, off at 4 entries or fewer with scan-pending clear. -/
abbrev Recheck.law (r : Recheck) : Prop :=
  r.queue.Nodup ∧ r.queue.length ≤ Config.queueEntries
    ∧ (r.scanPos.isSome = true → r.scanPending = true)
    ∧ (Config.backlogOn ≤ r.queue.length ∨ r.scanPending = true → r.backlog = true)
    ∧ (r.queue.length ≤ Config.backlogOff ∧ r.scanPending = false → r.backlog = false)

/-- The scan still has a line before it: scan-pending is set, and a pass under way is to be repeated or has not come to the line
(R90). -/
abbrev Recheck.scanAhead (r : Recheck) (id : Nat) : Prop :=
  r.scanPending = true ∧ ∀ pos ∈ r.scanPos, r.again = true ∨ pos < id

/-- The law of R85: every STALE line is queued, in flight with a result that will be written, or ahead of the scan, and every queued id
names a STALE line; a line in flight and queued at once has its result discarded (R84, R87). -/
abbrev State.coverLaw (s : State) : Prop :=
  (∀ l ∈ s.store.lines, l.status = .stale →
      l.id ∈ s.recheck.queue ∨ (∃ f ∈ s.recheck.inFlight, f.id = l.id ∧ f.discard = false) ∨ s.recheck.scanAhead l.id)
    ∧ (∀ id ∈ s.recheck.queue, ∃ l ∈ s.store.lines, l.id = id ∧ l.status = .stale)
    ∧ (∀ f ∈ s.recheck.inFlight, f.discard = false → f.id ∉ s.recheck.queue)

/-! ## Ports (R59, R63, R65, R163, R171) -/

/-- A set of event kinds as the Event unit keeps it: each kind at most once, in the order of the event table (R171). -/
abbrev kindsLaw (es : List EventKind) : Prop := es = EventKind.all.filter (fun k => es.contains k)

/-- An open draft: 64 breakpoint slots, 6 span slots, a window within 0..63, a cursor no further than the slot after the last
(R65, R67, R68). -/
abbrev Draft.law (d : Draft) : Prop :=
  d.points.length = Config.maxBreakpoints ∧ d.spans.length = Config.maxSpans ∧ d.first ≤ d.last ∧ d.last ≤ 63 ∧ d.cursor ≤ 64

/-- A commit in flight was taken of a free id, of a PLANNED line or of the ACTIVE line (R73, test 4). -/
abbrev PortState.commitLaw (q : PortState) : Prop :=
  ∀ c ∈ q.commit, c.was = none ∨ c.was = some .planned ∨ c.was = some .active

/-- What a port holds: a line of at most 160 characters, canonical event sets, a draft of the right shape and only under a claim, a
lapse timer only while a claim is held and no command is in hand, and a commit in flight of a line that takes commits (R63, R65, R73,
R163, R171). -/
abbrev PortState.law (q : PortState) : Prop :=
  q.buffer.chars.length ≤ Config.lineChars ∧ kindsLaw q.events ∧ kindsLaw q.mask
    ∧ (∀ d ∈ q.draft, d.law) ∧ (q.draft.isSome = true → q.claim.isSome = true)
    ∧ (q.lapse.isSome = true → q.claim.isSome = true ∧ q.hand = .idle) ∧ q.commitLaw

/-- The command in hand is the TIE or the RETIE whose reply waits. -/
def Hand.ties (k : TieKind) : Hand → Bool
  | .waiting (.tie .cab _) => k == .tie
  | .waiting (.retie .cab _) => k == .retie
  | _ => false

/-- The command in hand is a COMMIT of the port whose reply waits. -/
def Hand.commits (p : Port) : Hand → Bool
  | .waiting (.commit q _) => q == p
  | _ => false

/-- The command that a wait or a commit belongs to is still in hand (R73, R114, R119, R165). -/
abbrev State.handLaw (s : State) : Prop :=
  (∀ w ∈ s.run.wait, s.cab.hand.ties w.kind = true)
    ∧ (s.cab.commit.isSome = true → s.cab.hand.commits .cab = true)
    ∧ (s.plan.commit.isSome = true → s.plan.hand.commits .plan = true)

/-- The two ports' law: what each holds, that no id is held by both (R60), and the commands in hand. -/
abbrev State.portLaw (s : State) : Prop :=
  s.cab.law ∧ s.plan.law ∧ (∀ id ∈ s.cab.claim, s.plan.claim ≠ some id) ∧ s.handLaw

/-! ## The run (R98, R100, R110, R122, R133, R140) -/

/-- The run is SUSPENDED or HALTED. -/
def RunState.isStopped : RunState → Bool
  | .suspended _ => true
  | .halted _ => true
  | _ => false

/-- The chainage is known: CUTTING and COASTING, and SUSPENDED and HALTED unless retie is required (R98). -/
def RunContext.knows (r : RunContext) : Bool :=
  r.state == .cutting || r.state == .coasting || (r.state.isStopped && !r.retie)

/-- What a run context is with the volatile items beside it: the chainage known as R98 gives, retie required only while stopped, F
set exactly from TIE on (R100), the strike timer running exactly in CUTTING (R122), a tie wait only in ARMED for TIE and only stopped
for RETIE (R114, R119), the drive 0 unless CUTTING (R140). -/
abbrev State.runLawFor (s : State) (r : RunContext) : Prop :=
  s.chain.known = r.knows ∧ (r.retie = true → r.state.isStopped = true)
    ∧ (r.furthest.isSome = true ↔ r.state ≠ .armed)
    ∧ (s.run.timer.isSome = true ↔ r.state = .cutting)
    ∧ (∀ w ∈ s.run.wait, if w.kind = .tie then r.state = .armed else r.state.isStopped = true)
    ∧ (s.eval.drive ≠ 0 → r.state = .cutting)

/-- What an IDLE run leaves: chainage unknown, no timer, no wait, coast distance 0, an empty evaluator (R98, R110, R133). -/
abbrev State.idleLaw (s : State) : Prop :=
  s.chain.known = false ∧ s.run.timer = none ∧ s.run.wait = none ∧ s.run.coast = 0 ∧ s.eval = Evaluator.reset

/-- The run's law. -/
abbrev State.runLaw (s : State) : Prop := (∀ r ∈ s.context?, s.runLawFor r) ∧ (s.context? = none → s.idleLaw)

/-- A serving span is held exactly while the chainage is known (R134); the position is 0 while it is unknown (R98) and stays within
±2,400,000 mm (R97), and so do F, from 0 on (R100), and the chainage that a RETIE under way names (R119). -/
abbrev State.chainageLaw (s : State) : Prop :=
  s.eval.serving.isSome = s.chain.known ∧ (s.chain.known = false → s.chain.position = 0)
    ∧ (-Config.positionLimit ≤ s.chain.position ∧ s.chain.position ≤ Config.positionLimit)
    ∧ (∀ f ∈ s.furthest?, 0 ≤ f ∧ f ≤ 2400000) ∧ (∀ w ∈ s.run.wait, -2400000 ≤ w.chainage ∧ w.chainage ≤ 2400000)

/-- The drive level lies within ±1000 and the grade count within 0..50 (R133, R140). -/
abbrev Evaluator.law (e : Evaluator) : Prop := -1000 ≤ e.drive ∧ e.drive ≤ 1000 ∧ e.gradeCount ≤ Config.gradeCountTop

/-- While CUTTING or COASTING the chainage is not less than F − BACKUP (R126). -/
abbrev State.backupLaw (s : State) : Prop :=
  s.digging = true → ∀ f ∈ s.furthest?, f - s.settings.backup ≤ s.chainage

/-- A setting that takes a number holds one of its range (R176). -/
abbrev Settings.inRange (t : Settings) (n : SettingName) : Prop :=
  ∀ x ∈ n.range?, x.1 ≤ (t.get n).asNum ∧ (t.get n).asNum ≤ x.2

/-- Every setting lies in its range (R176). -/
abbrev Settings.law (t : Settings) : Prop := ∀ n ∈ SettingName.all, t.inRange n

/-- The law of R126 with what keeps it: the run's law, the hand's, the chainage's, one ACTIVE line, settings in range. -/
abbrev State.digLaw (s : State) : Prop :=
  s.store.idsAscending ∧ s.store.oneActive ∧ s.settings.law ∧ s.runLaw ∧ s.handLaw ∧ s.chainageLaw ∧ s.eval.law ∧ s.backupLaw

/-- The law of segments over the table, with what keeps it: the table's law, the ports', settings in range (R9). -/
abbrev State.closedLaw (s : State) : Prop :=
  s.tableLaw ∧ s.portLaw ∧ s.settings.law ∧ s.cab.passedLaw ∧ s.plan.passedLaw ∧ ∀ l ∈ s.store.lines, l.segmentLaw

/-! ## The backlog flag (R92) -/

/-- The backlog flag after its evaluation at a queue of `n` entries, with scan-pending as given (the table of R92). -/
def Recheck.backlogAt (r : Recheck) (n : Nat) (scanPending : Bool) : Bool :=
  if r.backlog then decide (4 < n) || scanPending else decide (12 ≤ n) || scanPending

/-! ## What statements about counts speak of (R95 to R102) -/

/-- A transition of the channel is a forward count under ODO_DECODE (the table of R95). -/
abbrev State.forwardBy (s : State) (ch : Channel) : Prop :=
  let v := (s.chain.levelA, s.chain.levelB)
  let m := s.settings.odoDecode
  (v = (false, false) ∧ ch = .a) ∨ (v = (true, false) ∧ ch = .b ∧ m = .x4) ∨ (v = (true, true) ∧ ch = .a ∧ m ≠ .x1)
    ∨ (v = (false, true) ∧ ch = .b ∧ m = .x4)

/-- A transition of the channel is a reverse count under ODO_DECODE (the table of R95). -/
abbrev State.reverseBy (s : State) (ch : Channel) : Prop :=
  let v := (s.chain.levelA, s.chain.levelB)
  let m := s.settings.odoDecode
  (v = (true, false) ∧ ch = .a) ∨ (v = (true, true) ∧ ch = .b ∧ m = .x4) ∨ (v = (false, true) ∧ ch = .a ∧ m ≠ .x1)
    ∨ (v = (false, false) ∧ ch = .b ∧ m = .x4)

/-- The run of the line digs with F at `f`, and a transition of the channel counts and brings the position to `p`, within its bounds, and
the chainage, which is known, to another value (R97, R98). -/
abbrev State.digsTo (s : State) (ch : Channel) (l : Line) (r : RunContext) (f p : Int) : Prop :=
  s.running = true ∧ s.active? = some l ∧ l.run? = some r ∧ (r.state = .cutting ∨ r.state = .coasting) ∧ r.furthest = some f
    ∧ s.chain.known = true
    ∧ (s.forwardBy ch ∧ p = s.chain.position + s.settings.odoScale ∨ s.reverseBy ch ∧ p = s.chain.position - s.settings.odoScale)
    ∧ -2400000000 ≤ p ∧ p ≤ 2400000000 ∧ Int.tdiv p 1000 ≠ s.chainage

/-- The state in which only the odometer has moved: the new levels are the reference, and the position is `p`. -/
def State.movedTo (s : State) (ch : Channel) (p : Int) : State :=
  { s with chain := { s.chain with levelA := if ch = .a then !s.chain.levelA else s.chain.levelA
                                   levelB := if ch = .b then !s.chain.levelB else s.chain.levelB
                                   position := p } }

/-- Where the span `k` that covers the new chainage of the state `s` leads a run that digs: to the state `b` with its run context `r'`. A
span that serves already changes nothing. A switch drops the handoff reference; in CUTTING a fresh last strike of the new station moves the
strike timer, and without one the run is COASTING, or HALTED at once where COAST_LIMIT is 0 (R123, R134, R135). -/
abbrev State.servesWith (s : State) (l : Line) (r : RunContext) (k : Nat) (b : State) (r' : RunContext) : Prop :=
  let switched : State := { s with eval := { s.eval with serving := some k, reference := none } }
  let timeout := s.settings.strikeTimeout.toNat
  let coasts : RunState → State := fun st => { switched.updRun (fun x => { x with state := st }) with
    run := { s.run with coast := 0, timer := none }
    eval := { s.eval with drive := 0, serving := some k, reference := none } }
  (s.eval.serving = some k ∧ b = s ∧ r' = r)
    ∨ (s.eval.serving ≠ some k ∧ r.state = .coasting ∧ b = switched ∧ r' = r)
    ∨ (s.eval.serving ≠ some k ∧ r.state = .cutting ∧ ∃ x, l.spans[k]? = some x
      ∧ ((∃ y, s.lastStrike? x.station = some y ∧ s.time - y.time ≤ timeout
          ∧ b = { switched with run := { s.run with timer := some (y.time + timeout) } } ∧ r' = r)
        ∨ ((∀ y, s.lastStrike? x.station = some y → timeout < s.time - y.time)
          ∧ ((0 < s.settings.coastLimit ∧ b = ((coasts .coasting).raise .run).raise .coast ∧ r' = { r with state := .coasting })
            ∨ (s.settings.coastLimit ≤ 0 ∧ b = ((((coasts (.halted .coast)).raise .run).raise .coast).raise .run).raise .halt
              ∧ r' = { r with state := .halted .coast })))))

/-- The breakpoints of the current profile lie outside the advance from `f` to `c`. -/
abbrev Line.noCrossing (l : Line) (f c : Int) : Prop := ∀ b ∈ l.profile, b.point.chainage ≤ f ∨ c < b.point.chainage

/-- The armed marks of the run lie outside the advance from `f` to `c`. -/
abbrev RunContext.noMark (r : RunContext) (f c : Int) : Prop :=
  ∀ m, r.mark1 = some m ∨ r.mark2 = some m → m.chainage ≤ f ∨ c < m.chainage

/-- The end warning has been given, or its point lies above `c`. -/
abbrev State.noWarning (s : State) (l : Line) (c : Int) : Prop := s.chain.endWarned = true ∨ c < l.length - s.settings.endWarn

/-- No point of the walk lies in the advance from `f` to `c` (R102). -/
abbrev State.noPoint (s : State) (l : Line) (r : RunContext) (f c : Int) : Prop :=
  c < l.length ∧ l.noCrossing f c ∧ r.noMark f c ∧ s.noWarning l c

/-- The profile in which a segment reaches its new F: each breakpoint stands, and each closure part with it, but that an OPEN one is
CLOSED where its segment's end plus BACKUP is at or below the new F (R129) and takes the advance that lies in it, in COASTING (R145). -/
abbrev segmentsReach (bs cs : List Breakpoint) (backup f c : Int) (coasting : Bool) : Prop :=
  cs.length = bs.length ∧ ∀ (i : Nat) (b d : Breakpoint), bs[i]? = some b → cs[i]? = some d → d.point = b.point
    ∧ (b.closure = none → d.closure = none)
    ∧ ∀ k, b.closure = some k → (k.state = .closed → d.closure = some k)
      ∧ ∀ e, bs[i + 1]? = some e → k.state = .opened →
        d.closure = some { k with
          state := if e.point.chainage + backup ≤ c then .closed else .opened
          coasted := if coasting then k.coasted + max 0 (min c e.point.chainage - max f b.point.chainage) else k.coasted }

/-- F is handed on at `c`: the ACTIVE line's profile is what the walk left of it, with the segments that reach it (R100, R129, R145). -/
abbrev State.digsOn (s t : State) (bs : List Breakpoint) (f c : Int) (coasting : Bool) : Prop :=
  t.furthest? = some c ∧ ∃ k, t.active? = some k ∧ segmentsReach bs k.profile s.settings.backup f c coasting

/-- The points that an advance of F from `f` meets, each alone in its advance: what each leads to from the state `s` before the advance, in
which the line has the run context `r` with the new chainage in force and its span serving; `coasting` says that the advance is by a count
taken in COASTING. `leads P` says that the machine goes on to a state of which `P` holds (R102 to R107, R128 to R130, R145, R156 to R158). -/
abbrev State.walkMeets (s : State) (l : Line) (r : RunContext) (f : Int) (coasting : Bool) (leads : (State → Prop) → Prop) : Prop :=
  let c := s.chainage
  let coast := if coasting then s.run.coast + (c - f) else s.run.coast
  let onward : RunState := if coasting ∧ s.settings.coastLimit ≤ coast then .halted .coast else r.state
  let raised := fun (t : State) (e : EventKind) => ∀ q : Port, e ∈ (t.port q).events
  -- breakpoint crossings (R103, R128, R156 to R158)
  (∀ (k : Nat) (b : Breakpoint), l.profile[k]? = some b → 0 < k → k + 1 < l.profile.length → f < b.point.chainage →
    b.point.chainage ≤ c → (∀ j a, j ≠ k → l.profile[j]? = some a → a.point.chainage ≤ f ∨ c < a.point.chainage) → c < l.length →
    r.noMark f c → s.noWarning l c →
    let entered := updNth k (fun b =>
      { b with closure := some { state := .opened, worst := 0, edge := false, grade := false, coasted := 0 } }) l.profile
    let applies := ∃ g, l.staged? = some g ∧ g.settled = true
      ∧ meetsFreeze s.store l (some b.point.chainage) g.profile g.spans = true
    (¬applies → leads (fun t => s.digsOn t entered f c coasting ∧ t.run.coast = coast ∧ t.chain = s.chain
      ∧ t.context? = some { r with furthest := some c, state := onward }
      ∧ (l.staged? = none → t.staged? = none ∧ t.run.lastDrop = s.run.lastDrop)
      ∧ (∀ g, l.staged? = some g → g.settled = false → t.staged? = some g ∧ t.run.lastDrop = s.run.lastDrop ∧ raised t .waiting)
      ∧ (∀ g, l.staged? = some g → g.settled = true →
        t.staged? = none ∧ t.run.lastDrop = some { id := l.id, reason := .frozen } ∧ raised t .dropped)))
    ∧ (∀ g, l.staged? = some g → g.settled = true → meetsFreeze s.store l (some b.point.chainage) g.profile g.spans = true →
      (∀ q ∈ g.profile, q.chainage ≤ b.point.chainage ∨ c < q.chainage) → c < lengthOf g.profile →
      (let warnAt := lengthOf g.profile - s.settings.endWarn
       lengthOf g.profile = l.length ∨ c < warnAt ∨ warnAt ≤ b.point.chainage) →
      s.marksLine (.parent l.id) l = false →
      leads (fun t => s.digsOn t
          (g.profile.zipIdx.map (fun e => { point := e.1, closure := (entered[e.2]?).bind (fun b => b.closure) })) f c coasting
        ∧ (∃ m, t.active? = some m ∧ m.id = l.id ∧ m.points = g.profile ∧ m.spans = g.spans ∧ m.revision = l.revision + 1
          ∧ m.staged? = none ∧ m.status = if l.status = .checked then .checked else .stale)
        ∧ t.eval.serving = some (spanIndex g.spans c) ∧ t.run.lastDrop = s.run.lastDrop ∧ raised t .revised
        ∧ t.chain = { s.chain with endWarned := s.chain.endWarned
            && !(lengthOf g.profile != l.length && decide (b.point.chainage < lengthOf g.profile - s.settings.endWarn)) }
        ∧ ∀ q : Port, .endnear ∈ (t.port q).events ↔ .endnear ∈ (s.port q).events)))
  -- marks (R104, R105)
  ∧ (∀ (first : Bool) (m : Mark), (if first then r.mark1 else r.mark2) = some m → f < m.chainage → m.chainage ≤ c →
    (∀ o, (if first then r.mark2 else r.mark1) = some o → o.chainage ≤ f ∨ c < o.chainage) → c < l.length → l.noCrossing f c →
    s.noWarning l c →
    leads (fun t => s.digsOn t l.profile f c coasting ∧ t.run.coast = coast ∧ t.chain = s.chain
      ∧ t.context? = some { r with
          furthest := some c
          mark1 := if first then none else r.mark1
          mark2 := if first then r.mark2 else none
          state := if m.suspends ∧ (r.state = .cutting ∨ r.state = .coasting) then .suspended .mark else onward }
      ∧ raised t .mark
      ∧ (m.suspends = true → t.permit = false ∧ t.eval.drive = 0 ∧ t.run.timer = none ∧ raised t .run)))
  -- the end warning (R107)
  ∧ (s.chain.endWarned = false → l.length - s.settings.endWarn ≤ c → c < l.length → l.noCrossing f c → r.noMark f c →
    leads (fun t => s.digsOn t l.profile f c coasting ∧ t.run.coast = coast
      ∧ t.chain = { s.chain with endWarned := true }
      ∧ t.context? = some { r with furthest := some c, state := onward } ∧ raised t .endnear))
  -- completion (R130)
  ∧ (f < l.length → l.length ≤ c →
    (∀ (k : Nat) (b : Breakpoint), l.profile[k]? = some b → k + 1 < l.profile.length → b.point.chainage ≤ f ∨ c < b.point.chainage) →
    r.noMark f c →
    leads (fun t => t.context? = none
      ∧ t.store.lines = s.store.lines.map (fun k =>
          if k.isActive then { k with lifecycle := .complete, profile := k.profile.map (fun b =>
            { b with closure := b.closure.map (fun c => { c with state := .closed }) }) }
          else k)
      ∧ t.chain.known = false ∧ t.chain.position = 0
      ∧ t.run = { coast := 0, timer := none, wait := none,
                  lastDrop := if l.staged?.isSome then some { id := l.id, reason := .complete } else s.run.lastDrop }
      ∧ t.eval = { serving := none, gradeCount := 0, gradeFlag := false, drive := 0, reference := none } ∧ t.permit = true
      ∧ raised t .run ∧ raised t .done ∧ (l.staged? ≠ none → raised t .dropped)
      ∧ ((∃ b ∈ l.profile, ∃ x, b.closure = some x ∧ x.state = .opened) → raised t .close)
      ∧ (s.chain.endWarned = false → 0 ≤ s.settings.endWarn → t.chain.endWarned = true ∧ raised t .endnear)))

end Sys2Proof.Machine
end

