-- ==== Sys2Proof/WellFormed.lean ====
section
/-! DEFINITION. Which rows can happen as they are written: the words of a command line are words and fit a line, and the row is
the one they name; COMMAND_PORT_BYTE is a byte other than LF. -/
namespace Sys2Proof

/-- A word of a line: not empty, and of the visible characters 33 to 126 (R163). -/
def goodWord (w : Text) : Bool := !w.isEmpty && w.all (fun c => decide (33 ≤ c.toNat ∧ c.toNat ≤ 126))

/-- The row's words are words, at least one, and with single spaces they fit a line of 160 characters (R163). -/
def lineFits (i : Instr) : Bool :=
  match i.words with
  | some (_, ws) => !ws.isEmpty && ws.all goodWord && decide ((joinWords ws).length ≤ Config.lineChars)
  | none => false

/-- The word is a keyword of the table. -/
def namedIn (rows : List (String × (Port → List Text → Instr))) (w : Text) : Bool := (findRow rows w).isSome

/-- The words name no command (R164, log 11). -/
def namesNoCommand (ws : List Text) : Bool :=
  match ws with
  | [] => false
  | c :: rest =>
    if isKeyword "STATION" c then false
    else if isKeyword "HEAD" c then !(rest.head?.any (namedIn headFields))
    else if isKeyword "ZERO" c then !(rest.head?.any (isKeyword "COUNTERS"))
    else !(namedIn plainCommands c)

/-- The row can happen as it is written. -/
def WellFormed (i : Instr) : Bool :=
  match i with
  | .commandLineBad _ => true
  | .emptyLine _ => true
  | .unknownCommand p ws => lineFits (.unknownCommand p ws) && namesNoCommand ws
  | .lineWhileBusy _ => true
  | .replySent _ => true
  | .claim p args => lineFits (.claim p args)
  | .release p args => lineFits (.release p args)
  | .claimLapseExpiry _ => true
  | .openDraft p args => lineFits (.openDraft p args)
  | .window p args => lineFits (.window p args)
  | .put p args => lineFits (.put p args)
  | .more p args => lineFits (.more p args)
  | .cut p args => lineFits (.cut p args)
  | .span p args => lineFits (.span p args)
  | .headParent p args => lineFits (.headParent p args)
  | .headJunction p args => lineFits (.headJunction p args)
  | .headLabel p args => lineFits (.headLabel p args)
  | .discard p args => lineFits (.discard p args)
  | .commit p args => lineFits (.commit p args)
  | .commitCompletion _ => true
  | .retire p args => lineFits (.retire p args)
  | .recheck p args => lineFits (.recheck p args)
  | .checkStart => true
  | .recheckCompletion => true
  | .stationDefine p args => lineFits (.stationDefine p args) && !args.isEmpty
  | .stationPlane p args => lineFits (.stationPlane p args) && !args.isEmpty
  | .stationWithdraw p args => lineFits (.stationWithdraw p args) && !args.isEmpty
  | .stationRestore p args => lineFits (.stationRestore p args) && !args.isEmpty
  | .stationForget p args => lineFits (.stationForget p args) && !args.isEmpty
  | .stationRead p args => lineFits (.stationRead p args) && !((args.drop 1).head?.any (namedIn stationVerbs))
  | .counters p args => lineFits (.counters p args)
  | .zeroCounters p args => lineFits (.zeroCounters p args)
  | .frameComplete _ _ _ _ _ => true
  | .frameFramingError => true
  | .frameGapTimeout => true
  | .odoValidTransition _ => true
  | .odoInvalidTransition => true
  | .strikeTimerExpiry => true
  | .select p args => lineFits (.select p args)
  | .deselect p args => lineFits (.deselect p args)
  | .tie p args => lineFits (.tie p args)
  | .tieWaitDeadline => true
  | .suspend p args => lineFits (.suspend p args)
  | .resume p args => lineFits (.resume p args)
  | .retie p args => lineFits (.retie p args)
  | .abandon p args => lineFits (.abandon p args)
  | .mark p args => lineFits (.mark p args)
  | .settle p args => lineFits (.settle p args)
  | .unsettle p args => lineFits (.unsettle p args)
  | .unstage p args => lineFits (.unstage p args)
  | .trim p args => lineFits (.trim p args)
  | .ident p args => lineFits (.ident p args)
  | .lines p args => lineFits (.lines p args)
  | .line p args => lineFits (.line p args)
  | .profile p args => lineFits (.profile p args)
  | .spans p args => lineFits (.spans p args)
  | .run p args => lineFits (.run p args)
  | .queue p args => lineFits (.queue p args)
  | .settings p args => lineFits (.settings p args)
  | .events p args => lineFits (.events p args)
  | .ack p args => lineFits (.ack p args)
  | .mask p args => lineFits (.mask p args)
  | .set p args => lineFits (.set p args)
  | .restart p args => lineFits (.restart p args)
  | .clearstore p args => lineFits (.clearstore p args)
  | .powerOn => true
  | .supplyLoss => true
  | .resetInput => true
  | .receiverLinkByte _ => true
  | .commandPortByte _ b framingError => framingError || b != 10

end Sys2Proof
end

