-- ==== Sys2Proof/Certificates/Slice0/Obligations.lean ====
section
/-! DEFINITION. The statements for the provers. -/
open Sys2Proof Sys2Proof.Machine

/-! ## The step -/

/-- For every row at the front of the queue, a step is that row's effect on the state with the rest of the queue. -/
def Obligations.StepRunsTheFrontRow : Prop :=
  ∀ (c : Instr) (rest : List Instr) (s : State),
    step { s with pending := c :: rest } = exec c { s with pending := rest }

/-- Every row answers a next state, never a fault or a refusal, and leaves the queue as it is. That a row put to a state that does
not allow it still takes a next state is the model's choice (log 3). -/
def Obligations.EveryRowAnswersANextState : Prop :=
  ∀ (c : Instr) (s : State), ∃ t : State, exec c s = .next t ∧ t.pending = s.pending

/-- On an empty queue a step is a millisecond of module time (log 1): with no timer due, the clock alone moves; without power, or while
RESET is held low, nothing does. -/
def Obligations.EmptyQueueTicksTheClock : Prop :=
  ∀ s : State, s.pending = [] →
    (s.running = false → step s = .next s)
      ∧ (s.running = true → s.timerDue = false → s.waitDue = false → s.lapseDue .cab = false → s.lapseDue .plan = false →
          s.gapDue = false → step s = .next { s with time := s.time + 1 })

/-! ## Reset -/

/-- What the manual gives a module leaving the factory, at the end of its first power-on (log 24), and the laws that every step
keeps, which hold there. -/
def Obligations.ResetHoldsFactoryContentsAndTheLaws : Prop :=
  State.reset.store.lines = [] ∧ State.reset.store.freeSlots = 1536
    ∧ (∀ n : StationId, State.reset.store.stations.get n = .undefined ∧ State.reset.link.live.get n = { last := none, accepted := 0 })
    ∧ State.reset.settings =
        { minFall := 1000, junctionDrop := 50, mast := 1900, clearBand := 80, odoScale := 2500,
          odoDecode := .x4, sigMask := 255, strikeTimeout := 800, backup := 1500, handoffLen := 2000, freezeLead := 8000,
          gradeTol := 20, gradeCount := 5, gradeEffect := .halt, coastLimit := 3000, gain := 20, deadband := 3, slew := 200,
          tieTol := 15, handoffTol := 25, trimRamp := 5000, endWarn := 5000, claimLapse := 300 }
    ∧ (∀ p : Port, (State.reset.port p).events = [.start] ∧ (State.reset.port p).mask = [] ∧ (State.reset.port p).hand = .idle
        ∧ (State.reset.port p).claim = none ∧ (State.reset.port p).draft = none ∧ (State.reset.port p).overrun = false
        ∧ (State.reset.port p).buffer = { chars := [], bad := false, tooLong := false }
        ∧ State.reset.attention p = true)
    ∧ State.reset.recheck = { queue := [], inFlight := none, scanPending := false, scanPos := none, again := false, backlog := false }
    ∧ State.reset.link.framing = .hunting ∧ State.reset.link.bad = 0 ∧ State.reset.link.fault = 0
    ∧ State.reset.link.unmatched = 0 ∧ State.reset.link.foreign = 0 ∧ State.reset.chain.odoInvalid = 0
    ∧ State.reset.chain.known = false ∧ State.reset.chain.position = 0 ∧ State.reset.context? = none ∧ State.reset.permit = true
    ∧ State.reset.run = { coast := 0, timer := none, wait := none, lastDrop := none }
    ∧ State.reset.eval = { serving := none, gradeCount := 0, gradeFlag := false, drive := 0, reference := none }
    ∧ State.reset.time = 0 ∧ State.reset.pending = [] ∧ State.reset.powered = true ∧ State.reset.resetLow = false
    ∧ State.reset.tableLaw ∧ State.reset.poolLaw ∧ State.reset.store.collisionLaw ∧ State.reset.recheck.law ∧ State.reset.coverLaw
    ∧ State.reset.portLaw ∧ State.reset.digLaw ∧ State.reset.store.forestLaw ∧ State.reset.closedLaw

/-! ## Laws that every step keeps -/

/-- A step keeps the table: ids ascending and in range, at most 40 records, at most one ACTIVE line. -/
def Obligations.StepKeepsTheLineTable : Prop := ∀ s t : State, s.tableLaw → step s = .next t → t.tableLaw

/-- A step keeps the pool: with one record for an id and at most one ACTIVE line, the profiles and staged revisions of all lines hold no more
than the 1,536 slots there are. -/
def Obligations.StepKeepsThePool : Prop := ∀ s t : State, s.poolLaw → step s = .next t → t.poolLaw

/-- A step keeps the collision law: no two IN_SERVICE stations come to have equal signatures under SIG_MASK. -/
def Obligations.StepKeepsSignaturesApart : Prop :=
  ∀ s t : State, s.store.collisionLaw → step s = .next t → t.store.collisionLaw

/-- A step keeps the queue, the scan and backlog as R82, R90 and R92 give; and with the table in order it keeps the law of R85: every
STALE line is queued, in flight or still ahead of the scan, and every queued id names a STALE line. -/
def Obligations.StepKeepsTheRecheckLaw : Prop :=
  ∀ s t : State, s.recheck.law → step s = .next t →
    t.recheck.law ∧ (s.tableLaw → s.coverLaw → t.coverLaw)

/-- A step keeps what the ports hold in shape, no id claimed by both, every commit in flight one of a free id, a PLANNED line or the
ACTIVE line, and the command in hand of a wait or a commit under way. -/
def Obligations.StepKeepsThePortLaw : Prop := ∀ s t : State, s.portLaw → step s = .next t → t.portLaw

/-- A step keeps the run's laws, the chainage law among them: while CUTTING or COASTING the chainage is not less than F − BACKUP. -/
def Obligations.StepKeepsTheDigLaw : Prop := ∀ s t : State, s.digLaw → step s = .next t → t.digLaw

/-- A COMPLETE or ABANDONED line is not altered by any step, its check status apart: it stands as it was or it is removed. Of a commit
in flight it is supposed that it was taken of a line that takes commits, a law of the ports that every step keeps. -/
def Obligations.LaidLinesStand : Prop :=
  ∀ s t : State, s.store.idsAscending → s.cab.commitLaw → s.plan.commitLaw → step s = .next t →
    ∀ l ∈ s.store.lines, l.lifecycle = .complete ∨ l.lifecycle = .abandoned →
      t.line? l.id = none ∨ ∃ c : CheckStatus, t.line? l.id = some { l with status := c }

/-- A step keeps the forest: every parent is a line of the table, no level exceeds 3, and the parent of the ACTIVE line is COMPLETE. -/
def Obligations.StepKeepsTheForest : Prop := ∀ s t : State, s.store.forestLaw → step s = .next t → t.store.forestLaw

/-- A step keeps the segments of every line in order, its length at 5,000 or more and F of the ACTIVE line below the length, and changes
no CLOSED segment: until the line is removed, the breakpoint that
begins it, its closure part, and the breakpoint that ends it stand. -/
def Obligations.StepKeepsClosedSegments : Prop :=
  ∀ s t : State, s.closedLaw → step s = .next t →
    t.closedLaw ∧ ∀ l ∈ s.store.lines, t.line? l.id = none ∨ ∃ m, t.line? l.id = some m ∧ l.closedStand m

/-! ## Command lines -/

/-- The text of a well-formed command line is read back as the same row. How a HEAD, ZERO COUNTERS or STATION line is
named by its words is the model's reading (log 11). -/
def Obligations.LineTextReadsBack : Prop :=
  ∀ (i : Instr) (p : Port) (b : LineBuffer), WellFormed i = true → encodeLine i = some (p, b) → decodeLine p b = i

/-- A byte other than LF on a command port: a framing error or a byte that is neither CR nor a character marks the line bad, CR is
discarded, and the 161st character marks the line over-length. That a framing error marks the line bad whatever the byte, LF
and CR included, is the model's reading (log 12). -/
def Obligations.PortByteBuildsTheLine : Prop :=
  ∀ (p : Port) (b : Byte) (framingError : Bool) (s : State), s.running = true → framingError = true ∨ b ≠ 10 →
    exec (.commandPortByte p b framingError) s = .next (s.updPort p (fun q =>
      { q with buffer :=
          if framingError = true then { q.buffer with bad := true }
          else if b = 13 then q.buffer
          else if b.toNat < 32 ∨ 126 < b.toNat then { q.buffer with bad := true }
          else if q.buffer.chars.length < 160 then { q.buffer with chars := q.buffer.chars ++ [Char.ofNat b.toNat] }
          else { q.buffer with tooLong := true } }))

/-- A bad or over-length line and a line that names no command are refused SYNTAX, the port being busy while the answer to a bad line is
sent (log 10); a line without characters changes nothing but the buffer. A line whose LF is taken on a busy port is discarded unexamined
and sets the overrun flag; nothing else changes. -/
def Obligations.LinesNotTaken : Prop :=
  (∀ (p : Port) (s : State), s.ready p (.commandLineBad p) →
      exec (.commandLineBad p) s = .next (s.updPort p (fun q =>
        { q with buffer := emptyBuffer, lapse := none, hand := .sending none (noReply .syn) })))
    ∧ (∀ (p : Port) (ws : List Text) (s : State), s.ready p (.unknownCommand p ws) →
      exec (.unknownCommand p ws) s = .next (s.answered p (.unknownCommand p ws) (noReply .syn)))
    ∧ (∀ (p : Port) (s : State), s.running = true → s.lineIs p (.emptyLine p) = true →
      exec (.emptyLine p) s = .next (s.updPort p (fun q => { q with buffer := emptyBuffer })))
    ∧ (∀ (p : Port) (s : State), s.running = true → s.busy p = true →
      ((s.port p).buffer = emptyBuffer ∨ decodeLine p (s.port p).buffer ≠ .emptyLine p →
        exec (.lineWhileBusy p) s = .next (s.updPort p (fun q => { q with buffer := emptyBuffer, overrun := true })))
      ∧ (∀ i : Instr, i = .commandLineBad p ∨ (∃ ws, i.words = some (p, ws)) → s.lineIs p i = true →
        exec i s = .next (s.updPort p (fun q => { q with buffer := emptyBuffer, overrun := true }))))

/-- The end of a reply other than RESTART's OK: with overrun clear the port is no longer busy and the lapse timer starts again while a
claim is held; with overrun set NO OVERRUN follows at once. The lapse timer running out empties the slot and the draft and raises LAPSE
on that port alone; before its deadline (log 8) the row does nothing. -/
def Obligations.ReplyEndsAndClaimLapses : Prop :=
  (∀ (p : Port) (c : Option Instr) (r : Reply) (s : State), s.running = true → (s.port p).hand = .sending c r →
      restartsAfter c r = false →
      ((s.port p).overrun = false →
        exec (.replySent p) s = .next (s.updPort p (fun q =>
          { q with hand := .idle,
                   lapse := if q.claim.isSome then some (s.time + (s.settings.claimLapse * 1000).toNat) else none })))
      ∧ ((s.port p).overrun = true →
        exec (.replySent p) s = .next (s.updPort p (fun q =>
          { q with hand := .sending none (noReply .overrun), overrun := false, lapse := none }))))
    ∧ (∀ (p : Port) (d : Nat) (s : State), s.running = true → (s.port p).lapse = some d →
      (d ≤ s.time → exec (.claimLapseExpiry p) s = .next (s.updPort p (fun q =>
        { q with claim := none, draft := none, lapse := none, events := setKind .lapse q.events })))
      ∧ (s.time < d → exec (.claimLapseExpiry p) s = .next s))

/-! ## Claims and drafts -/

/-- CLAIM of an id in range: HELD by the other port, STATE over another claim of this port, OK on the id already held, else the slot
holds the id with an empty draft, and FREE says that no line has it. -/
def Obligations.ClaimTakesTheId : Prop :=
  ∀ (p : Port) (w : Text) (n : Int) (s : State), s.ready p (.claim p [w]) → number? w = some n → 1 ≤ n → n ≤ 999 →
    ((s.port (otherPort p)).claim = some n.toNat →
      exec (.claim p [w]) s = .next (s.answered p (.claim p [w]) (.no .held [portField (otherPort p)])))
    ∧ ((s.port (otherPort p)).claim ≠ some n.toNat → ∀ k : Nat, (s.port p).claim = some k → k ≠ n.toNat →
      exec (.claim p [w]) s = .next (s.answered p (.claim p [w]) (noReply .state)))
    ∧ ((s.port (otherPort p)).claim ≠ some n.toNat → (s.port p).claim = some n.toNat →
      exec (.claim p [w]) s = .next (s.answered p (.claim p [w]) okReply))
    ∧ ((s.port (otherPort p)).claim ≠ some n.toNat → (s.port p).claim = none →
      exec (.claim p [w]) s = .next ((s.answered p (.claim p [w])
        (if (s.line? n.toNat).isSome then okReply else .ok [.word "FREE"])).updPort p
          (fun q => { q with claim := some n.toNat, draft := none })))

/-- RELEASE, refused SYNTAX for any argument and NOCLAIM on an empty slot, empties the slot, the draft and the lapse timer. DISCARD, refused
NOCLAIM on an empty slot and NODRAFT without a draft, empties the draft and keeps the claim. Nothing else changes. -/
def Obligations.ReleaseAndDiscardEmpty : Prop :=
  (∀ (p : Port) (args : List Text) (s : State), s.ready p (.release p args) →
      (args ≠ [] → exec (.release p args) s = .next (s.answered p (.release p args) (noReply .syn)))
      ∧ (args = [] → (s.port p).claim = none → exec (.release p args) s = .next (s.answered p (.release p args) (noReply .noclaim)))
      ∧ (args = [] → (s.port p).claim ≠ none → exec (.release p args) s = .next ((s.answered p (.release p args) okReply).updPort p
          (fun q => { q with claim := none, draft := none, lapse := none }))))
    ∧ (∀ (p : Port) (s : State), s.ready p (.discard p []) →
      ((s.port p).claim = none → exec (.discard p []) s = .next (s.answered p (.discard p []) (noReply .noclaim)))
      ∧ ((s.port p).claim ≠ none → (s.port p).draft = none →
        exec (.discard p []) s = .next (s.answered p (.discard p []) (noReply .nodraft)))
      ∧ ((s.port p).claim ≠ none → (s.port p).draft ≠ none →
        exec (.discard p []) s = .next ((s.answered p (.discard p []) okReply).updPort p (fun q => { q with draft := none }))))

/-- OPEN fills the draft: every slot absent for a free id; the staged revision of the line if it has one, else its current lists, with
the line's header and base revision. -/
def Obligations.OpenFillsTheDraft : Prop :=
  ∀ (p : Port) (id : Nat) (s : State), s.ready p (.openDraft p []) → (s.port p).claim = some id →
    exec (.openDraft p []) s = .next ((s.answered p (.openDraft p [])
      (match s.line? id with
      | none => .ok [.num 0, .num 0, .word "NONE"]
      | some l => match l.staged? with
        | none => .ok [natField (l.points.take 64).length, natField (l.spans.take 6).length, countField l.revision]
        | some g => .ok [natField (g.profile.take 64).length, natField (g.spans.take 6).length, countField g.base])).updPort p
      (fun q => { q with draft := some (match s.line? id with
        | none =>
          { base := none, parent := none, junction := none, label := none, points := List.replicate 64 none,
            spans := List.replicate 6 none, first := 0, last := 63, cursor := 0 }
        | some l => match l.staged? with
          | none =>
            { base := some l.revision, parent := l.parent?, junction := l.outlet.map (fun o => o.junction), label := l.label,
              points := fillSlots 64 l.points, spans := fillSlots 6 l.spans, first := 0, last := 63, cursor := 0 }
          | some g =>
            { base := some g.base, parent := l.parent?, junction := l.outlet.map (fun o => o.junction), label := l.label,
              points := fillSlots 64 g.profile, spans := fillSlots 6 g.spans, first := 0, last := 63, cursor := 0 }) }))

/-- A draft command with good words needs a claim and an open draft; OPEN and RETIRE need a claim. -/
def Obligations.DraftCommandsNeedADraft : Prop :=
  (∀ (p : Port) (i : Instr) (s : State),
    (∃ a b, i = .window p [a, b] ∧ (number? a).isSome ∧ (number? b).isSome)
      ∨ (∃ args, i = .put p args ∧ (putPairs? args).isSome) ∨ (∃ args, i = .more p args ∧ (putPairs? args).isSome)
      ∨ (∃ a, i = .cut p [a] ∧ (number? a).isSome) ∨ (∃ args, i = .span p args ∧ (spanForm? args).isSome)
      ∨ (∃ args, i = .headParent p args ∧ (headArg? args).isSome) ∨ (∃ args, i = .headJunction p args ∧ (headArg? args).isSome)
      ∨ (∃ args, i = .headLabel p args ∧ labelArg args ≠ .bad) ∨ i = .discard p [] ∨ i = .commit p [] →
    s.ready p i →
    ((s.port p).claim = none → exec i s = .next (s.answered p i (noReply .noclaim)))
      ∧ ((s.port p).claim ≠ none → (s.port p).draft = none → exec i s = .next (s.answered p i (noReply .nodraft))))
    ∧ ∀ (p : Port) (i : Instr) (s : State), i = .openDraft p [] ∨ i = .retire p [] → s.ready p i → (s.port p).claim = none →
      exec i s = .next (s.answered p i (noReply .noclaim))

/-- WINDOW sets the window and puts the cursor at its first index; an index outside 0..63, or a first above last, is RANGE. CUT makes the
slots from its index on absent, replies how many of them were present, and leaves window, cursor, spans and header; an index outside 0..63
is RANGE. -/
def Obligations.WindowAndCut : Prop :=
  (∀ (p : Port) (wa wb : Text) (a b : Int) (d : Draft) (s : State), s.ready p (.window p [wa, wb]) → number? wa = some a →
      number? wb = some b → (s.port p).claim ≠ none → (s.port p).draft = some d →
      exec (.window p [wa, wb]) s = .next
        (if 0 ≤ a ∧ a ≤ b ∧ b ≤ 63 then
          (s.answered p (.window p [wa, wb]) okReply).updPort p (fun q =>
            { q with draft := some { d with first := a.toNat, last := b.toNat, cursor := a.toNat } })
        else s.answered p (.window p [wa, wb]) (noReply .range)))
    ∧ (∀ (p : Port) (w : Text) (n : Int) (d : Draft) (s : State), s.ready p (.cut p [w]) → number? w = some n →
      (s.port p).claim ≠ none → (s.port p).draft = some d →
      (¬(0 ≤ n ∧ n ≤ 63) → exec (.cut p [w]) s = .next (s.answered p (.cut p [w]) (noReply .range)))
      ∧ (0 ≤ n → n ≤ 63 → ∃ pts : List (Option Point),
        exec (.cut p [w]) s = .next ((s.answered p (.cut p [w])
            (.ok [natField ((d.points.drop n.toNat).filter Option.isSome).length])).updPort p
              (fun q => { q with draft := some { d with points := pts } }))
        ∧ pts.length = d.points.length
        ∧ (∀ k : Nat, k < n.toNat → pts[k]? = d.points[k]?) ∧ (∀ k : Nat, n.toNat ≤ k → k < d.points.length → pts[k]? = some none)))

/-- PUT writes its 1 to 8 pairs into consecutive slots from the window's first index, MORE from the cursor, stopping at the window's last
index: slot k takes pair k less the start, every other slot is left, and the cursor is one past the last slot written. A value outside its
range is RANGE with nothing written; words that are not 1 to 8 pairs of numbers are SYNTAX. -/
def Obligations.PutAndMoreWriteSlots : Prop :=
  ∀ (p : Port) (args : List Text) (d : Draft) (s : State) (i : Instr) (start : Nat),
    (i = .put p args ∧ start = d.first) ∨ (i = .more p args ∧ start = d.cursor) → s.ready p i →
    (s.port p).claim ≠ none → (s.port p).draft = some d →
    ((∀ ns : List Int, numbers? args = some ns → ns.length < 2 ∨ 16 < ns.length ∨ ns.length % 2 = 1) →
      exec i s = .next (s.answered p i (noReply .syn)))
    ∧ (∀ ps : List Point, numbers? args = some (ps.flatMap (fun q => [q.chainage, q.invert])) → 1 ≤ ps.length → ps.length ≤ 8 →
      let good := ∀ q ∈ ps, 0 ≤ q.chainage ∧ q.chainage ≤ 1200000 ∧ -50000 ≤ q.invert ∧ q.invert ≤ 50000
      (¬good → exec i s = .next (s.answered p i (noReply .range)))
      ∧ (good → d.points.length = 64 → d.last ≤ 63 →
        ∃ (n : Nat) (e : Draft), n = min ps.length (d.last + 1 - start)
          ∧ exec i s = .next ((s.answered p i (.ok (if n < ps.length then [natField n, .word "FULL"] else [natField n]))).updPort p
              (fun q => { q with draft := some e }))
          ∧ (∀ k : Nat, k < 64 → e.points[k]? = if start ≤ k ∧ k < start + n then some ps[k - start]? else d.points[k]?)
          ∧ e.points.length = 64 ∧ e.cursor = (if n = 0 then d.cursor else start + n)
          ∧ e.spans = d.spans ∧ e.first = d.first ∧ e.last = d.last ∧ e.base = d.base ∧ e.parent = d.parent
          ∧ e.junction = d.junction ∧ e.label = d.label))

/-- SPAN sets a span slot to its values or, with OFF, makes it absent; values outside their ranges are RANGE. HEAD sets or removes the
draft's parent, junction or label; a number outside its range is RANGE and a label of more than 16 characters, or the
word NONE (R184), SYNTAX. -/
def Obligations.SpanAndHead : Prop :=
  ((∀ (p : Port) (w off : Text) (k : Int) (d : Draft) (s : State), s.ready p (.span p [w, off]) → number? w = some k →
        isKeyword "OFF" off = true → (s.port p).claim ≠ none → (s.port p).draft = some d →
        exec (.span p [w, off]) s = .next
          (if 0 ≤ k ∧ k ≤ 5 then (s.answered p (.span p [w, off]) okReply).updPort p
              (fun q => { q with draft := some { d with spans := d.spans.set k.toNat none } })
          else s.answered p (.span p [w, off]) (noReply .range)))
      ∧ (∀ (p : Port) (args : List Text) (k start station plane slope : Int) (d : Draft) (s : State), s.ready p (.span p args) →
        numbers? args = some [k, start, station, plane, slope] → (s.port p).claim ≠ none → (s.port p).draft = some d →
        (∀ n : StationId, n.number = station → 0 ≤ k → k ≤ 5 → 0 ≤ start → start ≤ 1200000 → -50000 ≤ plane → plane ≤ 50000 →
            -30000 ≤ slope → slope ≤ 30000 →
          exec (.span p args) s = .next ((s.answered p (.span p args) okReply).updPort p (fun q =>
            let x : Span := { start := start, station := n, plane := plane, slope := slope }
            { q with draft := some { d with spans := d.spans.set k.toNat (some x) } })))
        ∧ (¬(0 ≤ k ∧ k ≤ 5) ∨ ¬(0 ≤ start ∧ start ≤ 1200000) ∨ ¬(1 ≤ station ∧ station ≤ 6) ∨ ¬(-50000 ≤ plane ∧ plane ≤ 50000)
            ∨ ¬(-30000 ≤ slope ∧ slope ≤ 30000) →
          exec (.span p args) s = .next (s.answered p (.span p args) (noReply .range)))))
    ∧ (∀ (p : Port) (d : Draft) (s : State), (s.port p).claim ≠ none → (s.port p).draft = some d →
      (∀ (w : Text) (n : Int), s.ready p (.headParent p [w]) → isKeyword "NONE" w = false → number? w = some n →
        exec (.headParent p [w]) s = .next
          (if 1 ≤ n ∧ n ≤ 999 then (s.answered p (.headParent p [w]) okReply).updPort p
              (fun q => { q with draft := some { d with parent := some n.toNat } })
          else s.answered p (.headParent p [w]) (noReply .range)))
      ∧ (∀ w : Text, s.ready p (.headParent p [w]) → isKeyword "NONE" w = true →
        exec (.headParent p [w]) s = .next ((s.answered p (.headParent p [w]) okReply).updPort p
          (fun q => { q with draft := some { d with parent := none } })))
      ∧ (∀ (w : Text) (n : Int), s.ready p (.headJunction p [w]) → isKeyword "NONE" w = false → number? w = some n →
        exec (.headJunction p [w]) s = .next
          (if 0 ≤ n ∧ n ≤ 1200000 then (s.answered p (.headJunction p [w]) okReply).updPort p
              (fun q => { q with draft := some { d with junction := some n } })
          else s.answered p (.headJunction p [w]) (noReply .range)))
      ∧ (∀ w : Text, s.ready p (.headJunction p [w]) → isKeyword "NONE" w = true →
        exec (.headJunction p [w]) s = .next ((s.answered p (.headJunction p [w]) okReply).updPort p
          (fun q => { q with draft := some { d with junction := none } })))
      ∧ (s.ready p (.headLabel p []) → exec (.headLabel p []) s = .next ((s.answered p (.headLabel p []) okReply).updPort p
          (fun q => { q with draft := some { d with label := none } })))
      ∧ (∀ w : Text, s.ready p (.headLabel p [w]) → w.length ≤ 16 → isKeyword "NONE" w = false →
        exec (.headLabel p [w]) s = .next ((s.answered p (.headLabel p [w]) okReply).updPort p
          (fun q => { q with draft := some { d with label := some w } })))
      ∧ (∀ w : Text, s.ready p (.headLabel p [w]) → 16 < w.length ∨ isKeyword "NONE" w = true →
        exec (.headLabel p [w]) s = .next (s.answered p (.headLabel p [w]) (noReply .syn))))

/-! ## Reads -/

/-- A read answers its record, or its records, and changes nothing else: the fields of IDENT, RUN, QUEUE, COUNTERS, EVENTS, STATION and
SETTING as their layouts give them. LINES answers LINE records (log 22). ZERO COUNTERS sets every counter that COUNTERS reports to 0 and
keeps the last strikes. A reply is written as lines of words, with one space between two words and CR and LF after the last. -/
def Obligations.ReadsAnswerTheirRecords : Prop :=
  let none' : Field := .word "NONE"
  let nat := fun k : Nat => Field.num k
  let optNat := fun x : Option Nat => (x.map nat).getD none'
  let flag := fun b : Bool => Field.word (if b then "SET" else "CLEAR")
  let kinds := fun es : List EventKind =>
    nat (EventKind.all.filter (fun k => es.contains k)).length :: (EventKind.all.filter (fun k => es.contains k)).map (fun k => Field.word k.word)
  let mark := fun m : Option Mark => match m with
    | none => [none', .word "OFF"]
    | some m => [.num m.chainage, .word (if m.suspends then "SUSPEND" else "REPORT")]
  (∀ (p : Port) (s : State),
    let answers := fun (i : Instr) (rs : List (List Field)) => s.ready p i → exec i s = .next (s.answered p i (.records rs))
    answers (.ident p []) [[.word "IDENT", .word "VALJOWAN", .word "RKD620", nat Config.programVersion, nat s.store.lines.length, .num 40,
        nat (s.store.lines.map (fun l => l.profile.length + match l.staged? with
          | some g => g.profile.length
          | none => 0)).sum,
        .num 1536, nat (StationId.all.filter (fun n => s.store.stations.get n != .undefined)).length, .num 6,
        nat s.recheck.queue.length, .num 16, .num 64, .num 6, .num 2, .num 3, .num 160]]
    ∧ (s.context? = none → answers (.run p []) [[.word "RUN", .word "IDLE"] ++ List.replicate 18 none'])
    ∧ (∀ l r, s.active? = some l → l.run? = some r → answers (.run p [])
        [[.word "RUN", .word r.state.words.1, (r.state.words.2.map Field.word).getD none', nat l.id,
          if s.chain.known then .num s.chainage else .word "UNKNOWN", (r.furthest.map Field.num).getD (.word "UNSET"),
          optNat s.eval.serving, .num r.trimFrom, .num r.trimTo, .num r.rampStart,
          .num (trimAt r s.settings.trimRamp (r.furthest.getD 0))] ++ mark r.mark1 ++ mark r.mark2
          ++ [nat s.eval.gradeCount, flag s.eval.gradeFlag, .num s.run.coast, .num s.eval.drive, flag r.retie]])
    ∧ answers (.queue p []) [[.word "QUEUE", nat s.recheck.queue.length] ++ s.recheck.queue.map nat
        ++ [optNat (s.recheck.inFlight.map (fun f => f.id)),
            (s.recheck.inFlight.map (fun f => Field.word (if f.origin = .queue then "QUEUE" else "SCAN"))).getD none',
            flag s.recheck.scanPending, optNat s.recheck.scanPos, .word (if s.recheck.backlog then "ON" else "OFF")]]
    ∧ answers (.settings p []) (([("MIN_FALL", .num s.settings.minFall), ("JUNCTION_DROP", .num s.settings.junctionDrop),
        ("MAST", .num s.settings.mast), ("CLEAR_BAND", .num s.settings.clearBand), ("ODO_SCALE", .num s.settings.odoScale),
        ("ODO_DECODE", .word (match s.settings.odoDecode with
          | .x1 => "1X"
          | .x2 => "2X"
          | .x4 => "4X")),
        ("SIG_MASK", .num s.settings.sigMask.toNat), ("STRIKE_TIMEOUT", .num s.settings.strikeTimeout), ("BACKUP", .num s.settings.backup),
        ("HANDOFF_LEN", .num s.settings.handoffLen), ("FREEZE_LEAD", .num s.settings.freezeLead), ("GRADE_TOL", .num s.settings.gradeTol),
        ("GRADE_COUNT", .num s.settings.gradeCount),
        ("GRADE_EFFECT", .word (match s.settings.gradeEffect with
          | .report => "REPORT"
          | .halt => "HALT")),
        ("COAST_LIMIT", .num s.settings.coastLimit), ("GAIN", .num s.settings.gain), ("DEADBAND", .num s.settings.deadband),
        ("SLEW", .num s.settings.slew), ("TIE_TOL", .num s.settings.tieTol), ("HANDOFF_TOL", .num s.settings.handoffTol),
        ("TRIM_RAMP", .num s.settings.trimRamp), ("END_WARN", .num s.settings.endWarn), ("CLAIM_LAPSE", .num s.settings.claimLapse)]
        : List (String × Field)).map (fun e => [.word "SETTING", .word e.1, e.2]))
    ∧ answers (.events p []) [[.word "EVENTS"] ++ kinds (s.port p).events ++ kinds (s.port p).mask
        ++ match (s.port p).claim with
          | none => [none', none']
          | some id => [nat id, .word (if (s.line? id).isSome then "LINE" else "FREE")]]
    ∧ answers (.counters p []) [[.word "COUNTERS", nat s.link.bad.toNat, nat s.link.fault.toNat, nat s.link.unmatched.toNat,
        nat s.link.foreign.toNat, nat s.chain.odoInvalid.toNat, nat s.link.live.s1.accepted.toNat, nat s.link.live.s2.accepted.toNat,
        nat s.link.live.s3.accepted.toNat, nat s.link.live.s4.accepted.toNat, nat s.link.live.s5.accepted.toNat,
        nat s.link.live.s6.accepted.toNat]]
    ∧ (∀ (w : Text) (n : StationId), number? w = some n.number →
      let t := s.store.stations.get n
      let last := (s.link.live.get n).last
      answers (.stationRead p [w]) [[.word "STATION", .num n.number,
        .word (match t with
          | .undefined => "UNDEFINED"
          | .inService _ => "IN_SERVICE"
          | .withdrawn _ => "WITHDRAWN"),
        optNat (t.data?.map (fun d => d.signature.toNat)), ((t.data?.bind (fun d => d.label)).map Field.label).getD none',
        .num ((t.data?.map (fun d => d.correction)).getD 0), nat (s.link.live.get n).accepted.toNat,
        (last.map (fun k => match k.reading with
          | .offset d => Field.num d
          | .edgeHigh => .word "EDGE_HIGH"
          | .edgeLow => .word "EDGE_LOW")).getD none',
        optNat (last.map (fun k => s.time - k.time))]])
    ∧ answers (.lines p []) (s.store.lines.map (lineRecord s))
    ∧ (∀ (w : Text) (k : LifecycleKind), lifecycleKind? w = some k →
        answers (.lines p [w]) ((s.store.lines.filter (fun l => l.lifecycle.kind == k)).map (lineRecord s)))
    ∧ (s.ready p (.zeroCounters p []) → ∃ k : Link,
      exec (.zeroCounters p []) s = .next { s.answered p (.zeroCounters p []) okReply with
          link := k, chain := { s.chain with odoInvalid := 0 } }
        ∧ k.bad = 0 ∧ k.fault = 0 ∧ k.unmatched = 0 ∧ k.foreign = 0 ∧ k.framing = s.link.framing
        ∧ (∀ n : StationId, k.live.get n = { last := s.lastStrike? n, accepted := 0 })))
    ∧ (∀ fs : List Field, (Reply.ok fs).text = lineText (.word "OK" :: fs))
    ∧ (∀ (r : Reason) (fs : List Field), (Reply.no r fs).text = lineText (.word "NO" :: .word r.word :: fs))
    ∧ (∀ rs : List (List Field), (Reply.records rs).text = lineText [.word "OK"] ++ (rs.map lineText).flatten ++ lineText [.word "."])
    ∧ (∀ f : Field, lineText [f] = f.text ++ ['\r', '\n'])
    ∧ (∀ (f g : Field) (fs : List Field), lineText (f :: g :: fs) = f.text ++ ' ' :: lineText (g :: fs))
    ∧ (∀ w : String, (Field.word w).text = w.toList) ∧ (∀ t : Text, (Field.label t).text = t)
    ∧ (∀ n : Nat, (Field.num n).text = Nat.toDigits 10 n) ∧ (∀ n : Nat, (Field.num (-((n : Int) + 1))).text = '-' :: Nat.toDigits 10 (n + 1))
    ∧ (Field.loc .nowhere).text = ['N', 'O', 'N', 'E'] ∧ (∀ mm : Int, (Field.loc (.chainage mm)).text = 'C' :: (Field.num mm).text)
    ∧ (∀ k : Nat, (Field.loc (.breakpoint k)).text = 'B' :: Nat.toDigits 10 k ∧ (Field.loc (.span k)).text = 'S' :: Nat.toDigits 10 k
      ∧ (Field.loc (.line k)).text = 'L' :: Nat.toDigits 10 k)

/-- LINE, PROFILE and SPANS of an id: the stored line, its staged revision, which may be none, or this port's own draft, in LINE, DRAFT, BP
and SPAN records laid out as the manual gives; NOLINE, with the port that holds a reservation of the id, where no line has it, and NODRAFT
where the port holds no draft of it. -/
def Obligations.LineReadsAnswer : Prop :=
  let none' : Field := .word "NONE"
  let nat := fun k : Nat => Field.num k
  let optNat := fun x : Option Nat => (x.map nat).getD none'
  let optInt := fun x : Option Int => (x.map Field.num).getD none'
  let label := fun x : Option Text => (x.map Field.label).getD none'
  let flag := fun b : Bool => Field.word (if b then "SET" else "CLEAR")
  let bp := fun (k : Nat) (b : Point) (c : Option Closure) =>
    [Field.word "BP", nat k, .num b.chainage, .num b.invert] ++ (match c with
      | none => List.replicate 5 none'
      | some c => [.word (if c.state = .opened then "OPEN" else "CLOSED"), .num c.worst, flag c.edge, flag c.grade, .num c.coasted])
  let span := fun (k : Nat) (x : Span) =>
    [Field.word "SPAN", nat k, .num x.start, .num x.station.number, .num x.plane, .num x.slope]
  let within := fun (a b : Nat) (e : Nat) => decide (a ≤ e ∧ e ≤ b)
  ∀ (p : Port) (id : Nat) (w : Text) (s : State), number? w = some (id : Int) → 1 ≤ id → id ≤ 999 →
    let answers := fun (i : Instr) (r : Reply) => s.ready p i → exec i s = .next (s.answered p i r)
    let noLine : Reply := .no .noline ((s.holder? id).map portField).toList
    (∀ l, lineRecord s l = [.word "LINE", nat l.id, label l.label, optNat l.parent?, optInt (l.outlet.map (fun o => o.junction)),
        .num l.length, .word l.lifecycle.kind.word, .word l.status.word]
        ++ (match l.status with
          | .conflict f => [.word f.reason.word, .loc f.location]
          | _ => [none', none'])
        ++ [nat l.revision.toNat, ((s.holder? l.id).map portField).getD none']
        ++ (match l.staged?, s.run.lastDrop with
          | some g, _ => [.word (if g.settled then "SETTLED" else "UNSETTLED"), none']
          | none, some d => if d.id = l.id then [.word "DROPPED", .word d.reason.word] else [none', none']
          | none, none => [none', none'])
        ++ [match l.run? with
          | some r => .num (freezeChainage s.store l r.furthest)
          | none => none'])
    ∧ answers (.line p [w]) (match s.line? id with
      | some l => .records [lineRecord s l]
      | none => noLine)
    ∧ answers (.spans p [w]) (match s.line? id with
      | some l => .records (l.spans.zipIdx.map (fun e => span e.2 e.1))
      | none => noLine)
    ∧ (∀ (wa wb : Text) (a b : Nat), number? wa = some (a : Int) → number? wb = some (b : Int) → a ≤ b → b ≤ 63 →
      answers (.profile p [w, wa, wb]) (match s.line? id with
        | some l => .records ((l.profile.zipIdx.filter (fun e => within a b e.2)).map (fun e => bp e.2 e.1.point e.1.closure))
        | none => noLine))
    ∧ (∀ c : Text, isKeyword "STAGED" c = true →
      answers (.spans p [w, c]) (match s.line? id with
        | some l => .records (match l.staged? with
          | some g => g.spans.zipIdx.map (fun e => span e.2 e.1)
          | none => [])
        | none => noLine)
      ∧ (∀ (wa wb : Text) (a b : Nat), number? wa = some (a : Int) → number? wb = some (b : Int) → a ≤ b → b ≤ 63 →
        answers (.profile p [w, wa, wb, c]) (match s.line? id with
          | some l => .records (match l.staged? with
            | some g => (g.profile.zipIdx.filter (fun e => within a b e.2)).map (fun e => bp e.2 e.1 none)
            | none => [])
          | none => noLine)))
    ∧ (∀ c : Text, isKeyword "DRAFT" c = true →
      ((s.port p).draft = none ∨ (s.port p).claim ≠ some id →
        answers (.line p [w, c]) (noReply .nodraft) ∧ answers (.spans p [w, c]) (noReply .nodraft)
        ∧ ∀ (wa wb : Text) (a b : Nat), number? wa = some (a : Int) → number? wb = some (b : Int) → a ≤ b → b ≤ 63 →
          answers (.profile p [w, wa, wb, c]) (noReply .nodraft))
      ∧ (∀ d : Draft, (s.port p).draft = some d → (s.port p).claim = some id →
        answers (.line p [w, c]) (.records [[.word "DRAFT", nat id, (d.base.map (fun k => nat k.toNat)).getD none', optNat d.parent,
          optInt d.junction, label d.label, nat d.first, nat d.last, nat d.cursor, nat (d.points.filter Option.isSome).length,
          nat (d.spans.filter Option.isSome).length]])
        ∧ answers (.spans p [w, c]) (.records (d.spans.zipIdx.filterMap (fun e => e.1.map (fun x => span e.2 x))))
        ∧ (∀ (wa wb : Text) (a b : Nat), number? wa = some (a : Int) → number? wb = some (b : Int) → a ≤ b → b ≤ 63 →
          answers (.profile p [w, wa, wb, c]) (.records ((d.points.zipIdx.filter (fun e => within a b e.2)).filterMap
            (fun e => e.1.map (fun x => bp e.2 x none)))))))

/-! ## Stations -/

/-- STATION n DEFINE: an UNDEFINED slot comes into service with the signature and the label given, correction 0, accepted count 0 and no
last strike, unless its signature under SIG_MASK is that of another IN_SERVICE station. STATION n FORGET: a WITHDRAWN slot becomes
UNDEFINED, with accepted count 0 and no last strike, unless a PLANNED or ACTIVE line names the station. STATE and BACKLOG come first, and
no line is marked. (`proceedChecks` is how far the plan checks under way have read by then, a free value of the model: log 5.) -/
def Obligations.DefineAndForget : Prop :=
  (∀ (p : Port) (args : List Text) (a : DefineArgs) (n : StationId) (s : State), s.ready p (.stationDefine p args) →
      defineArgs? args = some a → a.number = n.number → 1 ≤ a.signature → a.signature ≤ 255 →
      let sig : Byte := BitVec.ofInt 8 a.signature
      (s.store.stations.get n ≠ .undefined →
        exec (.stationDefine p args) s = .next (s.answered p (.stationDefine p args) (noReply .state)))
      ∧ (s.store.stations.get n = .undefined → s.recheck.backlog = true →
        exec (.stationDefine p args) s = .next (s.answered p (.stationDefine p args) (noReply .backlog)))
      ∧ (s.store.stations.get n = .undefined → s.recheck.backlog = false →
        (∃ (m : StationId) (d : StationData), m ≠ n ∧ s.store.stations.get m = .inService d
            ∧ d.signature &&& s.settings.sigMask = sig &&& s.settings.sigMask) →
        exec (.stationDefine p args) s = .next (s.answered p (.stationDefine p args) (noReply .collide)))
      ∧ (s.store.stations.get n = .undefined → s.recheck.backlog = false →
        (∀ (m : StationId) (d : StationData), m ≠ n → s.store.stations.get m = .inService d →
            d.signature &&& s.settings.sigMask ≠ sig &&& s.settings.sigMask) →
        exec (.stationDefine p args) s = .next { s.proceedChecks.answered p (.stationDefine p args) okReply with
          store := { s.store with stations := s.store.stations.set n (.inService { signature := sig, label := a.label, correction := 0 }) }
          link := { s.link with live := s.link.live.set n { last := none, accepted := 0 } } }))
    ∧ (∀ (p : Port) (w : Text) (n : StationId) (s : State), s.ready p (.stationForget p [w]) → number? w = some n.number →
        ((∀ d, s.store.stations.get n ≠ .withdrawn d) →
          exec (.stationForget p [w]) s = .next (s.answered p (.stationForget p [w]) (noReply .state)))
        ∧ (∀ d, s.store.stations.get n = .withdrawn d →
          (s.recheck.backlog = true →
            exec (.stationForget p [w]) s = .next (s.answered p (.stationForget p [w]) (noReply .backlog)))
          ∧ (s.recheck.backlog = false →
            ((∃ l ∈ s.store.lines, (l.lifecycle.kind = .planned ∨ l.lifecycle.kind = .active) ∧ l.namesStation n = true) →
              exec (.stationForget p [w]) s = .next (s.answered p (.stationForget p [w]) (noReply .inuse)))
            ∧ ((∀ l ∈ s.store.lines, l.lifecycle.kind = .planned ∨ l.lifecycle.kind = .active → l.namesStation n = false) →
              exec (.stationForget p [w]) s = .next { s.proceedChecks.answered p (.stationForget p [w]) okReply with
                store := { s.store with stations := s.store.stations.set n .undefined }
                link := { s.link with live := s.link.live.set n { last := none, accepted := 0 } } }))))

/-- PLANE, WITHDRAW and RESTORE: STATE for a station they do not fit, BACKLOG, then INUSE while the machine digs under the station, or for
RESTORE COLLIDE with another IN_SERVICE station. Otherwise WITHDRAW, RESTORE and PLANE with a changed value change the station, mark every
PLANNED or ACTIVE line that names it, or whose draft in flight does (log 20), and record the commits in flight they reach. PLANE with the
value in force changes nothing. -/
def Obligations.StationChangesMarkLines : Prop :=
  ∀ (p : Port) (w : Text) (n : StationId) (s : State), number? w = some n.number →
    let inUse := s.digging = true ∧ ∃ l, s.active? = some l ∧ l.namesStation n = true
    let collides := fun sig : Byte => ∃ (m : StationId) (e : StationData), m ≠ n ∧ s.store.stations.get m = .inService e
      ∧ e.signature &&& s.settings.sigMask = sig &&& s.settings.sigMask
    (∀ (wm : Text) (mm : Int), s.ready p (.stationPlane p [w, wm]) → number? wm = some mm → -500 ≤ mm → mm ≤ 500 →
      let no := fun r : Reason => exec (.stationPlane p [w, wm]) s = .next (s.answered p (.stationPlane p [w, wm]) (noReply r))
      (s.store.stations.get n = .undefined → no .state)
      ∧ (∀ (d : StationData) (st : StationData → Station), st = .inService ∨ st = .withdrawn → s.store.stations.get n = st d →
        (s.recheck.backlog = true → no .backlog)
        ∧ (s.recheck.backlog = false → inUse → no .inuse)
        ∧ (s.recheck.backlog = false → ¬inUse →
          (mm = d.correction → exec (.stationPlane p [w, wm]) s = .next (s.answered p (.stationPlane p [w, wm]) okReply))
          ∧ (mm ≠ d.correction → ∃ t : State, exec (.stationPlane p [w, wm]) s = .next t
            ∧ (s.answered p (.stationPlane p [w, wm]) okReply).keepsMachine t [.dropped, .backlog, .swept]
            ∧ s.marked t (s.marksLine (.station n)) ∧ s.reaches t (.station n)
            ∧ t.store.stations = s.store.stations.set n (st { d with correction := mm }) ∧ t.settings = s.settings))))
    ∧ (s.ready p (.stationWithdraw p [w]) →
      let no := fun r : Reason => exec (.stationWithdraw p [w]) s = .next (s.answered p (.stationWithdraw p [w]) (noReply r))
      ((∀ d, s.store.stations.get n ≠ .inService d) → no .state)
      ∧ (∀ d : StationData, s.store.stations.get n = .inService d →
        (s.recheck.backlog = true → no .backlog)
        ∧ (s.recheck.backlog = false → inUse → no .inuse)
        ∧ (s.recheck.backlog = false → ¬inUse → ∃ t : State, exec (.stationWithdraw p [w]) s = .next t
          ∧ ({ s.answered p (.stationWithdraw p [w]) okReply with
                link := { s.link with live := s.link.live.set n { s.link.live.get n with last := none } } } : State).keepsMachine t
              [.dropped, .backlog, .swept]
          ∧ s.marked t (s.marksLine (.station n)) ∧ s.reaches t (.station n)
          ∧ t.store.stations = s.store.stations.set n (.withdrawn d) ∧ t.settings = s.settings)))
    ∧ (s.ready p (.stationRestore p [w]) →
      let no := fun r : Reason => exec (.stationRestore p [w]) s = .next (s.answered p (.stationRestore p [w]) (noReply r))
      ((∀ d, s.store.stations.get n ≠ .withdrawn d) → no .state)
      ∧ (∀ d : StationData, s.store.stations.get n = .withdrawn d →
        (s.recheck.backlog = true → no .backlog)
        ∧ (s.recheck.backlog = false → collides d.signature → no .collide)
        ∧ (s.recheck.backlog = false → ¬collides d.signature → ∃ t : State, exec (.stationRestore p [w]) s = .next t
          ∧ (s.answered p (.stationRestore p [w]) okReply).keepsMachine t [.dropped, .backlog, .swept]
          ∧ s.marked t (s.marksLine (.station n)) ∧ s.reaches t (.station n)
          ∧ t.store.stations = s.store.stations.set n (.inService d) ∧ t.settings = s.settings)))

/-! ## Commits -/

/-- COMMIT of an open draft: its tests in order, and then the commit in flight with the lifecycle recorded; the port stays busy. -/
def Obligations.CommitGoesInFlight : Prop :=
  ∀ (p : Port) (id : Nat) (d : Draft) (s : State), s.ready p (.commit p []) → (s.port p).claim = some id →
    (s.port p).draft = some d →
    let barred := ∃ l, s.line? id = some l ∧ (l.lifecycle.kind = .complete ∨ l.lifecycle.kind = .abandoned
      ∨ (l.lifecycle.kind = .active
          ∧ (d.parent ≠ l.parent? ∨ (d.parent ≠ none ∧ d.junction ≠ l.outlet.map (fun o => o.junction)))))
    let outdated := ∃ l, s.line? id = some l ∧ d.base ≠ some l.revision
    let full := s.line? id = none ∧ 40 ≤ s.store.lines.length
    (barred → exec (.commit p []) s = .next (s.answered p (.commit p []) (noReply .state)))
    ∧ (¬barred → s.recheck.backlog = true → exec (.commit p []) s = .next (s.answered p (.commit p []) (noReply .backlog)))
    ∧ (¬barred → s.recheck.backlog = false → outdated →
      exec (.commit p []) s = .next (s.answered p (.commit p []) (noReply .staledraft)))
    ∧ (¬barred → s.recheck.backlog = false → ¬outdated → full →
      exec (.commit p []) s = .next (s.answered p (.commit p []) (noReply .full)))
    ∧ (¬barred → s.recheck.backlog = false → ¬outdated → ¬full →
      exec (.commit p []) s = .next (s.updPort p (fun q =>
        { q with buffer := emptyBuffer, lapse := none, hand := .waiting (.commit p [])
                 commit := some { was := (s.line? id).map (fun l => l.lifecycle.kind), reached := false,
                                  check := { made := 0, failure := none } } })))

/-- What the plan check tests, item by item, with the reason and the location of each failure: COUNT, HOLE, ORDER, SPACING, LENGTH, FALL,
SPANS, STATION, CLEAR_LOW and CLEAR_HIGH at the evaluation points, PARENT and JUNCTION. Its items come in this order, HOLE and the move
test at a commit alone, and the first test that fails ends it; a check that has made some of its tests goes on with the rest. -/
def Obligations.PlanCheckTestsItsItems : Prop :=
  ∀ (st : Store) (u : Subject),
    let fails := fun (t : CheckTest) (r : CheckReason) (w : Location) => t.run st u = some { reason := r, location := w }
    let passes := fun t : CheckTest => t.run st u = none
    let first := fun (bad : Nat → Prop) (k : Nat) => bad k ∧ ∀ i < k, ¬bad i
    let segment := fun (bad : Point → Point → Prop) (k : Nat) => ∃ a b, u.points[k]? = some a ∧ u.points[k + 1]? = some b ∧ bad a b
    -- COUNT (R46)
    (¬(2 ≤ u.points.length ∧ u.points.length ≤ 64) → fails .count .count (.breakpoint u.points.length))
    ∧ (2 ≤ u.points.length → u.points.length ≤ 64 →
      (¬(1 ≤ u.spans.length ∧ u.spans.length ≤ 6) → fails .count .count (.span u.spans.length))
      ∧ (1 ≤ u.spans.length → u.spans.length ≤ 6 → passes .count))
    -- HOLE (R47), over the slots of a draft
    ∧ (∀ (d : Draft) (id : Nat), u = d.subject id →
      let gap := fun (held : List Bool) (k : Nat) => held[k]? = some false ∧ ∃ j, k < j ∧ held[j]? = some true
      let points := d.points.map Option.isSome
      let spans := d.spans.map Option.isSome
      u.id = id ∧ u.points = d.points.filterMap (fun x => x) ∧ u.spans = d.spans.filterMap (fun x => x) ∧ u.parent = d.parent
      ∧ u.junction = d.junction ∧ u.commit = true
      ∧ (∀ k, first (gap points) k → fails .hole .hole (.breakpoint k))
      ∧ ((∀ k, ¬gap points k) → (∀ k, first (gap spans) k → fails .hole .hole (.span k))
        ∧ ((∀ k, ¬gap spans k) → passes .hole)))
    -- the subject of a re-check (R44)
    ∧ (∀ l : Line, u = l.subject → u.id = l.id ∧ u.points = l.profile.map (fun b => b.point) ∧ u.spans = l.spans ∧ u.parent = l.parent?
      ∧ u.junction = l.outlet.map (fun o => o.junction) ∧ u.commit = false)
    -- ORDER (R48)
    ∧ (∀ a, u.points[0]? = some a → a.chainage ≠ 0 → fails .order .order (.breakpoint 0))
    ∧ (∀ a, u.points[0]? = some a → a.chainage = 0 →
      (∀ k, first (segment (fun a b => b.chainage ≤ a.chainage)) k → fails .order .order (.breakpoint (k + 1)))
      ∧ ((∀ k, ¬segment (fun a b => b.chainage ≤ a.chainage) k) → passes .order))
    -- SPACING (R49) and FALL (R51)
    ∧ (∀ k a, u.points[k]? = some a →
      (first (segment (fun a b => b.chainage - a.chainage < 1000)) k → fails .spacing .spacing (.chainage a.chainage))
      ∧ (first (segment (fun a b => (b.invert - a.invert) * 1000000 < st.settings.minFall * (b.chainage - a.chainage))) k →
        fails .fall .fall (.chainage a.chainage)))
    ∧ ((∀ k, ¬segment (fun a b => b.chainage - a.chainage < 1000) k) → passes .spacing)
    ∧ ((∀ k, ¬segment (fun a b => (b.invert - a.invert) * 1000000 < st.settings.minFall * (b.chainage - a.chainage)) k) → passes .fall)
    -- LENGTH (R50) and SPANS (R52)
    ∧ (∀ z, u.points.getLast? = some z →
      (¬(5000 ≤ z.chainage ∧ z.chainage ≤ 1200000) → fails .length .length (.chainage z.chainage))
      ∧ (5000 ≤ z.chainage → z.chainage ≤ 1200000 → passes .length)
      ∧ (let bad := fun k : Nat => ∃ x, u.spans[k]? = some x ∧ ((k = 0 ∧ x.start ≠ 0) ∨ z.chainage ≤ x.start
            ∨ ∃ i y, k = i + 1 ∧ u.spans[i]? = some y ∧ (x.start ≤ y.start ∨ x.station = y.station))
        (∀ k, first bad k → fails .spans .spans (.span k)) ∧ ((∀ k, ¬bad k) → passes .spans)))
    -- STATION (R53) and the clearance (R55)
    ∧ (∀ (k : Nat) (x : Span),
      ((∃ d, st.stations.get x.station = .inService d) → passes (.station k x))
      ∧ ((∀ d, st.stations.get x.station ≠ .inService d) → fails (.station k x) .station (.span k)))
    ∧ (∀ (c : Int) (x : Span),
      let clearance := effectivePlane st x c - invertAt u.points c
      (clearance < st.settings.mast - st.settings.clearBand → fails (.clear c x) .clearLow (.chainage c))
      ∧ (st.settings.mast - st.settings.clearBand ≤ clearance →
        (st.settings.mast + st.settings.clearBand < clearance → fails (.clear c x) .clearHigh (.chainage c))
        ∧ (clearance ≤ st.settings.mast + st.settings.clearBand → passes (.clear c x))))
    -- PARENT (R56)
    ∧ (st.idsAscending → ∀ k ∈ st.lines, k.parent? = some u.id → (∀ m ∈ st.lines, m.parent? = some u.id → k.id ≤ m.id) →
      ∀ l, st.line? u.id = some l → l.parent? ≠ u.parent → fails .move .parent (.line k.id))
    ∧ (st.line? u.id = none ∨ (∀ k ∈ st.lines, k.parent? ≠ some u.id) ∨ (∀ l, st.line? u.id = some l → l.parent? = u.parent) → passes .move)
    ∧ (u.parent = none → passes .parentExists ∧ passes .parentAbandoned ∧ passes .cycleAndLevel ∧ passes .junctionPresent
      ∧ passes .junctionRange ∧ passes .drop)
    ∧ (∀ p, u.parent = some p →
      (st.line? p = none → fails .parentExists .parent (.line p))
      ∧ (∀ l, st.line? p = some l → passes .parentExists
        ∧ (l.lifecycle = .abandoned → fails .parentAbandoned .parent (.line p)) ∧ (l.lifecycle ≠ .abandoned → passes .parentAbandoned)
        ∧ (p = u.id → fails .cycleAndLevel .parent (.line u.id))
        ∧ (p ≠ u.id → (l.parent? = none → passes .cycleAndLevel)
          ∧ (∀ g m, l.parent? = some g → st.line? g = some m →
            (g = u.id → fails .cycleAndLevel .parent (.line u.id))
            ∧ (g ≠ u.id → (m.parent? = none → passes .cycleAndLevel)
              ∧ (∀ h n, m.parent? = some h → st.line? h = some n →
                fails .cycleAndLevel .parent (.line (if h = u.id then u.id else p))))))
        -- JUNCTION (R57)
        ∧ (u.junction = none → fails .junctionPresent .junction .nowhere)
        ∧ (∀ j, u.junction = some j → passes .junctionPresent
          ∧ (¬(0 ≤ j ∧ j ≤ l.length) → fails .junctionRange .junction (.chainage j)) ∧ (0 ≤ j → j ≤ l.length → passes .junctionRange)
          ∧ (∀ a, u.points[0]? = some a →
            (a.invert - invertAt l.points j < st.settings.junctionDrop → fails .drop .junction (.chainage j))
            ∧ (st.settings.junctionDrop ≤ a.invert - invertAt l.points j → passes .drop)))))
    -- the order of the items (R45) and the evaluation points (R54)
    ∧ (let stop : Nat → Int := fun i => match u.spans[i + 1]? with
          | some y => y.start
          | none => lengthOf u.points
      let stations : List CheckTest := u.spans.zipIdx.map (fun e => .station e.2 e.1)
      let clears : Span × Nat → List CheckTest := fun e =>
        let inner : List CheckTest := (u.points.filter (fun a => decide (e.1.start < a.chainage ∧ a.chainage < stop e.2))).map
          (fun a => .clear a.chainage e.1)
        .clear e.1.start e.1 :: (inner ++ [.clear (stop e.2) e.1])
      let holes : List CheckTest := if u.commit then [.hole] else []
      let moves : List CheckTest := if u.commit then [.move] else []
      let opening : List CheckTest := .count :: (holes ++ [.order, .spacing, .length, .fall, .spans])
      let closing : List CheckTest := moves ++ [.parentExists, .parentAbandoned, .cycleAndLevel, .junctionPresent, .junctionRange, .drop]
      u.tests = opening ++ stations ++ (u.spans.zipIdx.map clears).flatten ++ closing)
    ∧ (∀ c : CheckRun, (∀ f, c.failure = some f → c.result st u = some f)
      ∧ (c.failure = none → c.result st u = (u.tests.drop c.made).findSome? (fun t => t.run st u)))

/-- The elevations: rounding to the nearest millimetre with halves away from zero; the profile invert on the straight line of its segment;
the plane of the span that covers a chainage, with the plane correction of its station; the effective trim along a ramp; the target and
the measured invert; and the freeze chainage with the freeze condition. -/
def Obligations.ElevationsAndFreeze : Prop :=
  (∀ n d : Int, 0 < d → 2 * (((d * roundDiv n d - n).natAbs : Nat) : Int) ≤ d
      ∧ (2 * (((d * roundDiv n d - n).natAbs : Nat) : Int) = d → n.natAbs < (d * roundDiv n d).natAbs))
    ∧ (∀ (pts : List Point) (k : Nat) (a b : Point) (c : Int), pts.Pairwise (fun x y => x.chainage < y.chainage) →
      pts[k]? = some a → pts[k + 1]? = some b → (k = 0 ∨ a.chainage ≤ c) → (pts.length = k + 2 ∨ c < b.chainage) →
      invertAt pts c = roundDiv (a.invert * (b.chainage - a.chainage) + (b.invert - a.invert) * (c - a.chainage)) (b.chainage - a.chainage)
        ∧ (c = a.chainage → invertAt pts c = a.invert) ∧ (c = b.chainage → invertAt pts c = b.invert))
    ∧ (∀ (spans : List Span) (k : Nat) (x : Span) (c : Int), spans.Pairwise (fun x y => x.start < y.start) → spans[k]? = some x →
      (k = 0 ∨ x.start ≤ c) → (∀ y, spans[k + 1]? = some y → c < y.start) → spanIndex spans c = k)
    ∧ (∀ (st : Store) (x : Span) (c : Int),
      effectivePlane st x c = roundDiv (x.plane * 1000000 + x.slope * (c - x.start)) 1000000
        + (match st.stations.get x.station with
          | .undefined => 0
          | .inService d => d.correction
          | .withdrawn d => d.correction))
    ∧ (∀ (r : RunContext) (ramp c : Int), 0 < ramp →
      (c < r.rampStart → trimAt r ramp c = r.trimFrom) ∧ (r.rampStart + ramp ≤ c → trimAt r ramp c = r.trimTo)
      ∧ (r.rampStart ≤ c → c < r.rampStart + ramp →
        trimAt r ramp c = roundDiv (r.trimFrom * ramp + (r.trimTo - r.trimFrom) * (c - r.rampStart)) ramp))
    ∧ (∀ (st : Store) (l : Line) (r : RunContext) (x : Span) (c d : Int),
      targetAt st l r c = invertAt (l.profile.map (fun b => b.point)) c - trimAt r st.settings.trimRamp c
      ∧ measuredAt st x c d = effectivePlane st x c - st.settings.mast - d)
    ∧ (∀ (st : Store) (l : Line), freezeChainage st l none = 0
      ∧ ∀ f : Int, freezeChainage st l (some f) = min (f + st.settings.freezeLead) l.length)
    ∧ (∀ (st : Store) (l : Line) (f : Option Int) (pts : List Point) (spans : List Span) (j : Nat) (b : Breakpoint),
      l.profile[j]? = some b → freezeChainage st l f ≤ b.point.chainage →
      (∀ i a, i < j → l.profile[i]? = some a → a.point.chainage < freezeChainage st l f) →
      (meetsFreeze st l f pts spans = true ↔
        (∀ i ≤ j, pts[i]? = (l.profile[i]?).map (fun a => a.point))
        ∧ spans.filter (fun x => decide (x.start ≤ freezeChainage st l f)) = l.spans.filter (fun x => decide (x.start ≤ freezeChainage st l f))
        ∧ ∀ x, f = some x → x < lengthOf pts))

/-- At completion a commit is refused by its plan check, or by the first completion test that fails, and nothing but its port
changes. -/
def Obligations.CommitRefusedAtCompletion : Prop :=
  ∀ (p : Port) (c : CommitRun) (id : Nat) (d : Draft) (s : State), s.running = true → (s.port p).commit = some c →
    (s.port p).claim = some id → (s.port p).draft = some d →
    let u := d.subject id
    let l := s.line? id
    let refused := fun r : Reply => exec (.commitCompletion p) s = .next (s.commitAnswered p r)
    (∀ f, c.check.result s.store u = some f → refused (.no .check [.word f.reason.word, .loc f.location]))
    ∧ (c.check.result s.store u = none →
      (l.map (fun l => l.lifecycle.kind) ≠ c.was → refused (noReply .state))
      ∧ (l.map (fun l => l.lifecycle.kind) = c.was →
        ((∃ k, l = some k ∧ d.base ≠ some k.revision) → refused (noReply .staledraft))
        ∧ (l = none → 40 ≤ s.store.lines.length → refused (noReply .full))
        ∧ ((∀ k, l = some k → d.base = some k.revision) → (l = none → s.store.lines.length < 40) →
          (∀ f, firstFailure s.store u [.move, .parentExists, .cycleAndLevel] = some f →
            refused (.no .check [.word f.reason.word, .loc f.location]))
          ∧ (firstFailure s.store u [.move, .parentExists, .cycleAndLevel] = none →
            (∀ k r st, l = some k → k.lifecycle = .active r st → meetsFreeze s.store k r.furthest u.points u.spans = false →
              refused (noReply .frozen))
            ∧ ((∀ k r st, l = some k → k.lifecycle = .active r st → meetsFreeze s.store k r.furthest u.points u.spans = true) →
              s.store.freeSlots < u.points.length - slotsReturned l → refused (noReply .pool))))))

/-- A commit of a free id that passes creates the line, PLANNED and CHECKED, with revision 0; one that a marking change reached is STALE
and waits for a check. No other line is touched (log 19); a commit in flight on the other port is reached if its draft, or the stored line it
is for, names the new line as parent. -/
def Obligations.CommitCreatesTheLine : Prop :=
  ∀ (p : Port) (c : CommitRun) (id : Nat) (d : Draft) (s : State), s.running = true → (s.port p).commit = some c →
    (s.port p).claim = some id → (s.port p).draft = some d → c.check.result s.store (d.subject id) = none →
    s.completionRefusal? c (d.subject id) d = none → s.line? id = none →
    ∃ t : State, exec (.commitCompletion p) s = .next t
      ∧ (s.commitWritten p c.reached).keepsMachine t [.backlog, .swept] ∧ t.run = s.run
      ∧ t.line? id = some
          { id := id, label := d.label, outlet := d.parent.map (fun k => { parent := k, junction := d.junction.getD 0 }),
            lifecycle := .planned, status := if c.reached then .stale else .checked, revision := 0,
            profile := (present d.points).map (fun q => { point := q, closure := none }), spans := present d.spans }
      ∧ (∀ k, k ≠ id → t.line? k = s.line? k) ∧ t.store.stations = s.store.stations ∧ t.settings = s.settings
      ∧ (s.updPort p (fun q => { q with commit := none })).reaches t (.parent id)
      ∧ (c.reached = true → id ∈ t.recheck.queue ∨ t.recheck.scanPending = true)
      ∧ (c.reached = false → t.recheck.queue = s.recheck.queue ∧ t.recheck.scanPending = s.recheck.scanPending
          ∧ t.recheck.backlog = s.recheck.backlog)

/-- A commit of a PLANNED line that passes replaces its lists and header and increases its revision; the line is CHECKED and leaves
the queue, or STALE and waiting for a check if the commit was reached. The lines that name it as parent, or whose draft in flight does
(log 20), are marked: they wait for a check, a check of one in flight is discarded, and a staged revision so discarded raises DROPPED with
reason STALE. A commit in flight on the other port that names it as parent is reached. -/
def Obligations.CommitReplacesAPlan : Prop :=
  ∀ (p : Port) (c : CommitRun) (id : Nat) (d : Draft) (l : Line) (s : State), s.running = true → (s.port p).commit = some c →
    (s.port p).claim = some id → (s.port p).draft = some d → c.check.result s.store (d.subject id) = none →
    s.completionRefusal? c (d.subject id) d = none → s.line? id = some l → l.lifecycle = .planned →
    (s.port (otherPort p)).claim ≠ some id →
    let ended := s.updPort p (fun q => { q with commit := none })
    let child := fun m : Line => decide (m.id ≠ id) && ended.marksLine (.parent id) m
    ∃ t : State, exec (.commitCompletion p) s = .next t
      ∧ (s.commitWritten p c.reached).keepsMachine t [.dropped, .backlog, .swept]
      ∧ t.line? id = some
          { id := id, label := d.label, outlet := d.parent.map (fun k => { parent := k, junction := d.junction.getD 0 }),
            lifecycle := .planned, status := if c.reached then .stale else .checked, revision := l.revision + 1,
            profile := (present d.points).map (fun q => { point := q, closure := none }), spans := present d.spans }
      ∧ (∀ k m, k ≠ id → s.line? k = some m → t.line? k = some
          (if m.takesMarks && ended.marksLine (.parent id) m then
            { m.setStaged none with status := .stale }
          else m))
      ∧ (∀ k, k ≠ id → s.line? k = none → t.line? k = none)
      ∧ t.store.stations = s.store.stations ∧ t.settings = s.settings
      ∧ (∀ m ∈ s.store.lines, m.takesMarks = true → child m = true →
          (m.id ∈ t.recheck.queue ∨ t.recheck.scanPending = true) ∧ ∀ f ∈ t.recheck.inFlight, f.id = m.id → f.discard = true)
      ∧ ended.reaches t (.parent id) ∧ (s.store.idsAscending → ended.notesDrop t child)
      ∧ (c.reached = false → id ∉ t.recheck.queue)
      ∧ (c.reached = true → id ∈ t.recheck.queue ∨ t.recheck.scanPending = true)
      ∧ (∀ f ∈ t.recheck.inFlight, f.id = id → f.discard = true)

/-- A commit of the ACTIVE line that passes stages its lists, UNSETTLED, with the line's revision as base, and writes the label; one
that was reached stores no revision, raises DROPPED with reason STALE, and the line is STALE and marked. -/
def Obligations.CommitStagesARevision : Prop :=
  ∀ (p : Port) (c : CommitRun) (id : Nat) (d : Draft) (l : Line) (r : RunContext) (st : Option Staged) (s : State),
    s.running = true → (s.port p).commit = some c →
    (s.port p).claim = some id → (s.port p).draft = some d → c.check.result s.store (d.subject id) = none →
    s.completionRefusal? c (d.subject id) d = none → s.line? id = some l → l.lifecycle = .active r st →
    ∃ t : State, exec (.commitCompletion p) s = .next t
      ∧ (s.commitWritten p c.reached).keepsMachine t (if c.reached then [.dropped, .backlog, .swept] else [])
      ∧ t.line? id = some { l with
          label := d.label
          status := if c.reached then .stale else l.status
          lifecycle := .active r (if c.reached then none else some
            { profile := present d.points, spans := present d.spans, settled := false, base := l.revision }) }
      ∧ (∀ k, k ≠ id → t.line? k = s.line? k) ∧ t.store.stations = s.store.stations ∧ t.settings = s.settings
      ∧ (c.reached = true → t.run.lastDrop = some { id := id, reason := .stale } ∧ (∀ q : Port, .dropped ∈ (t.port q).events)
        ∧ (id ∈ t.recheck.queue ∨ t.recheck.scanPending = true) ∧ ∀ f ∈ t.recheck.inFlight, f.id = id → f.discard = true)
      ∧ (c.reached = false → t.run.lastDrop = s.run.lastDrop ∧ (∀ q : Port, (t.port q).events = (s.port q).events)
        ∧ t.recheck.queue = s.recheck.queue ∧ t.recheck.scanPending = s.recheck.scanPending ∧ t.recheck.backlog = s.recheck.backlog)

/-! ## Retirement and re-checks -/

/-- RETIRE: its tests in order, and then the record is gone, its id leaves the queue and the last drop, a check of it is discarded, and
the claim is empty. A last drop of another id stands. No other line is touched (log 19); a commit in flight whose draft, or whose stored line,
names the line as parent is reached. -/
def Obligations.RetireRemovesTheLine : Prop :=
  ∀ (p : Port) (id : Nat) (s : State), s.ready p (.retire p []) → (s.port p).claim = some id →
    (s.line? id = none → exec (.retire p []) s = .next (s.answered p (.retire p []) (noReply .noline)))
    ∧ (∀ l, s.line? id = some l →
      (l.lifecycle.kind = .active → exec (.retire p []) s = .next (s.answered p (.retire p []) (noReply .state)))
      ∧ (l.lifecycle.kind ≠ .active → (∃ k ∈ s.store.lines, k.parent? = some id) →
        exec (.retire p []) s = .next (s.answered p (.retire p []) (noReply .children)))
      ∧ (l.lifecycle.kind ≠ .active → (∀ k ∈ s.store.lines, k.parent? ≠ some id) →
        ∃ t : State, exec (.retire p []) s = .next t
          ∧ ((s.answered p (.retire p []) okReply).updPort p (fun q => { q with claim := none, draft := none, lapse := none })).keepsMachine
              t [.backlog]
          ∧ t.line? id = none ∧ (∀ k, k ≠ id → t.line? k = s.line? k) ∧ t.store.stations = s.store.stations ∧ t.settings = s.settings
          ∧ id ∉ t.recheck.queue ∧ (∀ k, k ≠ id → (k ∈ t.recheck.queue ↔ k ∈ s.recheck.queue))
          ∧ (∀ f ∈ t.recheck.inFlight, f.id = id → f.discard = true)
          ∧ (∀ x ∈ t.run.lastDrop, x.id ≠ id) ∧ (∀ x ∈ s.run.lastDrop, x.id ≠ id → t.run.lastDrop = some x)
          ∧ (s.run.lastDrop = none → t.run.lastDrop = none) ∧ s.reaches t (.parent id)))

/-- RECHECK marks a PLANNED or ACTIVE line; a COMPLETE or ABANDONED one is refused STATE, and an id without a line NOLINE. Where
the Re-check unit rests with a pass still to begin, as after a restart, it begins the pass before it takes the mark: the model's reading
(log 17). -/
def Obligations.RecheckMarksTheLine : Prop :=
  ∀ (p : Port) (w : Text) (id : Nat) (s : State), s.ready p (.recheck p [w]) → number? w = some (id : Int) → 1 ≤ id → id ≤ 999 →
    (s.line? id = none → exec (.recheck p [w]) s = .next (s.answered p (.recheck p [w]) (noReply .noline)))
    ∧ (∀ l, s.line? id = some l →
      (l.lifecycle.kind = .complete ∨ l.lifecycle.kind = .abandoned →
        exec (.recheck p [w]) s = .next (s.answered p (.recheck p [w]) (noReply .state)))
      ∧ (l.lifecycle.kind = .planned ∨ l.lifecycle.kind = .active →
        ∃ t : State, exec (.recheck p [w]) s = .next t
          ∧ (s.answered p (.recheck p [w]) okReply).keepsMachine t [.dropped, .backlog, .swept] ∧ s.marked t (fun k => k.id == id)
          ∧ s.reaches t (.line id) ∧ t.store.stations = s.store.stations ∧ t.settings = s.settings
          ∧ (∀ m, s.recheck.inFlight = none → s.recheck.queue = [] → s.recheck.scanPending = true → s.recheck.scanPos = none →
            s.store.staleAbove? 0 = some m → t.recheck.scanPos = some m
              ∧ t.recheck.inFlight = some { id := m, discard := m == id, origin := .scan, check := { made := 0, failure := none } })))

/-- CHECK_START with no check in flight: the oldest id of the queue goes in flight; with an empty queue and scan-pending set, the lowest
STALE line above the scan position does, or above 0 as a pass begins. A pass that ends to be repeated begins again at 0 with repeat clear.
A pass that finds none, as it begins or goes on, and is not to be repeated clears scan-pending and raises SWEPT, and BACKLOG where backlog
was on. The backlog flag follows the queue that a start has shortened, raising BACKLOG at a change alone. -/
def Obligations.CheckStartTakesWork : Prop :=
  ∀ s : State, s.running = true → s.recheck.inFlight = none →
    let check := fun (id : Nat) (o : Origin) =>
      some ({ id := id, discard := false, origin := o, check := { made := 0, failure := none } } : InFlight)
    let scans := fun (id : Nat) (again : Bool) => exec .checkStart s = .next { s with recheck :=
      { s.recheck with scanPos := some id, again := again, inFlight := check id .scan } }
    let ends := ∃ t : State, exec .checkStart s = .next t ∧ s.keepsMachine t [.backlog, .swept] ∧ t.store = s.store ∧ t.run = s.run
      ∧ t.recheck = { s.recheck with scanPending := false, scanPos := none, again := false, backlog := false }
      ∧ (∀ q : Port, .swept ∈ (t.port q).events) ∧ (s.recheck.backlog = true → ∀ q : Port, .backlog ∈ (t.port q).events)
    (∀ id rest, s.recheck.queue = id :: rest → ∃ t : State, exec .checkStart s = .next t ∧ s.keepsMachine t [.backlog]
        ∧ t.store = s.store ∧ t.run = s.run
        ∧ t.recheck = { s.recheck with
            queue := rest, inFlight := check id .queue, backlog := s.recheck.backlogAt rest.length s.recheck.scanPending }
        ∧ ∀ q : Port, .backlog ∈ (t.port q).events ↔ .backlog ∈ (s.port q).events ∨ t.recheck.backlog ≠ s.recheck.backlog)
    ∧ (s.recheck.queue = [] → s.recheck.scanPending = false → exec .checkStart s = .next s)
    ∧ (s.recheck.queue = [] → s.recheck.scanPending = true →
      (s.recheck.scanPos = none →
        (∀ id, s.store.staleAbove? 0 = some id → scans id false) ∧ (s.store.staleAbove? 0 = none → ends))
      ∧ (∀ pos, s.recheck.scanPos = some pos →
        (∀ id, s.store.staleAbove? pos = some id → scans id s.recheck.again)
        ∧ (s.store.staleAbove? pos = none → s.recheck.again = false → ends)
        ∧ (s.store.staleAbove? pos = none → s.recheck.again = true →
          (∀ id, s.store.staleAbove? 0 = some id → scans id false) ∧ (s.store.staleAbove? 0 = none → ends))))

/-- RECHECK_COMPLETION: a discarded result changes no line; a pass sets the line CHECKED, a failure CONFLICT with its reason and
location, raising CONFLICT. The unit then looks for work: the oldest id of the queue goes in flight; with an empty queue and scan-pending
set, the lowest STALE line above the scan position does, whatever the origin of the check that has ended, or above 0 as a pass begins or
is repeated; a pass that finds none and is not to be repeated ends, clearing scan-pending and raising SWEPT, and BACKLOG where backlog was
on. With nothing waiting it is at rest and raises SWEPT. The lines judged STALE are those after the result is written. -/
def Obligations.RecheckCompletionWritesTheResult : Prop :=
  ∀ (f : InFlight) (s : State), s.running = true → s.recheck.inFlight = some f →
    ∃ t : State, exec .recheckCompletion s = .next t ∧ s.keepsMachine t [.conflict, .swept, .backlog] ∧ t.run = s.run
      ∧ t.store.stations = s.store.stations ∧ t.settings = s.settings
      ∧ (f.discard = true → t.store = s.store ∧ s.raisesOnly t [.swept, .backlog])
      ∧ (f.discard = false → ∀ l, s.line? f.id = some l →
        (f.check.result s.store l.subject = none → s.raisesOnly t [.swept, .backlog] ∧
          t.store.lines = s.store.lines.map (fun k => if k.id = f.id then { k with status := .checked } else k))
        ∧ (∀ x, f.check.result s.store l.subject = some x →
          t.store.lines = s.store.lines.map (fun k => if k.id = f.id then { k with status := .conflict x } else k)
          ∧ ∀ q : Port, .conflict ∈ (t.port q).events))
      ∧ (let check := fun (id : Nat) (o : Origin) =>
          some ({ id := id, discard := false, origin := o, check := { made := 0, failure := none } } : InFlight)
        let scans := fun (id : Nat) (again : Bool) => t.recheck = { s.recheck with
          scanPos := some id, again := again, inFlight := check id .scan } ∧ s.raisesOnly t [.conflict]
        let ends := t.recheck = { s.recheck with
            scanPending := false, scanPos := none, again := false, backlog := false, inFlight := none }
          ∧ (∀ q : Port, .swept ∈ (t.port q).events) ∧ (s.recheck.backlog = true → ∀ q : Port, .backlog ∈ (t.port q).events)
        (∀ id rest, s.recheck.queue = id :: rest → t.recheck = { s.recheck with
            queue := rest, inFlight := check id .queue, backlog := s.recheck.backlogAt rest.length s.recheck.scanPending }
          ∧ s.raisesOnly t [.conflict, .backlog]
          ∧ ∀ q : Port, .backlog ∈ (t.port q).events ↔ .backlog ∈ (s.port q).events ∨ t.recheck.backlog ≠ s.recheck.backlog)
        ∧ (s.recheck.queue = [] → s.recheck.scanPending = false → f.origin = .queue ∨ s.recheck.scanPos = none →
          t.recheck = { s.recheck with inFlight := none } ∧ ∀ q : Port, .swept ∈ (t.port q).events)
        ∧ (s.recheck.queue = [] → s.recheck.scanPending = true →
          (s.recheck.scanPos = none →
            (∀ id, t.store.staleAbove? 0 = some id → scans id false) ∧ (t.store.staleAbove? 0 = none → ends))
          ∧ (∀ pos, s.recheck.scanPos = some pos →
            (∀ id, t.store.staleAbove? pos = some id → scans id s.recheck.again)
            ∧ (t.store.staleAbove? pos = none → s.recheck.again = false → ends)
            ∧ (t.store.staleAbove? pos = none → s.recheck.again = true →
              (∀ id, t.store.staleAbove? 0 = some id → scans id false) ∧ (t.store.staleAbove? 0 = none → ends)))))

/-! ## The receiver link -/

/-- A complete frame that is bad, carries the receiver fault, or matches no IN_SERVICE station under SIG_MASK adds 1 to LINK_BAD,
LINK_FAULT or LINK_UNMATCHED, hunting resumes, and nothing else changes. Byte by byte: the marker starts a frame, the next four are
collected, the sixth completes it; a framing error or a gap, read on the millisecond clock (log 9), abandons a frame in collection, counted in
LINK_BAD, and does nothing while hunting. A row that brings a whole frame comes while hunting, or as the last byte of that frame (log 2). -/
def Obligations.LinkCollectsAndJudgesFrames : Prop :=
  (∀ (sig flags hi lo check : Byte) (s : State), s.running = true →
      s.link.framing = .hunting ∨ (∃ time, s.link.framing = .collecting [0xC3, sig, flags, hi, lo] time) →
      let high := flags.getLsbD 0
      let low := flags.getLsbD 1
      let fault := flags.getLsbD 2
      let offset := (hi ++ lo).toInt
      let bad := check ≠ sig ^^^ flags ^^^ hi ^^^ lo ^^^ 0x5A ∨ (high = true ∧ low = true)
        ∨ (high = false ∧ low = false ∧ ¬(-120 ≤ offset ∧ offset ≤ 120))
      (bad → exec (.frameComplete sig flags hi lo check) s =
        .next { s with link := { s.link with framing := .hunting, bad := s.link.bad + 1 } })
      ∧ (¬bad → fault = true → exec (.frameComplete sig flags hi lo check) s =
        .next { s with link := { s.link with framing := .hunting, fault := s.link.fault + 1 } })
      ∧ (¬bad → fault = false →
        (∀ n d, s.store.stations.get n = .inService d → s.settings.sigMask &&& d.signature ≠ s.settings.sigMask &&& sig) →
        exec (.frameComplete sig flags hi lo check) s =
          .next { s with link := { s.link with framing := .hunting, unmatched := s.link.unmatched + 1 } }))
    ∧ (∀ s : State, s.running = true →
      (s.link.framing = .hunting →
        (∀ b : Byte, exec (.receiverLinkByte b) s =
          .next (if b = 0xC3 then { s with link := { s.link with framing := .collecting [b] s.time } } else s))
        ∧ exec .frameFramingError s = .next s ∧ exec .frameGapTimeout s = .next s)
      ∧ (∀ (bytes : List Byte) (time : Nat), s.link.framing = .collecting bytes time →
        (∀ b : Byte, bytes.length < 5 →
          exec (.receiverLinkByte b) s = .next { s with link := { s.link with framing := .collecting (bytes ++ [b]) s.time } })
        ∧ (∀ sig flags hi lo check : Byte, bytes = [0xC3, sig, flags, hi, lo] →
          exec (.receiverLinkByte check) s = exec (.frameComplete sig flags hi lo check) s)
        ∧ exec .frameFramingError s = .next { s with link := { s.link with framing := .hunting, bad := s.link.bad + 1 } }
        ∧ (time + 2 ≤ s.time →
          exec .frameGapTimeout s = .next { s with link := { s.link with framing := .hunting, bad := s.link.bad + 1 } })
        ∧ (s.time < time + 2 → exec .frameGapTimeout s = .next s)))

/-- A report accepted for a station becomes its last strike and adds 1 to its accepted count, whatever follows from it. In IDLE, in ARMED
with no wait, and with the chainage unknown and no wait, it adds 1 to LINK_FOREIGN and nothing else changes. A strike of the serving station
while SUSPENDED or HALTED that ends no wait sets the handoff reference, an edge strike leaving it. While digging, a strike of the next
span's station in the handoff zone is compared with a fresh reference: a difference above HANDOFF_TOL halts the run HANDOFF, anything else
changes nothing more; a strike of any other station that is not serving is counted in LINK_FOREIGN alone. -/
def Obligations.AcceptedStrikeIsRecorded : Prop :=
  ∀ (f : Frame) (n : StationId) (s : State), s.running = true → s.frameFits f = true → f.isBad = false → f.receiverFault = false →
    s.store.matchStation? f.signature = some n →
    let row : Instr := .frameComplete f.signature f.flags f.offsetHigh f.offsetLow f.check
    let live := s.link.live.set n
      { last := some { time := s.time, reading := f.reading }, accepted := (s.link.live.get n).accepted + 1 }
    let recorded : State := { s with link := { s.link with framing := .hunting, live := live } }
    let foreign : State := { s with link := { s.link with framing := .hunting, live := live, foreign := s.link.foreign + 1 } }
    (∃ t : State, exec row s = .next t ∧ t.link.live = live ∧ t.link.framing = .hunting ∧ t.link.bad = s.link.bad
      ∧ t.link.fault = s.link.fault ∧ t.link.unmatched = s.link.unmatched)
    ∧ (s.runState? = none ∨ (s.runState? = some .armed ∧ s.run.wait = none) ∨ (s.chain.known = false ∧ s.run.wait = none) →
      exec row s = .next foreign)
    ∧ (∀ (l : Line) (r : RunContext) (x : Span) (k : Nat), s.active? = some l → l.run? = some r → s.chain.known = true →
      s.eval.serving = some k → l.spans[k]? = some x → (∀ w ∈ s.run.wait, w.station ≠ n) →
      (x.station = n → r.state.isStopped = true →
        (∀ d, f.reading = .offset d → exec row s = .next { recorded with
          eval := { s.eval with reference := some { offset := d, chainage := s.chainage, time := s.time } } })
        ∧ (f.reading.offset? = none → exec row s = .next recorded))
      ∧ (x.station ≠ n → r.state.isStopped = true → exec row s = .next foreign)
      ∧ (x.station ≠ n → s.digging = true →
        let inZone := fun y : Span => l.spans[k + 1]? = some y ∧ y.station = n ∧ y.start - s.settings.handoffLen ≤ s.chainage
          ∧ s.chainage < y.start
        ((∀ y, ¬inZone y) → exec row s = .next foreign)
        ∧ (∀ y, inZone y →
          let differs := ∃ d h, f.reading = .offset d ∧ s.eval.reference = some h ∧ s.time - h.time ≤ s.settings.strikeTimeout.toNat
            ∧ s.settings.handoffTol
              < ((measuredAt s.store y s.chainage d - measuredAt s.store x h.chainage h.offset).natAbs : Int)
          (¬differs → exec row s = .next recorded)
          ∧ (differs → exec row s = .next
            ((({ recorded.updRun (fun c => { c with state := .halted .handoff }) with
              run := { s.run with timer := none }
              eval := { s.eval with drive := 0 } } : State).raise .run).raise .halt)))))

/-! ## Evaluation -/

/-- A strike from the serving station while CUTTING or COASTING is evaluated: the grade count and flag are updated, the evaluation is
accrued to its segment, the drive moves toward the demand by SLEW at most, from 0 at the end of a coast, and an offset reading becomes
the handoff reference; a grade flag under GRADE_EFFECT HALT halts the run instead. The end of a coast raises RUN. -/
def Obligations.EvaluationDrivesTheBoom : Prop :=
  ∀ (f : Frame) (n : StationId) (l : Line) (r : RunContext) (x : Span) (s : State), s.running = true → s.frameFits f = true →
    f.isBad = false → f.receiverFault = false → s.store.matchStation? f.signature = some n → s.active? = some l →
    l.run? = some r → r.state = .cutting ∨ r.state = .coasting → s.chain.known = true → s.servingSpan? = some x → x.station = n →
    1 ≤ s.settings.gradeCount →
    let err := f.reading.offset?.map (fun d => measuredAt s.store x s.chainage d - targetAt s.store l r s.chainage)
    let out := ∀ e, err = some e → s.settings.gradeTol < (e.natAbs : Int)
    ∃ t : State, exec (.frameComplete f.signature f.flags f.offsetHigh f.offsetLow f.check) s = .next t
      ∧ (r.state = .coasting → ∀ q : Port, .run ∈ (t.port q).events)
      ∧ (¬out → t.eval.gradeCount = 0 ∧ t.eval.gradeFlag = false)
      ∧ (out → t.eval.gradeCount = min 50 (s.eval.gradeCount + 1)
        ∧ t.eval.gradeFlag = (s.eval.gradeFlag || decide (s.settings.gradeCount ≤ ((min 50 (s.eval.gradeCount + 1) : Nat) : Int))))
      ∧ (s.eval.gradeFlag = false → t.eval.gradeFlag = true → ∀ q : Port, .grade ∈ (t.port q).events)
      ∧ (t.eval.gradeFlag = true ∧ s.settings.gradeEffect = .halt → t.runState? = some (.halted .grade) ∧ t.eval.drive = 0
        ∧ t.run.timer = none ∧ ∀ q : Port, .halt ∈ (t.port q).events ∧ .run ∈ (t.port q).events)
      ∧ (t.eval.gradeFlag = false ∨ s.settings.gradeEffect = .report →
        t.runState? = some .cutting ∧ t.run.timer = some (s.time + s.settings.strikeTimeout.toNat)
        ∧ t.active?.map (fun k => k.profile) = some (l.accrue s.chainage err t.eval.gradeFlag).profile
        ∧ (∀ d, f.reading = .offset d → t.eval.reference = some { offset := d, chainage := s.chainage, time := s.time })
        ∧ (f.reading.offset? = none → t.eval.reference = s.eval.reference)
        ∧ (∀ level dem : Int, level = (if r.state = .cutting then s.eval.drive else 0) →
          (match f.reading, err with
            | .edgeHigh, _ => dem = 1000
            | .edgeLow, _ => dem = -1000
            | .offset _, some e =>
              if (e.natAbs : Int) ≤ s.settings.deadband then dem = 0
              else dem = max (-1000) (min 1000 (-(s.settings.gain * e)))
            | .offset _, none => False) →
          t.eval.drive =
            if ((dem - level).natAbs : Int) ≤ s.settings.slew then dem
            else if level < dem then level + s.settings.slew else level - s.settings.slew))

/-- The strike that ends a TIE wait in ARMED: NO STATE for a line no longer CHECKED, NO TIEOUT EDGE, NO TIEOUT with the difference when
it exceeds TIE_TOL, and otherwise the dig starts: position and F 0, segment 0 OPEN, CUTTING, span 0 serving, the strike timer set. The
strike that ends a RETIE wait: NO TIEOUT EDGE, NO TIEOUT with the difference, or the position preset to the chainage named and
retie-required cleared, the run staying stopped with its reason and F; refused, it is still a handoff reference. -/
def Obligations.StrikeEndsTheWait : Prop :=
  (∀ (f : Frame) (w : TieWait) (l : Line) (r : RunContext) (x : Span) (s : State), s.running = true → s.frameFits f = true →
      f.isBad = false → f.receiverFault = false → s.store.matchStation? f.signature = some w.station → s.run.wait = some w → w.kind = .tie →
      s.active? = some l → l.run? = some r → r.state = .armed → l.spans.head? = some x → s.cab.hand = .waiting (.tie .cab []) →
      ∃ t : State, exec (.frameComplete f.signature f.flags f.offsetHigh f.offsetLow f.check) s = .next t ∧ t.run.wait = none
        ∧ (l.status ≠ .checked → t.cab.hand = .sending (some (.tie .cab [])) (noReply .state) ∧ t.store = s.store ∧ t.chain = s.chain)
        ∧ (l.status = .checked → f.reading.offset? = none →
          t.cab.hand = .sending (some (.tie .cab [])) (.no .tieout [.word "EDGE"]) ∧ t.store = s.store ∧ t.chain = s.chain)
        ∧ (∀ d diff, l.status = .checked → f.reading = .offset d →
          diff = measuredAt s.store x 0 d - (invertAt l.points 0 - trimAt r s.settings.trimRamp 0) →
          (s.settings.tieTol < (diff.natAbs : Int) →
            t.cab.hand = .sending (some (.tie .cab [])) (.no .tieout [.num diff]) ∧ t.store = s.store ∧ t.chain = s.chain)
          ∧ ((diff.natAbs : Int) ≤ s.settings.tieTol →
            t.cab.hand = .sending (some (.tie .cab [])) (.ok [.num diff])
            ∧ t.context? = some { r with state := .cutting, furthest := some 0 }
            ∧ t.chain.known = true ∧ t.chain.position = 0 ∧ (t.chain.endWarned = true ↔ l.length - s.settings.endWarn ≤ 0)
            ∧ t.active?.map (fun k => k.profile) = some (updNth 0 (fun b =>
                { b with closure := some { state := .opened, worst := 0, edge := false, grade := false, coasted := 0 } }) l.profile)
            ∧ t.eval = { serving := some 0, gradeCount := 0, gradeFlag := false, drive := 0, reference := none }
            ∧ t.run.timer = some (s.time + s.settings.strikeTimeout.toNat) ∧ ∀ q : Port, .run ∈ (t.port q).events)))
    ∧ (∀ (f : Frame) (w : TieWait) (l : Line) (r : RunContext) (x : Span) (mm : Text) (s : State), s.running = true → s.frameFits f = true →
      f.isBad = false → f.receiverFault = false → s.store.matchStation? f.signature = some w.station → s.run.wait = some w →
      w.kind = .retie → s.active? = some l → l.run? = some r → r.state.isStopped = true → l.spans[spanIndex l.spans w.chainage]? = some x →
      s.cab.hand = .waiting (.retie .cab [mm]) →
      ∃ t : State, exec (.frameComplete f.signature f.flags f.offsetHigh f.offsetLow f.check) s = .next t ∧ t.run.wait = none
        ∧ (f.reading.offset? = none → t.cab.hand = .sending (some (.retie .cab [mm])) (.no .tieout [.word "EDGE"])
          ∧ t.store = s.store ∧ t.chain = s.chain)
        ∧ (∀ d diff, f.reading = .offset d →
          diff = measuredAt s.store x w.chainage d - (invertAt l.points w.chainage - trimAt r s.settings.trimRamp w.chainage) →
          (s.settings.tieTol < (diff.natAbs : Int) →
            t.cab.hand = .sending (some (.retie .cab [mm])) (.no .tieout [.num diff]) ∧ t.store = s.store ∧ t.chain = s.chain
            ∧ (s.chain.known = true → s.servingStation? = some w.station →
              t.eval = { s.eval with reference := some { offset := d, chainage := s.chainage, time := s.time } }))
          ∧ ((diff.natAbs : Int) ≤ s.settings.tieTol →
            t.cab.hand = .sending (some (.retie .cab [mm])) (.ok [.num diff]) ∧ t.context? = some { r with retie := false }
            ∧ t.chain = { s.chain with known := true, position := w.chainage * 1000 } ∧ t.chainage = w.chainage
            ∧ t.eval.serving = some (spanIndex l.spans w.chainage))))

/-! ## The odometer -/

/-- A transition of one channel is taken as the reference and counts as the table gives for ODO_DECODE; a count moves the position by
ODO_SCALE while the chainage is known and the result lies within ±2,400,000 mm, and outside CUTTING and COASTING a new chainage moves the
serving span, dropping the handoff reference where that is a switch, and nothing else. A transition of both channels at once is taken as the reference, adds 1 to ODO_INVALID and gives no count. -/
def Obligations.OdometerDecodesTransitions : Prop :=
  (∀ (ch : Channel) (s : State), s.running = true →
      let v := (s.chain.levelA, s.chain.levelB)
      let w := match ch with
        | .a => (!s.chain.levelA, s.chain.levelB)
        | .b => (s.chain.levelA, !s.chain.levelB)
      let x4 := s.settings.odoDecode = .x4
      let x2 := s.settings.odoDecode = .x4 ∨ s.settings.odoDecode = .x2
      let forward := (v = (false, false) ∧ w = (true, false)) ∨ (x4 ∧ v = (true, false) ∧ w = (true, true))
        ∨ (x2 ∧ v = (true, true) ∧ w = (false, true)) ∨ (x4 ∧ v = (false, true) ∧ w = (false, false))
      let reverse := (v = (true, false) ∧ w = (false, false)) ∨ (x4 ∧ v = (true, true) ∧ w = (true, false))
        ∨ (x2 ∧ v = (false, true) ∧ w = (true, true)) ∨ (x4 ∧ v = (false, false) ∧ w = (false, true))
      let still : State := { s with chain := { s.chain with levelA := w.1, levelB := w.2 } }
      (¬forward → ¬reverse → exec (.odoValidTransition ch) s = .next still)
      ∧ (∀ p : Int, (forward → p = s.chain.position + s.settings.odoScale) → (reverse → p = s.chain.position - s.settings.odoScale) →
        forward ∨ reverse →
        (s.chain.known = false ∨ ¬(-2400000000 ≤ p ∧ p ≤ 2400000000) → exec (.odoValidTransition ch) s = .next still)
        ∧ (s.chain.known = true → -2400000000 ≤ p → p ≤ 2400000000 →
          let moved := { s.chain with levelA := w.1, levelB := w.2, position := p }
          (Int.tdiv p 1000 = s.chainage → exec (.odoValidTransition ch) s = .next { s with chain := moved })
          ∧ (Int.tdiv p 1000 ≠ s.chainage → s.digging = false →
            let k := spanIndex s.spanList (Int.tdiv p 1000)
            exec (.odoValidTransition ch) s = .next { s with chain := moved, eval := { s.eval with
              serving := some k, reference := if s.eval.serving = some k then s.eval.reference else none } }))))
    ∧ (∀ s : State, s.running = true → exec .odoInvalidTransition s = .next { s with chain :=
      { s.chain with levelA := !s.chain.levelA, levelB := !s.chain.levelB, odoInvalid := s.chain.odoInvalid + 1 } })

/-- A count that moves the chainage while CUTTING or COASTING. Below F − BACKUP the run is HALTED with reason BACKTRACK, F kept. Otherwise the
span that covers the chainage serves, and a switch drops the handoff reference: in CUTTING a fresh last strike of the new station moves the
strike timer, and without one the run is COASTING. Not above F, nothing else changes. Above F, with no point of the walk met, F moves on from
there to the chainage: an OPEN segment that ends at F − BACKUP or before is closed, raising CLOSE; in COASTING the OPEN segments crossed, and the coast
distance, take the advance, and the run is HALTED at COAST_LIMIT. The model's readings are that the BACKTRACK test comes before the switch
of the serving span (log 13), and that a count taken in CUTTING whose switch begins a coast is not one taken in COASTING, so that its advance
is not accrued (log 16). -/
def Obligations.AdvanceMovesF : Prop :=
  ∀ (ch : Channel) (l : Line) (r : RunContext) (f p : Int) (s : State), s.digsTo ch l r f p → 0 ≤ s.settings.backup →
    let c := Int.tdiv p 1000
    let k := spanIndex l.spans c
    let moved := s.movedTo ch p
    let becomes := fun t : State => exec (.odoValidTransition ch) s = .next t
    (c < f - s.settings.backup → becomes ((({ moved.updRun (fun x => { x with state := .halted .backtrack }) with
        run := { s.run with timer := none }
        eval := { s.eval with drive := 0, serving := some k, reference := if s.eval.serving = some k then s.eval.reference else none } }
          : State).raise .run).raise .halt))
    ∧ (f - s.settings.backup ≤ c → c ≤ f → ∀ (b : State) (r' : RunContext), moved.servesWith l r k b r' → becomes b)
    ∧ (f < c → s.noPoint l r f c → ∃ t : State, becomes t ∧ s.digsOn t l.profile f c (r.state == .coasting) ∧ t.chain = moved.chain
      ∧ t.eval.serving = some k ∧ (s.eval.serving ≠ some k → t.eval.reference = none)
      ∧ t.link = s.link ∧ t.recheck = s.recheck ∧ t.settings = s.settings ∧ t.store.stations = s.store.stations
      ∧ (∀ m ∈ s.store.lines, m.isActive = false → m ∈ t.store.lines)
      ∧ (∀ q : Port, (s.port q).keeps (t.port q)) ∧ s.raisesOnly t [.run, .coast, .halt, .close]
      ∧ (∀ q : Port, .close ∈ (t.port q).events ↔ .close ∈ (s.port q).events
          ∨ ∃ (i : Nat) (b e : Breakpoint) (x : Closure), l.profile[i]? = some b ∧ b.closure = some x ∧ x.state = .opened
            ∧ l.profile[i + 1]? = some e ∧ e.point.chainage + s.settings.backup ≤ c)
      ∧ ∀ (b : State) (r' : RunContext), moved.servesWith l r k b r' →
        (r.state = .cutting → t.run = b.run ∧ t.eval = b.eval ∧ t.context? = some { r' with furthest := some c } ∧ b.raisesOnly t [.close])
        ∧ (r.state = .coasting →
          let coast := s.run.coast + (c - f)
          (coast < s.settings.coastLimit → t.run = { b.run with coast := coast } ∧ t.eval = b.eval
            ∧ t.context? = some { r' with furthest := some c } ∧ b.raisesOnly t [.close])
          ∧ (s.settings.coastLimit ≤ coast → t.run = { b.run with coast := coast, timer := none } ∧ t.eval = { b.eval with drive := 0 }
            ∧ t.context? = some { r' with furthest := some c, state := .halted .coast } ∧ t.permit = false
            ∧ b.raisesOnly t [.run, .halt, .close] ∧ ∀ q : Port, .run ∈ (t.port q).events ∧ .halt ∈ (t.port q).events)))

/-- The points that an advance of F meets, each alone in its advance. A breakpoint crossing enters the segment OPEN; an UNSETTLED revision
raises WAITING; a SETTLED one that does not meet the freeze condition at that chainage goes with DROPPED and reason FROZEN, and one that meets
it replaces the lists, the closure parts carried index by index, the revision increased; a new end-warning point at or below the crossing
waits for the next advance. A mark raises MARK, is disarmed, and with SUSPEND
suspends a run that still digs. The end warning, at its point or late, raises ENDNEAR once. The length completes the line: OPEN segments closed, COMPLETE,
IDLE, RUN and DONE raised, a staged revision gone with DROPPED. The serving span is moved first. Except at completion F is the chainage, and the segments and the coast
distance take the advance. The model's readings are that an advance in COASTING that completes the line is not accrued (log 15), and that a
count taken in CUTTING is not one taken in COASTING, though an application on its way switches the serving span and begins a coast
(log 16). -/
def Obligations.WalkMeetsItsPoints : Prop :=
  ∀ (ch : Channel) (l : Line) (r : RunContext) (f p : Int) (s : State), s.digsTo ch l r f p → 0 ≤ s.settings.backup →
    f < Int.tdiv p 1000 → ∀ (b : State) (r' : RunContext), (s.movedTo ch p).servesWith l r (spanIndex l.spans (Int.tdiv p 1000)) b r' →
    b.walkMeets l r' f (r.state == .coasting) (fun P => ∃ t : State, exec (.odoValidTransition ch) s = .next t ∧ P t)

/-! ## The run commands -/

/-- SELECT: its tests in order, and then the line ACTIVE with a fresh run context in ARMED, the chainage unknown, RUN raised. -/
def Obligations.SelectArmsTheRun : Prop :=
  ∀ (w : Text) (id : Nat) (s : State), s.ready .cab (.select .cab [w]) → number? w = some (id : Int) → 1 ≤ id → id ≤ 999 →
    let fresh : RunContext :=
      { state := .armed, retie := false, furthest := none, mark1 := none, mark2 := none, trimFrom := 0, trimTo := 0, rampStart := 0 }
    (s.context? ≠ none → exec (.select .cab [w]) s = .next (s.answered .cab (.select .cab [w]) (noReply .state)))
    ∧ (s.context? = none → s.line? id = none → exec (.select .cab [w]) s = .next (s.answered .cab (.select .cab [w]) (noReply .noline)))
    ∧ (∀ l, s.context? = none → s.line? id = some l →
      let fit := l.lifecycle.kind = .planned ∧ l.status = .checked
        ∧ ∀ q, l.parent? = some q → ∃ k, s.line? q = some k ∧ k.lifecycle.kind = .complete
      (¬fit → exec (.select .cab [w]) s = .next (s.answered .cab (.select .cab [w]) (noReply .state)))
      ∧ (∀ h, fit → s.holder? id = some h →
        exec (.select .cab [w]) s = .next (s.answered .cab (.select .cab [w]) (.no .held [portField h])))
      ∧ (fit → s.holder? id = none → exec (.select .cab [w]) s = .next
        (({ (s.answered .cab (.select .cab [w]) okReply).updLine id (fun k => { k with lifecycle := .active fresh none }) with
          chain := { s.chain with known := false, position := 0, endWarned := false }
          run := { s.run with coast := 0, timer := none, wait := none }
          eval := { serving := none, gradeCount := 0, gradeFlag := false, drive := 0, reference := none } } : State).raise .run)))

/-- DESELECT in ARMED returns the ACTIVE line to PLANNED; ABANDON in ARMED, SUSPENDED or HALTED closes its OPEN segments and sets it
ABANDONED, marking its children, by record or by draft in flight (log 20). The run is IDLE, the chainage unknown, RUN raised, and a staged revision gone with DROPPED and
the last drop set, with reason DESELECT or ABANDON. -/
def Obligations.RunEndsWithItsLine : Prop :=
  ∀ (l : Line) (r : RunContext) (s : State), s.active? = some l → l.run? = some r →
    let ended : State → State := fun u => { u with
      chain := { s.chain with known := false, position := 0 }
      run := { s.run with coast := 0, timer := none, wait := none }
      eval := { serving := none, gradeCount := 0, gradeFlag := false, drive := 0, reference := none } }
    (s.ready .cab (.deselect .cab []) →
      let u := ((ended (s.answered .cab (.deselect .cab []) okReply)).updActive (fun k => { k with lifecycle := .planned })).raise .run
      (r.state ≠ .armed → exec (.deselect .cab []) s = .next (s.answered .cab (.deselect .cab []) (noReply .state)))
      ∧ (r.state = .armed → l.staged? = none → exec (.deselect .cab []) s = .next u)
      ∧ (r.state = .armed → l.staged? ≠ none → exec (.deselect .cab []) s = .next { u.raise .dropped with
          run := { u.run with lastDrop := some { id := l.id, reason := .deselect } } }))
    ∧ (s.ready .cab (.abandon .cab []) →
      (r.state = .cutting ∨ r.state = .coasting →
        exec (.abandon .cab []) s = .next (s.answered .cab (.abandon .cab []) (noReply .state)))
      ∧ (r.state = .armed ∨ r.state.isStopped = true → ∃ t : State, exec (.abandon .cab []) s = .next t
        ∧ (ended (s.answered .cab (.abandon .cab []) okReply)).keepsMachine t [.run, .dropped, .backlog, .swept]
        ∧ t.store.stations = s.store.stations ∧ t.settings = s.settings
        ∧ t.store.lines = s.store.lines.map (fun k =>
            if k.isActive then { k with lifecycle := .abandoned, profile := k.profile.map (fun b =>
              { b with closure := b.closure.map (fun c => { c with state := .closed }) }) }
            else if k.takesMarks && s.marksLine (.parent l.id) k then { k.setStaged none with status := .stale } else k)
        ∧ (∀ k ∈ s.store.lines, k.isActive = false → k.takesMarks = true → s.marksLine (.parent l.id) k = true →
            k.id ∈ t.recheck.queue ∨ t.recheck.scanPending = true)
        ∧ (l.staged? ≠ none → t.run.lastDrop = some { id := l.id, reason := .abandon } ∧ ∀ q : Port, .dropped ∈ (t.port q).events)
        ∧ (l.staged? = none → t.run.lastDrop = s.run.lastDrop
          ∧ ∀ q : Port, .dropped ∈ (t.port q).events ↔ .dropped ∈ (s.port q).events)
        ∧ s.reaches t (.parent l.id)
        ∧ ∀ q : Port, .run ∈ (t.port q).events))

/-- TIE and RETIE set up a wait with a deadline of the present time plus STRIKE_TIMEOUT, naming the station of the span that covers its
chainage, and the port stays busy; when the deadline passes (log 8) the reply is NO NOSTRIKE and the wait is over. -/
def Obligations.WaitsAreSetUpAndExpire : Prop :=
  (∀ (l : Line) (r : RunContext) (x : Span) (s : State), s.ready .cab (.tie .cab []) → s.active? = some l → l.run? = some r →
      l.spans.head? = some x →
      (r.state ≠ .armed ∨ l.status ≠ .checked → exec (.tie .cab []) s = .next (s.answered .cab (.tie .cab []) (noReply .state)))
      ∧ (r.state = .armed → l.status = .checked → exec (.tie .cab []) s = .next { s with
        cab := { s.cab with buffer := emptyBuffer, lapse := none, hand := .waiting (.tie .cab []) }
        run := { s.run with wait := some { kind := .tie, station := x.station, chainage := 0,
                                           deadline := s.time + s.settings.strikeTimeout.toNat } } }))
    ∧ (∀ (l : Line) (r : RunContext) (x : Span) (w : Text) (mm f : Int) (s : State), s.ready .cab (.retie .cab [w]) →
      number? w = some mm → s.active? = some l → l.run? = some r → r.furthest = some f →
      l.spans[spanIndex l.spans mm]? = some x →
      (r.state.isStopped = false → exec (.retie .cab [w]) s = .next (s.answered .cab (.retie .cab [w]) (noReply .state)))
      ∧ (r.state.isStopped = true → mm < f - s.settings.backup ∨ f < mm →
        exec (.retie .cab [w]) s = .next (s.answered .cab (.retie .cab [w]) (noReply .range)))
      ∧ (r.state.isStopped = true → f - s.settings.backup ≤ mm → mm ≤ f → exec (.retie .cab [w]) s = .next { s with
        cab := { s.cab with buffer := emptyBuffer, lapse := none, hand := .waiting (.retie .cab [w]) }
        run := { s.run with wait := some { kind := .retie, station := x.station, chainage := mm,
                                           deadline := s.time + s.settings.strikeTimeout.toNat } } }))
    ∧ (∀ (w : TieWait) (s : State), s.running = true → s.run.wait = some w →
      (s.time < w.deadline → exec .tieWaitDeadline s = .next s)
      ∧ (w.deadline ≤ s.time → exec .tieWaitDeadline s = .next { s with
        cab := { s.cab with hand := .sending s.cab.hand.command? (noReply .nostrike) }
        run := { s.run with wait := none } }))

/-- SUSPEND, on either port: SYNTAX for any argument, STATE unless the run is CUTTING or COASTING, and otherwise SUSPENDED with reason
OPERATOR, the permit withdrawn, the strike timer stopped, the drive 0, RUN raised, and nothing else changed. -/
def Obligations.SuspendStopsTheRun : Prop :=
  ∀ (p : Port) (args : List Text) (s : State), s.ready p (.suspend p args) →
    (args ≠ [] → exec (.suspend p args) s = .next (s.answered p (.suspend p args) (noReply .syn)))
    ∧ (args = [] → s.runState? ≠ some .cutting → s.runState? ≠ some .coasting →
      exec (.suspend p args) s = .next (s.answered p (.suspend p args) (noReply .state)))
    ∧ (args = [] → s.runState? = some .cutting ∨ s.runState? = some .coasting →
      ∃ t : State, exec (.suspend p args) s = .next t ∧ t.permit = false ∧ t.runState? = some (.suspended .operator)
        ∧ t = ({ (s.answered p (.suspend p args) okReply).updRun (fun c => { c with state := .suspended .operator }) with
          run := { s.run with timer := none }
          eval := { s.eval with drive := 0 } } : State).raise .run)

/-- The strike timer running out in CUTTING: COASTING with coast distance 0, the timer stopped, the drive 0, RUN and COAST raised; with
COAST_LIMIT 0 the run goes on to HALTED with reason COAST, raising HALT too. Before its deadline (log 8) the row does nothing. -/
def Obligations.StrikeTimerCoasts : Prop :=
  ∀ (d : Nat) (s : State), s.running = true → s.runState? = some .cutting → s.run.timer = some d →
    let coasting : RunState → State := fun x => { s.updRun (fun c => { c with state := x }) with
      run := { s.run with coast := 0, timer := none }
      eval := { s.eval with drive := 0 } }
    (s.time < d → exec .strikeTimerExpiry s = .next s)
    ∧ (d ≤ s.time → 0 < s.settings.coastLimit →
      exec .strikeTimerExpiry s = .next (((coasting .coasting).raise .run).raise .coast))
    ∧ (d ≤ s.time → s.settings.coastLimit ≤ 0 →
      ∃ t : State, exec .strikeTimerExpiry s = .next t ∧ t.store = (coasting (.halted .coast)).store
        ∧ t.run = (coasting (.halted .coast)).run ∧ t.eval = (coasting (.halted .coast)).eval ∧ t.chain = s.chain ∧ t.recheck = s.recheck
        ∧ t.link = s.link ∧ t.time = s.time ∧ t.pending = s.pending ∧ (∀ q : Port, (s.port q).keeps (t.port q))
        ∧ (∀ (q : Port) (k : EventKind), k ∈ (t.port q).events ↔ k ∈ (s.port q).events ∨ k = .run ∨ k = .coast ∨ k = .halt))

/-- RESUME: its tests in order, and then CUTTING with coast distance 0, grade count and flag cleared, the drive 0, the strike timer set from
the serving station's last strike, and RUN raised. A chainage above F, by 200 mm at most, advances F to it, with the walk that follows:
each point it meets, alone in its advance, leads on as for an advance by a count. -/
def Obligations.ResumeCutsAgain : Prop :=
  ∀ (l : Line) (r : RunContext) (f : Int) (s : State), s.ready .cab (.resume .cab []) → s.active? = some l → l.run? = some r →
    r.furthest = some f →
    let refused := fun x : Reason => exec (.resume .cab []) s = .next (s.answered .cab (.resume .cab []) (noReply x))
    let cuts := fun k : Strike => ({ (s.answered .cab (.resume .cab []) okReply).updRun (fun c => { c with state := .cutting }) with
      run := { s.run with coast := 0, timer := some (k.time + s.settings.strikeTimeout.toNat) }
      eval := { s.eval with drive := 0, gradeCount := 0, gradeFlag := false } } : State).raise .run
    (r.state.isStopped = false → refused .state)
    ∧ (r.state.isStopped = true → (r.retie = true → refused .retie) ∧ (r.retie = false →
      (l.status ≠ .checked → refused .state) ∧ (l.status = .checked →
        (s.chainage < f - s.settings.backup → refused .backtrack)
        ∧ (f - s.settings.backup ≤ s.chainage → f + 200 < s.chainage → refused .gap)
        ∧ (f - s.settings.backup ≤ s.chainage → s.chainage ≤ f + 200 →
          ((∀ n k, s.servingStation? = some n → s.lastStrike? n = some k → s.settings.strikeTimeout.toNat < s.time - k.time) →
            refused .nostrike)
          ∧ (∀ n k, s.servingStation? = some n → s.lastStrike? n = some k → s.time - k.time ≤ s.settings.strikeTimeout.toNat →
            s.chainage ≤ f →
            exec (.resume .cab []) s = .next (cuts k))
          ∧ (∀ n k, s.servingStation? = some n → s.lastStrike? n = some k → s.time - k.time ≤ s.settings.strikeTimeout.toNat →
            f < s.chainage → ∃ t : State, exec (.resume .cab []) s = .next t
              ∧ t.cab.hand = .sending (some (.resume .cab [])) okReply ∧ (∀ q : Port, .run ∈ (t.port q).events)
              ∧ (0 ≤ s.settings.backup → s.noPoint l r f s.chainage →
                s.digsOn t l.profile f s.chainage false ∧ t.chain = s.chain
                ∧ t.context? = some { r with state := .cutting, furthest := some s.chainage }
                ∧ t.run = { s.run with coast := 0, timer := some (k.time + s.settings.strikeTimeout.toNat) }
                ∧ t.eval = { s.eval with drive := 0, gradeCount := 0, gradeFlag := false })
              ∧ (0 ≤ s.settings.backup → s.eval.serving = some (spanIndex l.spans s.chainage) →
                (cuts k).walkMeets l { r with state := .cutting } f false (fun P => P t)))))))

/-- MARK arms a mark above F, or above 0 while F is unset, and below the length, or disarms it; TRIM sets the trim along the whole line
while F is unset, and otherwise starts a ramp at F from the effective trim there, refusing a trim below it BACKFALL. That TRIM while F is
unset answers with its own value is the model's reading (log 36). -/
def Obligations.MarkAndTrimSet : Prop :=
  ∀ (l : Line) (r : RunContext) (s : State), s.active? = some l → l.run? = some r →
    (∀ (args : List Text) (n mm : Int) (suspends : Bool), s.ready .cab (.mark .cab args) → markForm? args = some (.arm n mm suspends) →
      exec (.mark .cab args) s = .next (
        if 1 ≤ n ∧ n ≤ 2 ∧ r.furthest.getD 0 < mm ∧ mm < l.length then
          (s.answered .cab (.mark .cab args) okReply).updRun (fun c =>
            if n = 1 then { c with mark1 := some { chainage := mm, suspends := suspends } }
            else { c with mark2 := some { chainage := mm, suspends := suspends } })
        else s.answered .cab (.mark .cab args) (noReply .range)))
    ∧ (∀ (args : List Text) (n : Int), s.ready .cab (.mark .cab args) → markForm? args = some (.off n) →
      exec (.mark .cab args) s = .next (
        if 1 ≤ n ∧ n ≤ 2 then
          (s.answered .cab (.mark .cab args) okReply).updRun (fun c => if n = 1 then { c with mark1 := none } else { c with mark2 := none })
        else s.answered .cab (.mark .cab args) (noReply .range)))
    ∧ (∀ (w : Text) (mm : Int), s.ready .cab (.trim .cab [w]) → number? w = some mm →
      (¬(-50 ≤ mm ∧ mm ≤ 50) → exec (.trim .cab [w]) s = .next (s.answered .cab (.trim .cab [w]) (noReply .range)))
      ∧ (-50 ≤ mm → mm ≤ 50 →
        (r.furthest = none → exec (.trim .cab [w]) s = .next ((s.answered .cab (.trim .cab [w]) (.ok [.num mm])).updRun
          (fun c => { c with trimFrom := mm, trimTo := mm, rampStart := 0 })))
        ∧ (∀ f eff : Int, r.furthest = some f → eff = trimAt r s.settings.trimRamp f →
          (mm < eff → exec (.trim .cab [w]) s = .next (s.answered .cab (.trim .cab [w]) (noReply .backfall)))
          ∧ (eff ≤ mm → exec (.trim .cab [w]) s = .next ((s.answered .cab (.trim .cab [w]) (.ok [.num eff])).updRun
            (fun c => { c with trimFrom := eff, trimTo := mm, rampStart := f }))))))

/-! ## Staged revisions -/

/-- While a revision is staged: SETTLE while digging and UNSETTLE set its state and nothing else; UNSTAGE discards it with DROPPED and
reason UNSTAGE, on the PLAN port only under a claim of the ACTIVE line. -/
def Obligations.RevisionCommands : Prop :=
  ∀ (l : Line) (st : Staged) (s : State), s.active? = some l → l.staged? = some st →
    let settled := fun (b : Bool) (k : Line) => k.setStaged (k.staged?.map (fun g => { g with settled := b }))
    (s.ready .cab (.settle .cab []) → s.digging = true →
      exec (.settle .cab []) s = .next ((s.answered .cab (.settle .cab []) okReply).updActive (settled true)))
    ∧ (∀ p : Port, s.ready p (.unsettle p []) →
      exec (.unsettle p []) s = .next ((s.answered p (.unsettle p []) okReply).updActive (settled false)))
    ∧ (∀ p : Port, s.ready p (.unstage p []) →
      (p = .plan → s.plan.claim ≠ some l.id → exec (.unstage p []) s = .next (s.answered p (.unstage p []) (noReply .noclaim)))
      ∧ (p = .cab ∨ s.plan.claim = some l.id → exec (.unstage p []) s = .next
        { ((s.answered p (.unstage p []) okReply).updActive (fun k => k.setStaged none)).raise .dropped with
          run := { s.run with lastDrop := some { id := l.id, reason := .unstage } } }))

/-- SETTLE while the run is ARMED, SUSPENDED or HALTED: a revision that does not meet the freeze condition is discarded FROZEN; one that
meets it replaces the lists, the closure parts carried index by index, with the revision increased. Its children, by record or by draft in
flight (log 20), are marked, and the line itself unless CHECKED; commits in flight that name it are reached; a check of it in flight is
discarded. Marks at or beyond the new length are disarmed, and a changed length clears the end-warning flag while F is below the new
point. -/
def Obligations.SettleAppliesAtOnce : Prop :=
  ∀ (l : Line) (r : RunContext) (st : Staged) (s : State), s.store.idsAscending → s.ready .cab (.settle .cab []) →
    s.active? = some l → l.run? = some r → l.staged? = some st → s.digging = false →
    (meetsFreeze s.store l r.furthest st.profile st.spans = false → exec (.settle .cab []) s = .next
      { ((s.answered .cab (.settle .cab []) (noReply .frozen)).updActive (fun k => k.setStaged none)).raise .dropped with
        run := { s.run with lastDrop := some { id := l.id, reason := .frozen } } })
    ∧ (meetsFreeze s.store l r.furthest st.profile st.spans = true → s.marksLine (.parent l.id) l = false →
      let length := lengthOf st.profile
      let fits := fun m : Option Mark => m.filter (fun k => decide (k.chainage < length))
      ∃ (t : State) (k : Line), exec (.settle .cab []) s = .next t
        ∧ t.cab.hand = .sending (some (.settle .cab [])) (.ok [.word "REVISED", countField (l.revision + 1)])
        ∧ t.active? = some k ∧ k.id = l.id ∧ k.spans = st.spans ∧ k.revision = l.revision + 1 ∧ k.staged? = none
        ∧ k.points = st.profile
        ∧ (∀ i : Nat, (k.profile[i]?).bind (fun b => b.closure) =
            if i < st.profile.length then (l.profile[i]?).bind (fun b => b.closure) else none)
        ∧ k.status = (if l.status = .checked then .checked else .stale)
        ∧ k.run? = some { r with mark1 := fits r.mark1, mark2 := fits r.mark2 }
        ∧ t.chain = { s.chain with endWarned := s.chain.endWarned
            && !(decide (length ≠ l.length) && r.furthest.all (fun f => decide (f < length - s.settings.endWarn))) }
        ∧ t.eval.serving = (if s.chain.known then some (spanIndex st.spans s.chainage) else none)
        ∧ t.run = s.run ∧ t.store.stations = s.store.stations ∧ t.settings = s.settings
        ∧ t.store.lines.length = s.store.lines.length
        ∧ (∀ (i : Nat) (m : Line), s.store.lines[i]? = some m → m.isActive = false → t.store.lines[i]? = some
            (if m.takesMarks && s.marksLine (.parent l.id) m then { m.setStaged none with status := .stale } else m))
        ∧ (∀ m ∈ s.store.lines, (m.isActive = false ∧ m.takesMarks = true ∧ s.marksLine (.parent l.id) m = true)
              ∨ (m = l ∧ l.status ≠ .checked) →
            (m.id ∈ t.recheck.queue ∨ t.recheck.scanPending = true) ∧ ∀ f ∈ t.recheck.inFlight, f.id = m.id → f.discard = true)
        ∧ (∀ f ∈ t.recheck.inFlight, f.id = l.id → f.discard = true)
        ∧ s.reaches t (.parent l.id) ∧ s.raisesOnly t [.revised, .backlog, .swept] ∧ ∀ q : Port, .revised ∈ (t.port q).events)

/-! ## Events, settings, restart -/

/-- ACK clears the kinds named, or every kind with ALL, in this port's set; with no name or a word that is neither a kind nor ALL it is
refused SYNTAX. MASK name ON puts the kind into this port's mask and OFF takes it out; other words are SYNTAX. Nothing else changes.
That ALL may stand among names, and that MASK takes no further word, is the model's reading (log 23). -/
def Obligations.AckAndMask : Prop :=
  (∀ (p : Port) (args : List Text) (s : State), s.ready p (.ack p args) →
      let good := args ≠ [] ∧ ∀ w ∈ args, isKeyword "ALL" w = true ∨ eventKind? w ≠ none
      (¬good → exec (.ack p args) s = .next (s.answered p (.ack p args) (noReply .syn)))
      ∧ (good → ∃ es : List EventKind,
        exec (.ack p args) s = .next ((s.answered p (.ack p args) okReply).updPort p (fun q => { q with events := es }))
        ∧ ∀ k : EventKind, k ∈ es ↔ k ∈ (s.port p).events
            ∧ ¬∃ w ∈ args, isKeyword "ALL" w = true ∨ eventKind? w = some k))
    ∧ (∀ (p : Port) (args : List Text) (s : State), s.ready p (.mask p args) →
      (¬(∃ kw ow e, args = [kw, ow] ∧ eventKind? kw = some e ∧ (isKeyword "ON" ow = true ∨ isKeyword "OFF" ow = true)) →
        exec (.mask p args) s = .next (s.answered p (.mask p args) (noReply .syn)))
      ∧ (∀ kw ow e, args = [kw, ow] → eventKind? kw = some e → isKeyword "ON" ow = true ∨ isKeyword "OFF" ow = true →
        ∃ es : List EventKind,
          exec (.mask p args) s = .next ((s.answered p (.mask p args) okReply).updPort p (fun q => { q with mask := es }))
          ∧ ∀ k : EventKind, k ∈ es ↔ (k = e ∧ isKeyword "ON" ow = true) ∨ (k ≠ e ∧ k ∈ (s.port p).mask)))

/-- SET of a value in range is refused, and nothing changes, by the first of these that holds: RANGE where MAST less CLEAR_BAND would not
stay above 0; STATE for group A outside IDLE, for group C while digging, and for BACKUP above the stored one while F is set; BACKLOG for group
A; COLLIDE for a SIG_MASK under which two IN_SERVICE stations are equal. Otherwise it is OK, writing nothing where the value is in force;
or the setting is written, with every PLANNED line marked and every commit in flight recorded as reached for a setting of group A, and
the ramp rewritten for TRIM_RAMP. -/
def Obligations.SetChangesASetting : Prop :=
  ∀ (p : Port) (wn wv : Text) (n : SettingName) (v : SettingValue) (s : State), s.ready p (.set p [wn, wv]) →
    settingName? wn = some n → settingValue? n wv = .good v →
    let refused := fun r : Reason => exec (.set p [wn, wv]) s = .next (s.answered p (.set p [wn, wv]) (noReply r))
    let groupA := n ∈ [SettingName.minFall, .junctionDrop, .mast, .clearBand]
    let groupC := n ∈ [SettingName.odoScale, .odoDecode, .sigMask, .strikeTimeout, .backup, .handoffLen, .freezeLead]
    let bandLost := ∃ mm, v = .num mm ∧ ((n = .mast ∧ mm - s.settings.clearBand ≤ 0) ∨ (n = .clearBand ∧ s.settings.mast - mm ≤ 0))
    let barred := (groupA ∧ s.context? ≠ none) ∨ (groupC ∧ s.digging = true)
      ∨ (n = .backup ∧ ∃ mm f, v = .num mm ∧ s.furthest? = some f ∧ s.settings.backup < mm)
    let held := groupA ∧ s.recheck.backlog = true
    let collides := ∃ (mm : Int) (m k : StationId) (d e : StationData), n = .sigMask ∧ v = .num mm ∧ m ≠ k
      ∧ s.store.stations.get m = .inService d ∧ s.store.stations.get k = .inService e
      ∧ d.signature &&& BitVec.ofInt 8 mm = e.signature &&& BitVec.ofInt 8 mm
    let taken := ¬bandLost ∧ ¬barred ∧ ¬held ∧ ¬collides
    (bandLost → refused .range)
    ∧ (¬bandLost → barred → refused .state)
    ∧ (¬bandLost → ¬barred → held → refused .backlog)
    ∧ (¬bandLost → ¬barred → ¬held → collides → refused .collide)
    ∧ (taken → s.settings.get n = v →
      exec (.set p [wn, wv]) s = .next (s.answered p (.set p [wn, wv]) okReply))
    ∧ (taken → s.settings.get n ≠ v → ¬groupA → n ≠ .trimRamp →
      exec (.set p [wn, wv]) s = .next { s.answered p (.set p [wn, wv]) okReply with
        store := { s.store with settings := s.settings.put n v } })
    ∧ (taken → s.settings.get n ≠ v → n = .trimRamp →
      exec (.set p [wn, wv]) s = .next
        (((s.answered p (.set p [wn, wv]) okReply).updRun (fun c => c.rewriteRamp s.settings.trimRamp)).setSettings (s.settings.put n v)))
    ∧ (taken → s.settings.get n ≠ v → groupA →
      ∃ t : State, exec (.set p [wn, wv]) s = .next t
        ∧ (s.answered p (.set p [wn, wv]) okReply).keepsMachine t [.dropped, .backlog, .swept] ∧ s.marked t (fun _ => true)
        ∧ s.reaches t .groupA
        ∧ t.settings = s.settings.put n v ∧ t.store.stations = s.store.stations)

/-- The supply's return with RESET high, RESET going high again with power present, and the end of RESTART's OK restart the module;
otherwise POWER_ON and RESET_INPUT record the supply and the input alone. Without power, or while RESET is held low, the permit is open, no
coil is driven, no attention line conducts, and no other row changes anything. CLEARSTORE, on the PLAN port in IDLE, leaves the factory
contents. Of the model, not of the manual, are: that SUPPLY_LOSS keeps all else until the restart (log 26); that POWER_ON while powered,
like any row that cannot happen, does nothing (log 3); that RESET_INPUT is either end of the pulse, by the level before it (log 33); that
the restart follows RESTART's OK at once, the overrun flag set or not (log 32); that CLEARSTORE ends a RESTART whose OK is still being sent
on the CAB port, and no restart follows it (log 37); that CLEARSTORE keeps the odometer's levels and a restart
takes a free value for them (log 6). -/
def Obligations.RestartAndClearstore : Prop :=
  (∀ s : State,
      (s.powered = false → s.resetLow = false → ∃ t : State, exec .powerOn s = .next t ∧ s.restartedTo t)
      ∧ (s.powered = false → s.resetLow = true → exec .powerOn s = .next { s with powered := true })
      ∧ (s.powered = true → exec .powerOn s = .next s)
      ∧ (s.resetLow = false → exec .resetInput s = .next { s with resetLow := true })
      ∧ (s.resetLow = true → s.powered = true → ∃ t : State, exec .resetInput s = .next t ∧ s.restartedTo t)
      ∧ (s.resetLow = true → s.powered = false → exec .resetInput s = .next { s with resetLow := false })
      ∧ exec .supplyLoss s = .next { s with powered := false })
    ∧ (∀ s : State, s.powered = false ∨ s.resetLow = true →
      s.permit = false ∧ s.raisingCoil = 0 ∧ s.loweringCoil = 0 ∧ (∀ p : Port, s.attention p = false)
        ∧ ∀ i : Instr, i ≠ .powerOn → i ≠ .supplyLoss → i ≠ .resetInput → exec i s = .next s)
    ∧ (∀ (p : Port) (s : State), s.ready p (.restart p []) →
      exec (.restart p []) s = .next (s.answered p (.restart p []) okReply))
    ∧ (∀ (p : Port) (args : List Text) (s : State), s.running = true → (s.port p).hand = .sending (some (.restart p args)) okReply →
      ∃ t : State, exec (.replySent p) s = .next t ∧ s.restartedTo t)
    ∧ (∀ s : State, s.ready .plan (.clearstore .plan []) →
      (s.context? ≠ none → exec (.clearstore .plan []) s = .next (s.answered .plan (.clearstore .plan []) (noReply .state)))
      ∧ (s.context? = none → exec (.clearstore .plan []) s = .next { State.reset with
        chain := { State.reset.chain with levelA := s.chain.levelA, levelB := s.chain.levelB }
        plan := { State.reset.plan with hand := .sending (some (.clearstore .plan [])) okReply }
        free := s.free
        pending := s.pending }))

/-- The commands of the CAB port are refused PORT on the PLAN port, after SYNTAX and before any other test, and CLEARSTORE on the CAB
port; a command that takes no argument is refused SYNTAX for any (ZERO COUNTERS, OPEN and DISCARD by the model's
reading, log 23). -/
def Obligations.WordsAndPorts : Prop :=
  (∀ (i : Instr) (s : State), i = .deselect .plan [] ∨ i = .tie .plan [] ∨ i = .resume .plan [] ∨ i = .abandon .plan []
        ∨ i = .settle .plan [] ∨ (∃ w, (number? w).isSome ∧ (i = .select .plan [w] ∨ i = .retie .plan [w] ∨ i = .trim .plan [w]))
        ∨ (∃ args, (markForm? args).isSome ∧ i = .mark .plan args) →
      s.ready .plan i → exec i s = .next (s.answered .plan i (noReply .port)))
    ∧ (∀ s : State, s.ready .cab (.clearstore .cab []) →
      exec (.clearstore .cab []) s = .next (s.answered .cab (.clearstore .cab []) (noReply .port)))
    ∧ (∀ (p : Port) (args : List Text) (i : Instr) (s : State), args ≠ [] →
      i ∈ [Instr.release p args, .openDraft p args, .discard p args, .commit p args, .retire p args, .counters p args,
        .zeroCounters p args, .deselect p args, .tie p args, .suspend p args, .resume p args, .abandon p args, .settle p args,
        .unsettle p args, .unstage p args, .ident p args, .run p args, .queue p args, .settings p args, .events p args,
        .restart p args, .clearstore p args] →
      s.ready p i → exec i s = .next (s.answered p i (noReply .syn)))

/-- The outputs, which the model computes from the state (log 27): the permit contact is closed exactly while the module runs (power
present, RESET high) and the run is neither SUSPENDED nor HALTED; an attention line is asserted exactly while the module runs and the
port's set holds a kind outside its mask; the raising coil carries 1.5 mA per per mille of a positive drive level and the lowering coil of
a negative one, in microamperes here, and never both. -/
def Obligations.OutputsFollowTheState : Prop :=
  ∀ s : State,
    let runs := s.powered = true ∧ s.resetLow = false
    (s.permit = true ↔ runs ∧ ∀ x, s.runState? = some x → x.isStopped = false)
    ∧ (∀ p : Port, s.attention p = true ↔ runs ∧ ∃ k ∈ (s.port p).events, k ∉ (s.port p).mask)
    ∧ (runs → 0 < s.eval.drive → s.raisingCoil = 1500 * s.eval.drive ∧ s.loweringCoil = 0)
    ∧ (runs → s.eval.drive < 0 → s.loweringCoil = -(1500 * s.eval.drive) ∧ s.raisingCoil = 0)
    ∧ (¬runs ∨ s.eval.drive = 0 → s.raisingCoil = 0 ∧ s.loweringCoil = 0)
end

