-- ==== Sys2Proof/Laws/State.lean ====
section
/-! SUPPORT. One lemma per field per update of the state, true by rfl, so that no proof unfolds a record update. -/
namespace Sys2Proof.Machine

@[simp] theorem State.updPort_powered (s : State) (p : Port) (f : PortState → PortState) : (s.updPort p f).powered = s.powered := by cases p <;> rfl
@[simp] theorem State.updPort_resetLow (s : State) (p : Port) (f : PortState → PortState) : (s.updPort p f).resetLow = s.resetLow := by cases p <;> rfl
@[simp] theorem State.updPort_running (s : State) (p : Port) (f : PortState → PortState) : (s.updPort p f).running = s.running := by cases p <;> rfl
@[simp] theorem State.updPort_time (s : State) (p : Port) (f : PortState → PortState) : (s.updPort p f).time = s.time := by cases p <;> rfl
@[simp] theorem State.updPort_store (s : State) (p : Port) (f : PortState → PortState) : (s.updPort p f).store = s.store := by cases p <;> rfl
@[simp] theorem State.updPort_recheck (s : State) (p : Port) (f : PortState → PortState) : (s.updPort p f).recheck = s.recheck := by cases p <;> rfl
@[simp] theorem State.updPort_link (s : State) (p : Port) (f : PortState → PortState) : (s.updPort p f).link = s.link := by cases p <;> rfl
@[simp] theorem State.updPort_chain (s : State) (p : Port) (f : PortState → PortState) : (s.updPort p f).chain = s.chain := by cases p <;> rfl
@[simp] theorem State.updPort_run (s : State) (p : Port) (f : PortState → PortState) : (s.updPort p f).run = s.run := by cases p <;> rfl
@[simp] theorem State.updPort_eval (s : State) (p : Port) (f : PortState → PortState) : (s.updPort p f).eval = s.eval := by cases p <;> rfl
@[simp] theorem State.updPort_free (s : State) (p : Port) (f : PortState → PortState) : (s.updPort p f).free = s.free := by cases p <;> rfl
@[simp] theorem State.updPort_pending (s : State) (p : Port) (f : PortState → PortState) : (s.updPort p f).pending = s.pending := by cases p <;> rfl

@[simp] theorem State.updPortCab_cab (s : State) (f : PortState → PortState) : (s.updPort .cab f).cab = f s.cab := rfl
@[simp] theorem State.updPortCab_plan (s : State) (f : PortState → PortState) : (s.updPort .cab f).plan = s.plan := rfl

@[simp] theorem State.updPortPlan_cab (s : State) (f : PortState → PortState) : (s.updPort .plan f).cab = s.cab := rfl
@[simp] theorem State.updPortPlan_plan (s : State) (f : PortState → PortState) : (s.updPort .plan f).plan = f s.plan := rfl

@[simp] theorem State.updRecheck_powered (s : State) (f : Recheck → Recheck) : (s.updRecheck f).powered = s.powered := rfl
@[simp] theorem State.updRecheck_resetLow (s : State) (f : Recheck → Recheck) : (s.updRecheck f).resetLow = s.resetLow := rfl
@[simp] theorem State.updRecheck_running (s : State) (f : Recheck → Recheck) : (s.updRecheck f).running = s.running := rfl
@[simp] theorem State.updRecheck_time (s : State) (f : Recheck → Recheck) : (s.updRecheck f).time = s.time := rfl
@[simp] theorem State.updRecheck_store (s : State) (f : Recheck → Recheck) : (s.updRecheck f).store = s.store := rfl
@[simp] theorem State.updRecheck_cab (s : State) (f : Recheck → Recheck) : (s.updRecheck f).cab = s.cab := rfl
@[simp] theorem State.updRecheck_plan (s : State) (f : Recheck → Recheck) : (s.updRecheck f).plan = s.plan := rfl
@[simp] theorem State.updRecheck_recheck (s : State) (f : Recheck → Recheck) : (s.updRecheck f).recheck = f s.recheck := rfl
@[simp] theorem State.updRecheck_link (s : State) (f : Recheck → Recheck) : (s.updRecheck f).link = s.link := rfl
@[simp] theorem State.updRecheck_chain (s : State) (f : Recheck → Recheck) : (s.updRecheck f).chain = s.chain := rfl
@[simp] theorem State.updRecheck_run (s : State) (f : Recheck → Recheck) : (s.updRecheck f).run = s.run := rfl
@[simp] theorem State.updRecheck_eval (s : State) (f : Recheck → Recheck) : (s.updRecheck f).eval = s.eval := rfl
@[simp] theorem State.updRecheck_free (s : State) (f : Recheck → Recheck) : (s.updRecheck f).free = s.free := rfl
@[simp] theorem State.updRecheck_pending (s : State) (f : Recheck → Recheck) : (s.updRecheck f).pending = s.pending := rfl

@[simp] theorem State.updLink_powered (s : State) (f : Link → Link) : (s.updLink f).powered = s.powered := rfl
@[simp] theorem State.updLink_resetLow (s : State) (f : Link → Link) : (s.updLink f).resetLow = s.resetLow := rfl
@[simp] theorem State.updLink_running (s : State) (f : Link → Link) : (s.updLink f).running = s.running := rfl
@[simp] theorem State.updLink_time (s : State) (f : Link → Link) : (s.updLink f).time = s.time := rfl
@[simp] theorem State.updLink_store (s : State) (f : Link → Link) : (s.updLink f).store = s.store := rfl
@[simp] theorem State.updLink_cab (s : State) (f : Link → Link) : (s.updLink f).cab = s.cab := rfl
@[simp] theorem State.updLink_plan (s : State) (f : Link → Link) : (s.updLink f).plan = s.plan := rfl
@[simp] theorem State.updLink_recheck (s : State) (f : Link → Link) : (s.updLink f).recheck = s.recheck := rfl
@[simp] theorem State.updLink_link (s : State) (f : Link → Link) : (s.updLink f).link = f s.link := rfl
@[simp] theorem State.updLink_chain (s : State) (f : Link → Link) : (s.updLink f).chain = s.chain := rfl
@[simp] theorem State.updLink_run (s : State) (f : Link → Link) : (s.updLink f).run = s.run := rfl
@[simp] theorem State.updLink_eval (s : State) (f : Link → Link) : (s.updLink f).eval = s.eval := rfl
@[simp] theorem State.updLink_free (s : State) (f : Link → Link) : (s.updLink f).free = s.free := rfl
@[simp] theorem State.updLink_pending (s : State) (f : Link → Link) : (s.updLink f).pending = s.pending := rfl

@[simp] theorem State.updChain_powered (s : State) (f : Chain → Chain) : (s.updChain f).powered = s.powered := rfl
@[simp] theorem State.updChain_resetLow (s : State) (f : Chain → Chain) : (s.updChain f).resetLow = s.resetLow := rfl
@[simp] theorem State.updChain_running (s : State) (f : Chain → Chain) : (s.updChain f).running = s.running := rfl
@[simp] theorem State.updChain_time (s : State) (f : Chain → Chain) : (s.updChain f).time = s.time := rfl
@[simp] theorem State.updChain_store (s : State) (f : Chain → Chain) : (s.updChain f).store = s.store := rfl
@[simp] theorem State.updChain_cab (s : State) (f : Chain → Chain) : (s.updChain f).cab = s.cab := rfl
@[simp] theorem State.updChain_plan (s : State) (f : Chain → Chain) : (s.updChain f).plan = s.plan := rfl
@[simp] theorem State.updChain_recheck (s : State) (f : Chain → Chain) : (s.updChain f).recheck = s.recheck := rfl
@[simp] theorem State.updChain_link (s : State) (f : Chain → Chain) : (s.updChain f).link = s.link := rfl
@[simp] theorem State.updChain_chain (s : State) (f : Chain → Chain) : (s.updChain f).chain = f s.chain := rfl
@[simp] theorem State.updChain_run (s : State) (f : Chain → Chain) : (s.updChain f).run = s.run := rfl
@[simp] theorem State.updChain_eval (s : State) (f : Chain → Chain) : (s.updChain f).eval = s.eval := rfl
@[simp] theorem State.updChain_free (s : State) (f : Chain → Chain) : (s.updChain f).free = s.free := rfl
@[simp] theorem State.updChain_pending (s : State) (f : Chain → Chain) : (s.updChain f).pending = s.pending := rfl

@[simp] theorem State.updRunUnit_powered (s : State) (f : RunUnit → RunUnit) : (s.updRunUnit f).powered = s.powered := rfl
@[simp] theorem State.updRunUnit_resetLow (s : State) (f : RunUnit → RunUnit) : (s.updRunUnit f).resetLow = s.resetLow := rfl
@[simp] theorem State.updRunUnit_running (s : State) (f : RunUnit → RunUnit) : (s.updRunUnit f).running = s.running := rfl
@[simp] theorem State.updRunUnit_time (s : State) (f : RunUnit → RunUnit) : (s.updRunUnit f).time = s.time := rfl
@[simp] theorem State.updRunUnit_store (s : State) (f : RunUnit → RunUnit) : (s.updRunUnit f).store = s.store := rfl
@[simp] theorem State.updRunUnit_cab (s : State) (f : RunUnit → RunUnit) : (s.updRunUnit f).cab = s.cab := rfl
@[simp] theorem State.updRunUnit_plan (s : State) (f : RunUnit → RunUnit) : (s.updRunUnit f).plan = s.plan := rfl
@[simp] theorem State.updRunUnit_recheck (s : State) (f : RunUnit → RunUnit) : (s.updRunUnit f).recheck = s.recheck := rfl
@[simp] theorem State.updRunUnit_link (s : State) (f : RunUnit → RunUnit) : (s.updRunUnit f).link = s.link := rfl
@[simp] theorem State.updRunUnit_chain (s : State) (f : RunUnit → RunUnit) : (s.updRunUnit f).chain = s.chain := rfl
@[simp] theorem State.updRunUnit_run (s : State) (f : RunUnit → RunUnit) : (s.updRunUnit f).run = f s.run := rfl
@[simp] theorem State.updRunUnit_eval (s : State) (f : RunUnit → RunUnit) : (s.updRunUnit f).eval = s.eval := rfl
@[simp] theorem State.updRunUnit_free (s : State) (f : RunUnit → RunUnit) : (s.updRunUnit f).free = s.free := rfl
@[simp] theorem State.updRunUnit_pending (s : State) (f : RunUnit → RunUnit) : (s.updRunUnit f).pending = s.pending := rfl

@[simp] theorem State.updEval_powered (s : State) (f : Evaluator → Evaluator) : (s.updEval f).powered = s.powered := rfl
@[simp] theorem State.updEval_resetLow (s : State) (f : Evaluator → Evaluator) : (s.updEval f).resetLow = s.resetLow := rfl
@[simp] theorem State.updEval_running (s : State) (f : Evaluator → Evaluator) : (s.updEval f).running = s.running := rfl
@[simp] theorem State.updEval_time (s : State) (f : Evaluator → Evaluator) : (s.updEval f).time = s.time := rfl
@[simp] theorem State.updEval_store (s : State) (f : Evaluator → Evaluator) : (s.updEval f).store = s.store := rfl
@[simp] theorem State.updEval_cab (s : State) (f : Evaluator → Evaluator) : (s.updEval f).cab = s.cab := rfl
@[simp] theorem State.updEval_plan (s : State) (f : Evaluator → Evaluator) : (s.updEval f).plan = s.plan := rfl
@[simp] theorem State.updEval_recheck (s : State) (f : Evaluator → Evaluator) : (s.updEval f).recheck = s.recheck := rfl
@[simp] theorem State.updEval_link (s : State) (f : Evaluator → Evaluator) : (s.updEval f).link = s.link := rfl
@[simp] theorem State.updEval_chain (s : State) (f : Evaluator → Evaluator) : (s.updEval f).chain = s.chain := rfl
@[simp] theorem State.updEval_run (s : State) (f : Evaluator → Evaluator) : (s.updEval f).run = s.run := rfl
@[simp] theorem State.updEval_eval (s : State) (f : Evaluator → Evaluator) : (s.updEval f).eval = f s.eval := rfl
@[simp] theorem State.updEval_free (s : State) (f : Evaluator → Evaluator) : (s.updEval f).free = s.free := rfl
@[simp] theorem State.updEval_pending (s : State) (f : Evaluator → Evaluator) : (s.updEval f).pending = s.pending := rfl

@[simp] theorem State.setLines_powered (s : State) (ls : List Line) : (s.setLines ls).powered = s.powered := rfl
@[simp] theorem State.setLines_resetLow (s : State) (ls : List Line) : (s.setLines ls).resetLow = s.resetLow := rfl
@[simp] theorem State.setLines_running (s : State) (ls : List Line) : (s.setLines ls).running = s.running := rfl
@[simp] theorem State.setLines_time (s : State) (ls : List Line) : (s.setLines ls).time = s.time := rfl
@[simp] theorem State.setLines_store (s : State) (ls : List Line) : (s.setLines ls).store = { s.store with lines := ls } := rfl
@[simp] theorem State.setLines_cab (s : State) (ls : List Line) : (s.setLines ls).cab = s.cab := rfl
@[simp] theorem State.setLines_plan (s : State) (ls : List Line) : (s.setLines ls).plan = s.plan := rfl
@[simp] theorem State.setLines_recheck (s : State) (ls : List Line) : (s.setLines ls).recheck = s.recheck := rfl
@[simp] theorem State.setLines_link (s : State) (ls : List Line) : (s.setLines ls).link = s.link := rfl
@[simp] theorem State.setLines_chain (s : State) (ls : List Line) : (s.setLines ls).chain = s.chain := rfl
@[simp] theorem State.setLines_run (s : State) (ls : List Line) : (s.setLines ls).run = s.run := rfl
@[simp] theorem State.setLines_eval (s : State) (ls : List Line) : (s.setLines ls).eval = s.eval := rfl
@[simp] theorem State.setLines_free (s : State) (ls : List Line) : (s.setLines ls).free = s.free := rfl
@[simp] theorem State.setLines_pending (s : State) (ls : List Line) : (s.setLines ls).pending = s.pending := rfl

@[simp] theorem State.mapLines_powered (s : State) (f : Line → Line) : (s.mapLines f).powered = s.powered := rfl
@[simp] theorem State.mapLines_resetLow (s : State) (f : Line → Line) : (s.mapLines f).resetLow = s.resetLow := rfl
@[simp] theorem State.mapLines_running (s : State) (f : Line → Line) : (s.mapLines f).running = s.running := rfl
@[simp] theorem State.mapLines_time (s : State) (f : Line → Line) : (s.mapLines f).time = s.time := rfl
@[simp] theorem State.mapLines_store (s : State) (f : Line → Line) : (s.mapLines f).store = { s.store with lines := s.store.lines.map f } := rfl
@[simp] theorem State.mapLines_cab (s : State) (f : Line → Line) : (s.mapLines f).cab = s.cab := rfl
@[simp] theorem State.mapLines_plan (s : State) (f : Line → Line) : (s.mapLines f).plan = s.plan := rfl
@[simp] theorem State.mapLines_recheck (s : State) (f : Line → Line) : (s.mapLines f).recheck = s.recheck := rfl
@[simp] theorem State.mapLines_link (s : State) (f : Line → Line) : (s.mapLines f).link = s.link := rfl
@[simp] theorem State.mapLines_chain (s : State) (f : Line → Line) : (s.mapLines f).chain = s.chain := rfl
@[simp] theorem State.mapLines_run (s : State) (f : Line → Line) : (s.mapLines f).run = s.run := rfl
@[simp] theorem State.mapLines_eval (s : State) (f : Line → Line) : (s.mapLines f).eval = s.eval := rfl
@[simp] theorem State.mapLines_free (s : State) (f : Line → Line) : (s.mapLines f).free = s.free := rfl
@[simp] theorem State.mapLines_pending (s : State) (f : Line → Line) : (s.mapLines f).pending = s.pending := rfl

@[simp] theorem State.updLine_powered (s : State) (id : Nat) (f : Line → Line) : (s.updLine id f).powered = s.powered := rfl
@[simp] theorem State.updLine_resetLow (s : State) (id : Nat) (f : Line → Line) : (s.updLine id f).resetLow = s.resetLow := rfl
@[simp] theorem State.updLine_running (s : State) (id : Nat) (f : Line → Line) : (s.updLine id f).running = s.running := rfl
@[simp] theorem State.updLine_time (s : State) (id : Nat) (f : Line → Line) : (s.updLine id f).time = s.time := rfl
@[simp] theorem State.updLine_store (s : State) (id : Nat) (f : Line → Line) : (s.updLine id f).store = { s.store with lines := s.store.lines.map (fun l => if l.id = id then f l else l) } := rfl
@[simp] theorem State.updLine_cab (s : State) (id : Nat) (f : Line → Line) : (s.updLine id f).cab = s.cab := rfl
@[simp] theorem State.updLine_plan (s : State) (id : Nat) (f : Line → Line) : (s.updLine id f).plan = s.plan := rfl
@[simp] theorem State.updLine_recheck (s : State) (id : Nat) (f : Line → Line) : (s.updLine id f).recheck = s.recheck := rfl
@[simp] theorem State.updLine_link (s : State) (id : Nat) (f : Line → Line) : (s.updLine id f).link = s.link := rfl
@[simp] theorem State.updLine_chain (s : State) (id : Nat) (f : Line → Line) : (s.updLine id f).chain = s.chain := rfl
@[simp] theorem State.updLine_run (s : State) (id : Nat) (f : Line → Line) : (s.updLine id f).run = s.run := rfl
@[simp] theorem State.updLine_eval (s : State) (id : Nat) (f : Line → Line) : (s.updLine id f).eval = s.eval := rfl
@[simp] theorem State.updLine_free (s : State) (id : Nat) (f : Line → Line) : (s.updLine id f).free = s.free := rfl
@[simp] theorem State.updLine_pending (s : State) (id : Nat) (f : Line → Line) : (s.updLine id f).pending = s.pending := rfl

@[simp] theorem State.updActive_powered (s : State) (f : Line → Line) : (s.updActive f).powered = s.powered := rfl
@[simp] theorem State.updActive_resetLow (s : State) (f : Line → Line) : (s.updActive f).resetLow = s.resetLow := rfl
@[simp] theorem State.updActive_running (s : State) (f : Line → Line) : (s.updActive f).running = s.running := rfl
@[simp] theorem State.updActive_time (s : State) (f : Line → Line) : (s.updActive f).time = s.time := rfl
@[simp] theorem State.updActive_store (s : State) (f : Line → Line) : (s.updActive f).store = { s.store with lines := s.store.lines.map (fun l => if l.isActive then f l else l) } := rfl
@[simp] theorem State.updActive_cab (s : State) (f : Line → Line) : (s.updActive f).cab = s.cab := rfl
@[simp] theorem State.updActive_plan (s : State) (f : Line → Line) : (s.updActive f).plan = s.plan := rfl
@[simp] theorem State.updActive_recheck (s : State) (f : Line → Line) : (s.updActive f).recheck = s.recheck := rfl
@[simp] theorem State.updActive_link (s : State) (f : Line → Line) : (s.updActive f).link = s.link := rfl
@[simp] theorem State.updActive_chain (s : State) (f : Line → Line) : (s.updActive f).chain = s.chain := rfl
@[simp] theorem State.updActive_run (s : State) (f : Line → Line) : (s.updActive f).run = s.run := rfl
@[simp] theorem State.updActive_eval (s : State) (f : Line → Line) : (s.updActive f).eval = s.eval := rfl
@[simp] theorem State.updActive_free (s : State) (f : Line → Line) : (s.updActive f).free = s.free := rfl
@[simp] theorem State.updActive_pending (s : State) (f : Line → Line) : (s.updActive f).pending = s.pending := rfl

@[simp] theorem State.updRun_powered (s : State) (f : RunContext → RunContext) : (s.updRun f).powered = s.powered := rfl
@[simp] theorem State.updRun_resetLow (s : State) (f : RunContext → RunContext) : (s.updRun f).resetLow = s.resetLow := rfl
@[simp] theorem State.updRun_running (s : State) (f : RunContext → RunContext) : (s.updRun f).running = s.running := rfl
@[simp] theorem State.updRun_time (s : State) (f : RunContext → RunContext) : (s.updRun f).time = s.time := rfl
@[simp] theorem State.updRun_store (s : State) (f : RunContext → RunContext) : (s.updRun f).store = { s.store with lines := s.store.lines.map (fun l => if l.isActive then l.updRun f else l) } := rfl
@[simp] theorem State.updRun_cab (s : State) (f : RunContext → RunContext) : (s.updRun f).cab = s.cab := rfl
@[simp] theorem State.updRun_plan (s : State) (f : RunContext → RunContext) : (s.updRun f).plan = s.plan := rfl
@[simp] theorem State.updRun_recheck (s : State) (f : RunContext → RunContext) : (s.updRun f).recheck = s.recheck := rfl
@[simp] theorem State.updRun_link (s : State) (f : RunContext → RunContext) : (s.updRun f).link = s.link := rfl
@[simp] theorem State.updRun_chain (s : State) (f : RunContext → RunContext) : (s.updRun f).chain = s.chain := rfl
@[simp] theorem State.updRun_run (s : State) (f : RunContext → RunContext) : (s.updRun f).run = s.run := rfl
@[simp] theorem State.updRun_eval (s : State) (f : RunContext → RunContext) : (s.updRun f).eval = s.eval := rfl
@[simp] theorem State.updRun_free (s : State) (f : RunContext → RunContext) : (s.updRun f).free = s.free := rfl
@[simp] theorem State.updRun_pending (s : State) (f : RunContext → RunContext) : (s.updRun f).pending = s.pending := rfl

@[simp] theorem State.setStation_powered (s : State) (n : StationId) (t : Station) : (s.setStation n t).powered = s.powered := rfl
@[simp] theorem State.setStation_resetLow (s : State) (n : StationId) (t : Station) : (s.setStation n t).resetLow = s.resetLow := rfl
@[simp] theorem State.setStation_running (s : State) (n : StationId) (t : Station) : (s.setStation n t).running = s.running := rfl
@[simp] theorem State.setStation_time (s : State) (n : StationId) (t : Station) : (s.setStation n t).time = s.time := rfl
@[simp] theorem State.setStation_store (s : State) (n : StationId) (t : Station) : (s.setStation n t).store = { s.store with stations := s.store.stations.set n t } := rfl
@[simp] theorem State.setStation_cab (s : State) (n : StationId) (t : Station) : (s.setStation n t).cab = s.cab := rfl
@[simp] theorem State.setStation_plan (s : State) (n : StationId) (t : Station) : (s.setStation n t).plan = s.plan := rfl
@[simp] theorem State.setStation_recheck (s : State) (n : StationId) (t : Station) : (s.setStation n t).recheck = s.recheck := rfl
@[simp] theorem State.setStation_link (s : State) (n : StationId) (t : Station) : (s.setStation n t).link = s.link := rfl
@[simp] theorem State.setStation_chain (s : State) (n : StationId) (t : Station) : (s.setStation n t).chain = s.chain := rfl
@[simp] theorem State.setStation_run (s : State) (n : StationId) (t : Station) : (s.setStation n t).run = s.run := rfl
@[simp] theorem State.setStation_eval (s : State) (n : StationId) (t : Station) : (s.setStation n t).eval = s.eval := rfl
@[simp] theorem State.setStation_free (s : State) (n : StationId) (t : Station) : (s.setStation n t).free = s.free := rfl
@[simp] theorem State.setStation_pending (s : State) (n : StationId) (t : Station) : (s.setStation n t).pending = s.pending := rfl

@[simp] theorem State.setSettings_powered (s : State) (t : Settings) : (s.setSettings t).powered = s.powered := rfl
@[simp] theorem State.setSettings_resetLow (s : State) (t : Settings) : (s.setSettings t).resetLow = s.resetLow := rfl
@[simp] theorem State.setSettings_running (s : State) (t : Settings) : (s.setSettings t).running = s.running := rfl
@[simp] theorem State.setSettings_time (s : State) (t : Settings) : (s.setSettings t).time = s.time := rfl
@[simp] theorem State.setSettings_store (s : State) (t : Settings) : (s.setSettings t).store = { s.store with settings := t } := rfl
@[simp] theorem State.setSettings_cab (s : State) (t : Settings) : (s.setSettings t).cab = s.cab := rfl
@[simp] theorem State.setSettings_plan (s : State) (t : Settings) : (s.setSettings t).plan = s.plan := rfl
@[simp] theorem State.setSettings_recheck (s : State) (t : Settings) : (s.setSettings t).recheck = s.recheck := rfl
@[simp] theorem State.setSettings_link (s : State) (t : Settings) : (s.setSettings t).link = s.link := rfl
@[simp] theorem State.setSettings_chain (s : State) (t : Settings) : (s.setSettings t).chain = s.chain := rfl
@[simp] theorem State.setSettings_run (s : State) (t : Settings) : (s.setSettings t).run = s.run := rfl
@[simp] theorem State.setSettings_eval (s : State) (t : Settings) : (s.setSettings t).eval = s.eval := rfl
@[simp] theorem State.setSettings_free (s : State) (t : Settings) : (s.setSettings t).free = s.free := rfl
@[simp] theorem State.setSettings_pending (s : State) (t : Settings) : (s.setSettings t).pending = s.pending := rfl

@[simp] theorem State.raise_powered (s : State) (e : EventKind) : (s.raise e).powered = s.powered := rfl
@[simp] theorem State.raise_resetLow (s : State) (e : EventKind) : (s.raise e).resetLow = s.resetLow := rfl
@[simp] theorem State.raise_running (s : State) (e : EventKind) : (s.raise e).running = s.running := rfl
@[simp] theorem State.raise_time (s : State) (e : EventKind) : (s.raise e).time = s.time := rfl
@[simp] theorem State.raise_store (s : State) (e : EventKind) : (s.raise e).store = s.store := rfl
@[simp] theorem State.raise_cab (s : State) (e : EventKind) : (s.raise e).cab = { s.cab with events := setKind e s.cab.events } := rfl
@[simp] theorem State.raise_plan (s : State) (e : EventKind) : (s.raise e).plan = { s.plan with events := setKind e s.plan.events } := rfl
@[simp] theorem State.raise_recheck (s : State) (e : EventKind) : (s.raise e).recheck = s.recheck := rfl
@[simp] theorem State.raise_link (s : State) (e : EventKind) : (s.raise e).link = s.link := rfl
@[simp] theorem State.raise_chain (s : State) (e : EventKind) : (s.raise e).chain = s.chain := rfl
@[simp] theorem State.raise_run (s : State) (e : EventKind) : (s.raise e).run = s.run := rfl
@[simp] theorem State.raise_eval (s : State) (e : EventKind) : (s.raise e).eval = s.eval := rfl
@[simp] theorem State.raise_free (s : State) (e : EventKind) : (s.raise e).free = s.free := rfl
@[simp] theorem State.raise_pending (s : State) (e : EventKind) : (s.raise e).pending = s.pending := rfl

@[simp] theorem State.reply_powered (s : State) (p : Port) (r : Reply) : (s.reply p r).powered = s.powered := by cases p <;> rfl
@[simp] theorem State.reply_resetLow (s : State) (p : Port) (r : Reply) : (s.reply p r).resetLow = s.resetLow := by cases p <;> rfl
@[simp] theorem State.reply_running (s : State) (p : Port) (r : Reply) : (s.reply p r).running = s.running := by cases p <;> rfl
@[simp] theorem State.reply_time (s : State) (p : Port) (r : Reply) : (s.reply p r).time = s.time := by cases p <;> rfl
@[simp] theorem State.reply_store (s : State) (p : Port) (r : Reply) : (s.reply p r).store = s.store := by cases p <;> rfl
@[simp] theorem State.reply_recheck (s : State) (p : Port) (r : Reply) : (s.reply p r).recheck = s.recheck := by cases p <;> rfl
@[simp] theorem State.reply_link (s : State) (p : Port) (r : Reply) : (s.reply p r).link = s.link := by cases p <;> rfl
@[simp] theorem State.reply_chain (s : State) (p : Port) (r : Reply) : (s.reply p r).chain = s.chain := by cases p <;> rfl
@[simp] theorem State.reply_run (s : State) (p : Port) (r : Reply) : (s.reply p r).run = s.run := by cases p <;> rfl
@[simp] theorem State.reply_eval (s : State) (p : Port) (r : Reply) : (s.reply p r).eval = s.eval := by cases p <;> rfl
@[simp] theorem State.reply_free (s : State) (p : Port) (r : Reply) : (s.reply p r).free = s.free := by cases p <;> rfl
@[simp] theorem State.reply_pending (s : State) (p : Port) (r : Reply) : (s.reply p r).pending = s.pending := by cases p <;> rfl

@[simp] theorem State.ok_powered (s : State) (p : Port) (r : List Field) : (s.ok p r).powered = s.powered := by cases p <;> rfl
@[simp] theorem State.ok_resetLow (s : State) (p : Port) (r : List Field) : (s.ok p r).resetLow = s.resetLow := by cases p <;> rfl
@[simp] theorem State.ok_running (s : State) (p : Port) (r : List Field) : (s.ok p r).running = s.running := by cases p <;> rfl
@[simp] theorem State.ok_time (s : State) (p : Port) (r : List Field) : (s.ok p r).time = s.time := by cases p <;> rfl
@[simp] theorem State.ok_store (s : State) (p : Port) (r : List Field) : (s.ok p r).store = s.store := by cases p <;> rfl
@[simp] theorem State.ok_recheck (s : State) (p : Port) (r : List Field) : (s.ok p r).recheck = s.recheck := by cases p <;> rfl
@[simp] theorem State.ok_link (s : State) (p : Port) (r : List Field) : (s.ok p r).link = s.link := by cases p <;> rfl
@[simp] theorem State.ok_chain (s : State) (p : Port) (r : List Field) : (s.ok p r).chain = s.chain := by cases p <;> rfl
@[simp] theorem State.ok_run (s : State) (p : Port) (r : List Field) : (s.ok p r).run = s.run := by cases p <;> rfl
@[simp] theorem State.ok_eval (s : State) (p : Port) (r : List Field) : (s.ok p r).eval = s.eval := by cases p <;> rfl
@[simp] theorem State.ok_free (s : State) (p : Port) (r : List Field) : (s.ok p r).free = s.free := by cases p <;> rfl
@[simp] theorem State.ok_pending (s : State) (p : Port) (r : List Field) : (s.ok p r).pending = s.pending := by cases p <;> rfl

@[simp] theorem State.no_powered (s : State) (p : Port) (r : Reason) : (s.no p r).powered = s.powered := by cases p <;> rfl
@[simp] theorem State.no_resetLow (s : State) (p : Port) (r : Reason) : (s.no p r).resetLow = s.resetLow := by cases p <;> rfl
@[simp] theorem State.no_running (s : State) (p : Port) (r : Reason) : (s.no p r).running = s.running := by cases p <;> rfl
@[simp] theorem State.no_time (s : State) (p : Port) (r : Reason) : (s.no p r).time = s.time := by cases p <;> rfl
@[simp] theorem State.no_store (s : State) (p : Port) (r : Reason) : (s.no p r).store = s.store := by cases p <;> rfl
@[simp] theorem State.no_recheck (s : State) (p : Port) (r : Reason) : (s.no p r).recheck = s.recheck := by cases p <;> rfl
@[simp] theorem State.no_link (s : State) (p : Port) (r : Reason) : (s.no p r).link = s.link := by cases p <;> rfl
@[simp] theorem State.no_chain (s : State) (p : Port) (r : Reason) : (s.no p r).chain = s.chain := by cases p <;> rfl
@[simp] theorem State.no_run (s : State) (p : Port) (r : Reason) : (s.no p r).run = s.run := by cases p <;> rfl
@[simp] theorem State.no_eval (s : State) (p : Port) (r : Reason) : (s.no p r).eval = s.eval := by cases p <;> rfl
@[simp] theorem State.no_free (s : State) (p : Port) (r : Reason) : (s.no p r).free = s.free := by cases p <;> rfl
@[simp] theorem State.no_pending (s : State) (p : Port) (r : Reason) : (s.no p r).pending = s.pending := by cases p <;> rfl

@[simp] theorem State.taken_powered (s : State) (p : Port) (row : Instr) : (s.taken p row).powered = s.powered := by cases p <;> rfl
@[simp] theorem State.taken_resetLow (s : State) (p : Port) (row : Instr) : (s.taken p row).resetLow = s.resetLow := by cases p <;> rfl
@[simp] theorem State.taken_running (s : State) (p : Port) (row : Instr) : (s.taken p row).running = s.running := by cases p <;> rfl
@[simp] theorem State.taken_time (s : State) (p : Port) (row : Instr) : (s.taken p row).time = s.time := by cases p <;> rfl
@[simp] theorem State.taken_store (s : State) (p : Port) (row : Instr) : (s.taken p row).store = s.store := by cases p <;> rfl
@[simp] theorem State.taken_recheck (s : State) (p : Port) (row : Instr) : (s.taken p row).recheck = s.recheck := by cases p <;> rfl
@[simp] theorem State.taken_link (s : State) (p : Port) (row : Instr) : (s.taken p row).link = s.link := by cases p <;> rfl
@[simp] theorem State.taken_chain (s : State) (p : Port) (row : Instr) : (s.taken p row).chain = s.chain := by cases p <;> rfl
@[simp] theorem State.taken_run (s : State) (p : Port) (row : Instr) : (s.taken p row).run = s.run := by cases p <;> rfl
@[simp] theorem State.taken_eval (s : State) (p : Port) (row : Instr) : (s.taken p row).eval = s.eval := by cases p <;> rfl
@[simp] theorem State.taken_free (s : State) (p : Port) (row : Instr) : (s.taken p row).free = s.free := by cases p <;> rfl
@[simp] theorem State.taken_pending (s : State) (p : Port) (row : Instr) : (s.taken p row).pending = s.pending := by cases p <;> rfl

/-! ## A port's part -/

@[simp] theorem State.port_cab (s : State) : s.port .cab = s.cab := rfl
@[simp] theorem State.port_plan (s : State) : s.port .plan = s.plan := rfl
@[simp] theorem State.port_updPort (s : State) (p : Port) (f : PortState → PortState) : (s.updPort p f).port p = f (s.port p) := by
  cases p <;> rfl
@[simp] theorem State.port_updPort_other (s : State) (p : Port) (f : PortState → PortState) :
    (s.updPort p f).port (otherPort p) = s.port (otherPort p) := by cases p <;> rfl
@[simp] theorem State.port_taken (s : State) (p : Port) (row : Instr) :
    (s.taken p row).port p = { s.port p with buffer := emptyBuffer, hand := .waiting row, lapse := none } := by cases p <;> rfl
@[simp] theorem State.port_taken_other (s : State) (p : Port) (row : Instr) :
    (s.taken p row).port (otherPort p) = s.port (otherPort p) := by cases p <;> rfl
@[simp] theorem State.updPort_updPort (s : State) (p : Port) (f g : PortState → PortState) :
    (s.updPort p f).updPort p g = s.updPort p (fun q => g (f q)) := by cases p <;> rfl
@[simp] theorem Six.get_set {α : Type} (t : Six α) (n : StationId) (x : α) : (t.set n x).get n = x := by cases n <;> rfl
theorem Six.get_set_other {α : Type} (t : Six α) (n m : StationId) (x : α) (h : m ≠ n) : (t.set n x).get m = t.get m := by
  cases n <;> cases m <;> first | rfl | exact absurd rfl h

end Sys2Proof.Machine
end

