-- ==== Sys2Proof/Laws/Rows.lean ====
section
/-! SUPPORT. What a command line does before its own meaning: taken, discarded, or no line at all; and what a reply changes. -/
namespace Sys2Proof.Machine

/-- A line that is ready runs its command's body on the taken state. -/
theorem takeLine_ready {p : Port} {row : Instr} {s : State} (body : State → State) (h : s.ready p row) :
    takeLine p row s body = body (s.taken p row) := by
  obtain ⟨h1, h2, h3⟩ := h
  simp [takeLine, h1, h2, h3]

/-- A line on a busy port sets the overrun flag and does nothing else (R166). -/
theorem takeLine_busy {p : Port} {row : Instr} {s : State} (body : State → State) (h1 : s.running = true) (h2 : s.lineIs p row = true)
    (h3 : s.busy p = true) : takeLine p row s body = (s.clearBuffer p).setOverrun p := by
  simp [takeLine, h1, h2, h3]

/-- A property that the untouched state, the discarding of a line and the body all keep, a command line keeps. -/
theorem takeLine_keeps {p : Port} {row : Instr} {s : State} {body : State → State} (P : State → Prop) (h0 : P s)
    (h1 : P ((s.clearBuffer p).setOverrun p)) (h2 : s.busy p = false → P (body (s.taken p row))) : P (takeLine p row s body) := by
  unfold takeLine
  split
  · split
    · exact h1
    · rename_i hb; exact h2 (by simpa using hb)
  · exact h0

/-- A reply on the taken state changes the port alone. -/
theorem taken_reply (s : State) (p : Port) (row : Instr) (r : Reply) : (s.taken p row).reply p r = s.answered p row r := by
  cases p <;> rfl

/-- OK on the taken state. -/
theorem taken_ok (s : State) (p : Port) (row : Instr) (fs : List Field) : (s.taken p row).ok p fs = s.answered p row (.ok fs) := by
  cases p <;> rfl

/-- A refusal on the taken state changes the port alone (R167). -/
theorem taken_no (s : State) (p : Port) (row : Instr) (r : Reason) : (s.taken p row).no p r = s.answered p row (noReply r) := by
  cases p <;> rfl

/-- A reply is an update of the port. -/
theorem reply_eq (s : State) (p : Port) (r : Reply) :
    s.reply p r = s.updPort p (fun q => { q with hand := .sending q.hand.command? r }) := rfl

/-- Taking a line leaves what is not the port's. -/
theorem taken_line? (s : State) (p : Port) (row : Instr) (id : Nat) : (s.taken p row).line? id = s.line? id := by
  simp [State.line?]
theorem taken_active? (s : State) (p : Port) (row : Instr) : (s.taken p row).active? = s.active? := by simp [State.active?]
theorem taken_context? (s : State) (p : Port) (row : Instr) : (s.taken p row).context? = s.context? := by
  simp [State.context?, taken_active?]
theorem taken_runState? (s : State) (p : Port) (row : Instr) : (s.taken p row).runState? = s.runState? := by
  simp [State.runState?, taken_context?]

/-- The row at the front of the queue is run on the state with the rest (the queue is first in, first out). -/
theorem step_cons (s : State) (c : Instr) (rest : List Instr) (h : s.pending = c :: rest) :
    step s = exec c { s with pending := rest } := by simp [step, h]

end Sys2Proof.Machine
end

