-- ==== Sys2Proof/Laws/Marks.lean ====
section
/-! SUPPORT. What the shared operations on marks can change: backlog, one mark, a batch of marks. -/
namespace Sys2Proof.Machine

/-- Membership after a kind is set. -/
theorem mem_setKind (e k : EventKind) (es : List EventKind) : k ∈ setKind e es ↔ k = e ∨ k ∈ es := by
  have h : k ∈ EventKind.all := by cases k <;> decide
  simp [setKind, h]

/-- What an operation of the Re-check unit changes: its own part, and the event sets, where only these kinds are raised. -/
def State.unitOnly (s t : State) (ks : List EventKind) : Prop :=
  ∃ (r : Recheck) (e e' : List EventKind),
    t = { s with recheck := r, cab := { s.cab with events := e }, plan := { s.plan with events := e' } }
      ∧ (∀ k, k ∉ ks → (k ∈ e ↔ k ∈ s.cab.events)) ∧ (∀ k, k ∉ ks → (k ∈ e' ↔ k ∈ s.plan.events))

theorem State.unitOnly_refl (s : State) (ks : List EventKind) : s.unitOnly s ks :=
  ⟨s.recheck, s.cab.events, s.plan.events, rfl, fun _ _ => .rfl, fun _ _ => .rfl⟩

theorem State.unitOnly_trans {s t u : State} {ks : List EventKind} (h : s.unitOnly t ks) (h' : t.unitOnly u ks) : s.unitOnly u ks := by
  obtain ⟨r, e, e', rfl, h1, h2⟩ := h
  obtain ⟨r2, f, f', rfl, h3, h4⟩ := h'
  exact ⟨r2, f, f', rfl, fun k hk => (h3 k hk).trans (h1 k hk), fun k hk => (h4 k hk).trans (h2 k hk)⟩

theorem State.unitOnly_mono {s t : State} {ks ks' : List EventKind} (h : s.unitOnly t ks) (hs : ∀ k ∈ ks, k ∈ ks') : s.unitOnly t ks' := by
  obtain ⟨r, e, e', h0, h1, h2⟩ := h
  exact ⟨r, e, e', h0, fun k hk => h1 k (fun h => hk (hs k h)), fun k hk => h2 k (fun h => hk (hs k h))⟩

theorem State.unitOnly_updRecheck (s : State) (f : Recheck → Recheck) (ks : List EventKind) : s.unitOnly (s.updRecheck f) ks :=
  ⟨f s.recheck, s.cab.events, s.plan.events, rfl, fun _ _ => .rfl, fun _ _ => .rfl⟩

theorem State.unitOnly_raise (s : State) {e : EventKind} {ks : List EventKind} (h : e ∈ ks) : s.unitOnly (s.raise e) ks :=
  ⟨s.recheck, setKind e s.cab.events, setKind e s.plan.events, rfl,
    fun k hk => by simp [mem_setKind, show k ≠ e from fun h' => hk (h' ▸ h)],
    fun k hk => by simp [mem_setKind, show k ≠ e from fun h' => hk (h' ▸ h)]⟩

/-- The backlog test changes the flag and raises BACKLOG, and nothing else (R92). -/
theorem State.unitOnly_evalBacklog (s : State) {ks : List EventKind} (h : .backlog ∈ ks) : s.unitOnly s.evalBacklog ks := by
  unfold State.evalBacklog
  dsimp only
  split
  · exact State.unitOnly_trans (State.unitOnly_updRecheck s _ ks) (State.unitOnly_raise _ h)
  · split
    · exact State.unitOnly_trans (State.unitOnly_updRecheck s _ ks) (State.unitOnly_raise _ h)
    · exact State.unitOnly_refl s ks

/-- The test for SWEPT raises it or does nothing (R91). -/
theorem State.unitOnly_sweptTest (s : State) {ks : List EventKind} (h : .swept ∈ ks) : s.unitOnly s.sweptTest ks := by
  unfold State.sweptTest
  split
  · exact State.unitOnly_raise _ h
  · exact State.unitOnly_refl _ _

/-- A pass that ends changes the unit, and raises BACKLOG and SWEPT (R90, R91). -/
theorem State.unitOnly_endPass (s : State) : s.unitOnly s.endPass [.backlog, .swept] := by
  unfold State.endPass
  exact State.unitOnly_trans (State.unitOnly_trans (State.unitOnly_updRecheck s _ _) (State.unitOnly_evalBacklog _ (by simp)))
    (State.unitOnly_sweptTest _ (by simp))

/-- A pass that waits is begun, or nothing happens; no more than the unit and its two events changes (R82, R90). -/
theorem State.unitOnly_firstWork (s : State) : s.unitOnly s.firstWork [.backlog, .swept] := by
  unfold State.firstWork
  dsimp only
  split
  · unfold State.beginPass
    dsimp only
    split
    · unfold State.scanTo State.startCheck
      exact State.unitOnly_trans (State.unitOnly_updRecheck s _ _)
        (State.unitOnly_trans (State.unitOnly_updRecheck _ _ _) (State.unitOnly_updRecheck _ _ _))
    · exact State.unitOnly_trans (State.unitOnly_updRecheck s _ _) (State.unitOnly_endPass _)
  · exact State.unitOnly_refl s _

/-- With a check in flight, an entry queued, a pass under way or none waiting, no pass is begun. -/
theorem State.firstWork_rest {s : State} (h : s.recheck.inFlight ≠ none ∨ s.recheck.queue ≠ [] ∨ s.recheck.scanPending = false
    ∨ s.recheck.scanPos ≠ none) : s.firstWork = s := by
  unfold State.firstWork
  dsimp only
  rw [if_neg]
  simp only [Bool.and_eq_true, Option.isNone_iff_eq_none, List.isEmpty_iff]
  rintro ⟨⟨⟨h1, h2⟩, h3⟩, h4⟩
  rcases h with h | h | h | h
  · exact h h1
  · exact h h2
  · simp [h] at h3
  · exact h h4

/-- The backlog test leaves the rest of the unit (R92). -/
theorem State.evalBacklog_recheck (s : State) : s.evalBacklog.recheck = { s.recheck with backlog := s.evalBacklog.recheck.backlog } := by
  unfold State.evalBacklog
  dsimp only
  split
  · simp
  · split <;> simp

/-- The rule of R92, as a value. -/
theorem State.evalBacklog_backlog (s : State) : s.evalBacklog.recheck.backlog =
    if Config.backlogOn ≤ s.recheck.queue.length ∨ s.recheck.scanPending = true then true
    else if s.recheck.queue.length ≤ Config.backlogOff then false else s.recheck.backlog := by
  unfold State.evalBacklog
  dsimp only
  rcases hb : s.recheck.backlog <;> by_cases h1 : Config.backlogOn ≤ s.recheck.queue.length <;>
    rcases hp : s.recheck.scanPending <;> by_cases h2 : s.recheck.queue.length ≤ Config.backlogOff <;>
    simp [hb, h1, hp, h2]
  all_goals (simp only [Config.backlogOn, Config.backlogOff] at h1 h2; omega)

/-- One mark changes the Re-check unit and the event sets alone. -/
theorem State.unitOnly_applyMark (s : State) (id : Nat) : s.unitOnly (s.applyMark id) [.backlog] :=
  State.unitOnly_trans (State.unitOnly_updRecheck s _ _)
    (State.unitOnly_trans (State.unitOnly_updRecheck _ _ _) (State.unitOnly_evalBacklog _ (by simp)))

/-- The queue after one mark (R84). -/
theorem State.applyMark_queue (s : State) (id : Nat) : (s.applyMark id).recheck.queue = (s.recheck.takeMark id).queue := by
  unfold State.applyMark
  rw [State.evalBacklog_recheck]
  simp [State.discardCheck]

theorem State.applyMark_scanPending (s : State) (id : Nat) :
    (s.applyMark id).recheck.scanPending = (s.recheck.takeMark id).scanPending := by
  unfold State.applyMark
  rw [State.evalBacklog_recheck]
  simp [State.discardCheck]

theorem State.applyMark_inFlight (s : State) (id : Nat) :
    (s.applyMark id).recheck.inFlight
      = s.recheck.inFlight.map (fun f => if f.id = id then { f with discard := true } else f) := by
  have h : (s.recheck.takeMark id).inFlight = s.recheck.inFlight := by
    unfold Recheck.takeMark; split
    · rfl
    · split <;> rfl
  unfold State.applyMark
  rw [State.evalBacklog_recheck]
  simp [State.discardCheck, h]

/-- A mark leaves what waits in the queue, and puts the id there or sets scan-pending (R84). -/
theorem Recheck.takeMark_waits (r : Recheck) (id : Nat) :
    (∀ k ∈ r.queue, k ∈ (r.takeMark id).queue) ∧ (r.scanPending = true → (r.takeMark id).scanPending = true)
      ∧ (id ∈ (r.takeMark id).queue ∨ (r.takeMark id).scanPending = true) := by
  unfold Recheck.takeMark
  by_cases h : id ∈ r.queue
  · simp [h]
  · by_cases h2 : r.queue.length < Config.queueEntries
    · simp [h, h2]; intro k hk; exact .inl hk
    · simp [h, h2]

/-- A batch of marks changes the Re-check unit and the event sets alone. -/
theorem State.unitOnly_marks (ids : List Nat) (s : State) : s.unitOnly (ids.foldl State.applyMark s) [.backlog] := by
  induction ids generalizing s with
  | nil => exact State.unitOnly_refl s _
  | cons id ids ih => exact State.unitOnly_trans (State.unitOnly_applyMark s id) (ih _)

/-- After a batch every id of it waits in the queue or for the scan, and what waited before still does (R83, R84). -/
theorem State.marks_wait (ids : List Nat) (s : State) :
    let t := ids.foldl State.applyMark s
    (∀ k ∈ s.recheck.queue, k ∈ t.recheck.queue) ∧ (s.recheck.scanPending = true → t.recheck.scanPending = true)
      ∧ (∀ k ∈ ids, k ∈ t.recheck.queue ∨ t.recheck.scanPending = true) := by
  induction ids generalizing s with
  | nil => simp
  | cons id ids ih =>
    have hw := Recheck.takeMark_waits s.recheck id
    rw [← State.applyMark_queue, ← State.applyMark_scanPending] at hw
    obtain ⟨h1, h2, h3⟩ := ih (s.applyMark id)
    refine ⟨fun k hk => h1 k (hw.1 k hk), fun h => h2 (hw.2.1 h), fun k hk => ?_⟩
    rcases List.mem_cons.mp hk with rfl | hk
    · rcases hw.2.2 with h | h
      · exact .inl (h1 _ h)
      · exact .inr (h2 h)
    · exact h3 k hk

/-- A check in flight of a line marked in a batch is to be discarded, and a discard flag stays set (R87). -/
theorem State.marks_discard (ids : List Nat) (s : State) :
    ∀ f ∈ (ids.foldl State.applyMark s).recheck.inFlight,
      ∃ g ∈ s.recheck.inFlight, f.id = g.id ∧ (f.id ∈ ids ∨ g.discard = true → f.discard = true) := by
  induction ids generalizing s with
  | nil => intro f hf; exact ⟨f, hf, rfl, by simp⟩
  | cons id ids ih =>
    intro f hf
    obtain ⟨g, hg, h1, h2⟩ := ih (s.applyMark id) f hf
    rw [State.applyMark_inFlight] at hg
    simp only [Option.mem_def, Option.map_eq_some_iff] at hg
    obtain ⟨g0, hg0, rfl⟩ := hg
    refine ⟨g0, hg0, ?_, ?_⟩
    · rw [h1]; split <;> rfl
    · intro h
      apply h2
      have hid : f.id = g0.id := by rw [h1]; split <;> rfl
      by_cases hh : g0.id = id
      · right; simp [hh]
      · simp only [hh, if_false]
        rcases h with h | h
        · rcases List.mem_cons.mp h with h | h
          · exact absurd (hid ▸ h) hh
          · exact .inl h
        · exact .inr h

/-- Noting a drop leaves the store, the Re-check unit and all else but the last drop and DROPPED (R152, R159). -/
theorem State.noteMarkDrop_keeps (s : State) (ls : List Line) (hit : Line → Bool) :
    (s.noteMarkDrop ls hit).store = s.store ∧ (s.noteMarkDrop ls hit).recheck = s.recheck
      ∧ s.keepsMachine (s.noteMarkDrop ls hit) [.dropped] := by
  unfold State.noteMarkDrop
  split
  · refine ⟨rfl, rfl, rfl, rfl, rfl, rfl, rfl, rfl, rfl, rfl, fun p => by cases p <;> exact ⟨rfl, rfl, rfl, rfl, rfl, rfl, rfl, rfl⟩, ?_⟩
    intro p k hk
    simp only [List.mem_cons, List.not_mem_nil, or_false] at hk
    cases p
    · exact (mem_setKind _ _ _).trans (by simp [hk, State.port])
    · exact (mem_setKind _ _ _).trans (by simp [hk, State.port, State.raiseAt])
  · exact ⟨rfl, rfl, rfl, rfl, rfl, rfl, rfl, rfl, rfl, rfl, fun p => by cases p <;> exact ⟨rfl, rfl, rfl, rfl, rfl, rfl, rfl, rfl⟩,
      fun _ _ _ => .rfl⟩

/-! ## What is kept, put together -/

theorem State.keepsMachine_refl (s : State) (ks : List EventKind) : s.keepsMachine s ks :=
  ⟨rfl, rfl, rfl, rfl, rfl, rfl, rfl, rfl, fun _ => ⟨rfl, rfl, rfl, rfl, rfl, rfl, rfl, rfl⟩, fun _ _ _ => .rfl⟩

theorem State.keepsMachine_trans {s t u : State} {ks : List EventKind} (h : s.keepsMachine t ks) (h' : t.keepsMachine u ks) :
    s.keepsMachine u ks := by
  obtain ⟨a0, a1, a2, a3, a4, a5, a6, a7, a8, a9⟩ := h
  obtain ⟨b0, b1, b2, b3, b4, b5, b6, b7, b8, b9⟩ := h'
  refine ⟨b0.trans a0, b1.trans a1, b2.trans a2, b3.trans a3, b4.trans a4, b5.trans a5, b6.trans a6, ?_, fun p => ?_,
    fun p k hk => (b9 p k hk).trans (a9 p k hk)⟩
  · rw [b7, a7]
  · obtain ⟨c1, c2, c3, c4, c5, c6, c7, c8⟩ := a8 p
    obtain ⟨d1, d2, d3, d4, d5, d6, d7, d8⟩ := b8 p
    exact ⟨d1.trans c1, d2.trans c2, d3.trans c3, d4.trans c4, d5.trans c5, d6.trans c6, d7.trans c7, d8.trans c8⟩

theorem State.keepsMachine_mono {s t : State} {ks ks' : List EventKind} (h : s.keepsMachine t ks) (hs : ∀ k ∈ ks, k ∈ ks') :
    s.keepsMachine t ks' := by
  obtain ⟨a0, a1, a2, a3, a4, a5, a6, a7, a8, a9⟩ := h
  exact ⟨a0, a1, a2, a3, a4, a5, a6, a7, a8, fun p k hk => a9 p k (fun h => hk (hs k h))⟩

/-- A write of the line table changes nothing else. -/
theorem State.setLines_keeps (s : State) (ls : List Line) : s.keepsMachine (s.setLines ls) [] :=
  ⟨rfl, rfl, rfl, rfl, rfl, rfl, rfl, rfl, fun p => by cases p <;> exact ⟨rfl, rfl, rfl, rfl, rfl, rfl, rfl, rfl⟩,
      fun p k _ => by cases p <;> exact Iff.rfl⟩

/-! ## A batch of marks -/

/-- Noting a drop, as a value (R17, R159). -/
theorem State.noteMarkDrop_notes (s : State) (hit : Line → Bool) (ls : List Line) :
    let held := ls.find? (fun l => l.takesMarks && hit l && l.staged?.isSome)
    (∀ l, held = some l → (s.noteMarkDrop ls hit).run.lastDrop = some { id := l.id, reason := .stale }
        ∧ ∀ p : Port, .dropped ∈ ((s.noteMarkDrop ls hit).port p).events)
      ∧ (held = none → s.noteMarkDrop ls hit = s) := by
  unfold State.noteMarkDrop Line.takesMark
  dsimp only
  refine ⟨fun l h => ?_, fun h => ?_⟩
  · rw [h]
    refine ⟨rfl, fun p => ?_⟩
    cases p <;> exact (mem_setKind _ _ _).mpr (.inl rfl)
  · rw [h]

/-- A change of the Re-check unit alone keeps the machine. -/
theorem State.keepsMachine_unitOnly {s t : State} {ks : List EventKind} (h : s.unitOnly t ks) :
    s.keepsMachine t ks ∧ t.store = s.store ∧ t.run = s.run := by
  obtain ⟨r, e, e', rfl, he, he'⟩ := h
  refine ⟨⟨rfl, rfl, rfl, rfl, rfl, rfl, rfl, rfl, fun p => ?_, fun p k hk => ?_⟩, rfl, rfl⟩
  · cases p <;> exact ⟨rfl, rfl, rfl, rfl, rfl, rfl, rfl, rfl⟩
  · cases p
    · exact he k hk
    · exact he' k hk

/-- What the unit does before a batch of marks: a pass that waits is begun if the batch is not empty. -/
def State.beforeMarks (s : State) (hit : Line → Bool) : State :=
  if (markedIds s.store.lines hit).isEmpty then s else s.firstWork

theorem State.unitOnly_beforeMarks (s : State) (hit : Line → Bool) : s.unitOnly (s.beforeMarks hit) [.backlog, .swept] := by
  unfold State.beforeMarks
  split
  · exact State.unitOnly_refl s _
  · exact State.unitOnly_firstWork s

/-- The state on which a batch of marks is applied. -/
def State.markBase (s : State) (hit : Line → Bool) : State := ((s.beforeMarks hit).writeMarks hit).noteMarkDrop s.store.lines hit

theorem State.markLines_eq (s : State) (hit : Line → Bool) :
    s.markLines hit = (markedIds s.store.lines hit).foldl State.applyMark (s.markBase hit) := rfl

/-- That state: the records written, the drop noted, the Re-check unit as its first work left it. -/
theorem State.markBase_spec (s : State) (hit : Line → Bool) :
    (s.markBase hit).store = (s.writeMarks hit).store ∧ (s.markBase hit).recheck = (s.beforeMarks hit).recheck
      ∧ s.keepsMachine (s.markBase hit) [.dropped, .backlog, .swept] ∧ s.notesDrop (s.markBase hit) hit := by
  obtain ⟨h1, h2, h3⟩ := State.noteMarkDrop_keeps ((s.beforeMarks hit).writeMarks hit) s.store.lines hit
  obtain ⟨n1, n2⟩ := State.noteMarkDrop_notes ((s.beforeMarks hit).writeMarks hit) hit s.store.lines
  obtain ⟨k1, k2, k3⟩ := State.keepsMachine_unitOnly (State.unitOnly_beforeMarks s hit)
  have hw : (s.beforeMarks hit).keepsMachine ((s.beforeMarks hit).writeMarks hit) [] := State.setLines_keeps _ _
  refine ⟨?_, h2, ?_, fun l h => n1 l h, fun h => ?_⟩
  · show (((s.beforeMarks hit).writeMarks hit).noteMarkDrop s.store.lines hit).store = _
    rw [h1]
    simp only [State.writeMarks, State.mapLines, State.setLines, k2]
  · exact State.keepsMachine_trans (State.keepsMachine_mono k1 (by simp))
      (State.keepsMachine_trans (State.keepsMachine_mono hw (by simp)) (State.keepsMachine_mono h3 (by simp)))
  · show (((s.beforeMarks hit).writeMarks hit).noteMarkDrop s.store.lines hit).run.lastDrop = _ ∧ _
    unfold State.markBase
    rw [n2 h]
    refine ⟨congrArg (fun r : RunUnit => r.lastDrop) k3, fun p => ?_⟩
    exact ((hw.2.2.2.2.2.2.2.2.2 p .dropped (by simp)).trans (k1.2.2.2.2.2.2.2.2.2 p .dropped (by simp)))

/-- Marks written: the lines hit are STALE without a staged revision, and each waits for its check (R17, R83). -/
theorem State.markLines_marked (s : State) (hit : Line → Bool) : s.marked (s.markLines hit) hit := by
  rw [State.markLines_eq]
  obtain ⟨h1, h2, h3, h4⟩ := State.markBase_spec s hit
  set n := s.markBase hit with hn
  obtain ⟨r, e, e', h, he, he'⟩ := State.unitOnly_marks (markedIds s.store.lines hit) n
  refine ⟨?_, fun l hl g1 g2 => ?_, ?_⟩
  · rw [h]
    show n.store.lines = _
    rw [h1]; rfl
  · have hm : l.id ∈ markedIds s.store.lines hit :=
      List.mem_map_of_mem (List.mem_filter.mpr ⟨hl, by simp [Line.takesMark, g1, g2]⟩)
    refine ⟨(State.marks_wait _ n).2.2 _ hm, fun f hf hid => ?_⟩
    obtain ⟨g, hg, h3, h4⟩ := State.marks_discard _ n f hf
    exact h4 (.inl (hid ▸ hm))
  · rw [h]
    refine ⟨fun l hl => ⟨(h4.1 l hl).1, fun p => ?_⟩, fun hl => ⟨(h4.2 hl).1, fun p => ?_⟩⟩
    · cases p
      · exact (he _ (by simp)).mpr ((h4.1 l hl).2 .cab)
      · exact (he' _ (by simp)).mpr ((h4.1 l hl).2 .plan)
    · cases p
      · exact (he _ (by simp)).trans ((h4.2 hl).2 .cab)
      · exact (he' _ (by simp)).trans ((h4.2 hl).2 .plan)

/-- Marks leave the machine: only DROPPED, BACKLOG and SWEPT are raised, and the last drop may change. -/
theorem State.markLines_keeps (s : State) (hit : Line → Bool) : s.keepsMachine (s.markLines hit) [.dropped, .backlog, .swept] := by
  rw [State.markLines_eq]
  exact State.keepsMachine_trans (State.markBase_spec s hit).2.2.1
    (State.keepsMachine_mono (State.keepsMachine_unitOnly (State.unitOnly_marks _ _)).1 (by simp))

/-- Marks leave the stations and the settings. -/
theorem State.markLines_store (s : State) (hit : Line → Bool) :
    (s.markLines hit).store.stations = s.store.stations ∧ (s.markLines hit).store.settings = s.store.settings := by
  rw [State.markLines_eq, (State.keepsMachine_unitOnly (State.unitOnly_marks _ _)).2.1, (State.markBase_spec s hit).1]
  exact ⟨rfl, rfl⟩

/-- Marks leave what a port holds but its event set. -/
theorem State.markLines_commit (s : State) (hit : Line → Bool) (p : Port) :
    ((s.markLines hit).port p).commit = (s.port p).commit := by
  have hu : ∀ {a b : State} {ks : List EventKind}, a.unitOnly b ks → (b.port p).commit = (a.port p).commit := by
    rintro a b ks ⟨r, e, e', rfl, -, -⟩; cases p <;> rfl
  rw [State.markLines_eq, hu (State.unitOnly_marks _ _)]
  refine Eq.trans ?_ (hu (State.unitOnly_beforeMarks s hit))
  unfold State.markBase State.noteMarkDrop
  split <;> cases p <;> rfl

/-- The progress of a commit in flight leaves all else of its port. -/
theorem PortState.proceed_eq (q : PortState) (st : Store) (n : Nat) :
    q.proceed st n = { q with commit := (q.proceed st n).commit } ∧ (q.proceed st n).commit.map (fun c => c.was) = q.commit.map (fun c => c.was)
      ∧ (q.proceed st n).commit.map (fun c => c.reached) = q.commit.map (fun c => c.reached) := by
  unfold PortState.proceed
  split
  · rename_i h _; simp [h]
  · exact ⟨rfl, rfl, rfl⟩

/-- Checks that have proceeded leave everything but how far they have got. -/
theorem State.proceedChecks_keeps (s : State) : s.proceedChecks.store = s.store ∧ s.keepsMachine s.proceedChecks [] := by
  refine ⟨rfl, rfl, rfl, rfl, rfl, rfl, rfl, rfl, rfl, fun p => ?_, fun p k _ => ?_⟩
  · cases p
    · obtain ⟨h, h1, -⟩ := PortState.proceed_eq s.cab s.store (Config.checkReads s.free)
      show s.cab.keeps (s.cab.proceed _ _)
      refine ⟨?_, ?_, ?_, ?_, ?_, ?_, ?_, h1⟩ <;> rw [h]
    · obtain ⟨h, h1, -⟩ := PortState.proceed_eq s.plan s.store (Config.checkReads (s.free + 1))
      show s.plan.keeps (s.plan.proceed _ _)
      refine ⟨?_, ?_, ?_, ?_, ?_, ?_, ?_, h1⟩ <;> rw [h]
  · cases p
    · show k ∈ (s.cab.proceed _ _).events ↔ _
      rw [(PortState.proceed_eq s.cab s.store (Config.checkReads s.free)).1]; exact .rfl
    · show k ∈ (s.plan.proceed _ _).events ↔ _
      rw [(PortState.proceed_eq s.plan s.store (Config.checkReads (s.free + 1))).1]; exact .rfl

/-- The unit's queue, scan and backlog do not move as its check proceeds. -/
theorem Recheck.proceed_eq (r : Recheck) (st : Store) (n : Nat) :
    r.proceed st n = { r with inFlight := (r.proceed st n).inFlight }
      ∧ (r.proceed st n).inFlight.map (fun f => (f.id, f.discard, f.origin)) = r.inFlight.map (fun f => (f.id, f.discard, f.origin)) := by
  unfold Recheck.proceed
  split
  · exact ⟨rfl, rfl⟩
  · rename_i f h
    split
    · exact ⟨rfl, rfl⟩
    · simp [h]

/-- A commit reached leaves all else of its port (R78). -/
theorem PortState.reach_eq (q : PortState) (st : Store) (c : Change) :
    q.reach st c = { q with commit := (q.reach st c).commit } ∧ (q.reach st c).commit.map (fun c => c.was) = q.commit.map (fun c => c.was) := by
  unfold PortState.reach
  split
  · refine ⟨rfl, ?_⟩
    cases q.commit <;> rfl
  · exact ⟨rfl, rfl⟩

/-- A change that reaches commits leaves everything but that they are reached (R78). -/
theorem State.reach_keeps (s : State) (c : Change) : (s.reach c).store = s.store ∧ (s.reach c).recheck = s.recheck
    ∧ s.keepsMachine (s.reach c) [] := by
  refine ⟨rfl, rfl, rfl, rfl, rfl, rfl, rfl, rfl, rfl, rfl, fun p => ?_, fun p k _ => ?_⟩
  · cases p
    · obtain ⟨h, h1⟩ := PortState.reach_eq s.cab s.store c
      show s.cab.keeps (s.cab.reach _ _)
      refine ⟨?_, ?_, ?_, ?_, ?_, ?_, ?_, h1⟩ <;> rw [h]
    · obtain ⟨h, h1⟩ := PortState.reach_eq s.plan s.store c
      show s.plan.keeps (s.plan.reach _ _)
      refine ⟨?_, ?_, ?_, ?_, ?_, ?_, ?_, h1⟩ <;> rw [h]
  · cases p
    · show k ∈ (s.cab.reach _ _).events ↔ _
      rw [(PortState.reach_eq s.cab s.store c).1]; exact .rfl
    · show k ∈ (s.plan.reach _ _).events ↔ _
      rw [(PortState.reach_eq s.plan s.store c).1]; exact .rfl

/-- A commit that is reached is recorded as reached, and no other (R78). -/
theorem State.reach_reaches (s : State) (c : Change) : s.reaches (s.reach c) c := by
  have key : ∀ (q : PortState) (k : CommitRun), q.commit = some k →
      ∃ k', (q.reach s.store c).commit = some k' ∧ (k'.reached = true ↔ k.reached = true ∨ q.reachedBy s.store c) := by
    intro q k hk
    have hb : q.isReached s.store c = true ↔ q.reachedBy s.store c := by
      unfold PortState.isReached PortState.draftHit PortState.reachedBy
      rw [hk]
      rcases q.claim with _ | id
      · simp
      · rcases q.draft with _ | d
        · simp [Option.any_eq_true]
        · simp only [Option.isSome_some, Bool.true_and, Option.bind_some, Bool.or_eq_true, Option.any_eq_true]
          constructor
          · rintro (h | ⟨l, hl, h⟩)
            · refine ⟨id, rfl, .inl ⟨d, rfl, ?_⟩⟩
              by_contra hn
              rw [if_neg hn] at h; simp at h
            · exact ⟨id, rfl, .inr ⟨l, hl, h⟩⟩
          · rintro ⟨id', h0, h⟩
            cases h0
            rcases h with ⟨d', h1, h2⟩ | ⟨l, hl, h2⟩
            · cases h1; left; rw [if_pos h2]; rfl
            · exact .inr ⟨l, hl, h2⟩
    unfold PortState.reach
    by_cases h : q.isReached s.store c = true
    · rw [if_pos h]
      exact ⟨{ k with reached := true }, by simp [hk], by simp [hb.mp h]⟩
    · rw [if_neg h]
      exact ⟨k, hk, ⟨.inl, fun h' => h'.elim id (fun h'' => absurd (hb.mpr h'') h)⟩⟩
  intro p k hk
  cases p
  · exact key s.cab k hk
  · exact key s.plan k hk

/-- A marking change marks the lines it hits, records the commits it reaches, and leaves the machine, the stations and the settings
(R17, R78). -/
theorem State.markingChange_spec (s : State) (c : Change) :
    s.marked (s.markingChange c) (s.marksLine c) ∧ s.keepsMachine (s.markingChange c) [.dropped, .backlog, .swept]
      ∧ (s.markingChange c).store.stations = s.store.stations ∧ (s.markingChange c).store.settings = s.store.settings
      ∧ s.reaches (s.markingChange c) c := by
  obtain ⟨h1, h2, h3⟩ := State.reach_keeps s c
  obtain ⟨m1, m2, m3, m4⟩ := State.markLines_marked (s.reach c) (s.marksLine c)
  refine ⟨⟨m1, m2, m3, fun h => ?_⟩, ?_, State.markLines_store (s.reach c) _ |>.1, State.markLines_store (s.reach c) _ |>.2, fun p k hk => ?_⟩
  · exact ⟨(m4 h).1, fun p => ((m4 h).2 p).trans (h3.2.2.2.2.2.2.2.2.2 p .dropped (by simp))⟩
  · exact State.keepsMachine_trans (State.keepsMachine_mono h3 (by simp)) (State.markLines_keeps (s.reach c) _)
  · obtain ⟨k', hk', h⟩ := State.reach_reaches s c p k hk
    exact ⟨k', (State.markLines_commit (s.reach c) _ p).trans hk', h⟩

/-- Checks proceed alike whether or not a line has just been taken. -/
theorem State.proceedChecks_taken (s : State) (p : Port) (row : Instr) :
    (s.taken p row).proceedChecks = s.proceedChecks.taken p row := by
  have key : ∀ (q : PortState) (st : Store) (n : Nat),
      PortState.proceed { q with buffer := emptyBuffer, hand := .waiting row, lapse := none } st n
        = { q.proceed st n with buffer := emptyBuffer, hand := .waiting row, lapse := none } := by
    intro q st n
    obtain ⟨b, h, o, cl, d, la, co, ev, m⟩ := q
    cases co <;> cases cl <;> cases d <;> rfl
  cases p
  · show ({ s.taken .cab row with cab := PortState.proceed { s.cab with buffer := emptyBuffer, hand := .waiting row, lapse := none } s.store _, plan := _, recheck := _, free := _ } : State) = _
    rw [key]; rfl
  · show ({ s.taken .plan row with cab := _, plan := PortState.proceed { s.plan with buffer := emptyBuffer, hand := .waiting row, lapse := none } s.store _, recheck := _, free := _ } : State) = _
    rw [key]; rfl

/-- What a change hits does not depend on a line having been taken. -/
theorem State.marksLine_taken (s : State) (p : Port) (row : Instr) (c : Change) : (s.taken p row).marksLine c = s.marksLine c := by
  cases p <;> rfl

/-- What a change hits does not depend on how far checks have got. -/
theorem State.marksLine_proceedChecks (s : State) (c : Change) : s.proceedChecks.marksLine c = s.marksLine c := by
  have key : ∀ (q : PortState) (st : Store) (n : Nat), (q.proceed st n).draftHit c = q.draftHit c := by
    intro q st n
    obtain ⟨b, h, o, cl, d, la, co, ev, m⟩ := q
    cases co <;> cases cl <;> cases d <;> rfl
  funext l
  show (c.hitsLine l || (s.cab.proceed _ _).draftHit c == some l.id || (s.plan.proceed _ _).draftHit c == some l.id) = _
  rw [key, key]; rfl

/-- A reply sent after a change that keeps the machine. -/
theorem State.keepsMachine_reply {s t : State} {ks : List EventKind} (h : s.keepsMachine t ks) (p : Port) (r : Reply) :
    (s.reply p r).keepsMachine (t.reply p r) ks := by
  obtain ⟨a0, a1, a2, a3, a4, a5, a6, a7, a8, a9⟩ := h
  cases p
  · refine ⟨a0, a1, a2, a3, a4, a5, a6, a7, fun p => ?_, fun p k hk => ?_⟩
    · cases p
      · obtain ⟨c1, c2, c3, c4, c5, c6, c7, c8⟩ := a8 .cab
        exact ⟨c1, congrArg (fun h : Hand => Hand.sending h.command? r) c2, c3, c4, c5, c6, c7, c8⟩
      · exact a8 .plan
    · cases p
      · exact a9 .cab k hk
      · exact a9 .plan k hk
  · refine ⟨a0, a1, a2, a3, a4, a5, a6, a7, fun p => ?_, fun p k hk => ?_⟩
    · cases p
      · exact a8 .cab
      · obtain ⟨c1, c2, c3, c4, c5, c6, c7, c8⟩ := a8 .plan
        exact ⟨c1, congrArg (fun h : Hand => Hand.sending h.command? r) c2, c3, c4, c5, c6, c7, c8⟩
    · cases p
      · exact a9 .cab k hk
      · exact a9 .plan k hk

/-- Marks read the lines, the last drop and DROPPED alone of the state before them. -/
theorem State.marked_congr {s u t : State} {hit : Line → Bool} (h1 : u.store.lines = s.store.lines) (h2 : u.run.lastDrop = s.run.lastDrop)
    (h3 : ∀ p : Port, .dropped ∈ (u.port p).events ↔ .dropped ∈ (s.port p).events) (h : u.marked t hit) : s.marked t hit := by
  obtain ⟨m1, m2, m3, m4⟩ := h
  rw [h1] at m1 m2 m3 m4
  exact ⟨m1, m2, m3, fun hl => ⟨(m4 hl).1.trans h2, fun p => ((m4 hl).2 p).trans (h3 p)⟩⟩

/-- The commits a change reaches depend on the claims, the drafts and the lines alone. -/
theorem State.reaches_congr {s u t : State} {c : Change} (h1 : u.store.lines = s.store.lines)
    (h2 : ∀ p : Port, (u.port p).claim = (s.port p).claim ∧ (u.port p).draft = (s.port p).draft
      ∧ (u.port p).commit.map (fun k => k.reached) = (s.port p).commit.map (fun k => k.reached))
    (h : u.reaches t c) : s.reaches t c := by
  intro p k hk
  obtain ⟨e1, e2, e3⟩ := h2 p
  rw [hk] at e3
  obtain ⟨k0, hk0, e4⟩ := Option.map_eq_some_iff.mp e3
  obtain ⟨k', hk', h'⟩ := h p k0 hk0
  refine ⟨k', hk', h'.trans ?_⟩
  have hl : ∀ id, u.store.line? id = s.store.line? id := fun id => by unfold Store.line?; rw [h1]
  unfold PortState.reachedBy
  simp only [e1, e2, e4, hl]

/-- A reply does not change which commits are recorded as reached. -/
theorem State.reaches_reply {s t : State} {c : Change} (h : s.reaches t c) (p : Port) (r : Reply) : s.reaches (t.reply p r) c := by
  intro q k hk
  obtain ⟨k', hk', h'⟩ := h q k hk
  refine ⟨k', ?_, h'⟩
  cases p <;> cases q <;> exact hk'

/-- A line taken, and checks that have proceeded, leave the claims, the drafts and which commits are reached. -/
theorem State.taken_proceedChecks_ports (s : State) (p : Port) (row : Instr) (q : Port) :
    ((s.taken p row).proceedChecks.port q).claim = (s.port q).claim ∧ ((s.taken p row).proceedChecks.port q).draft = (s.port q).draft
      ∧ ((s.taken p row).proceedChecks.port q).commit.map (fun k => k.reached) = (s.port q).commit.map (fun k => k.reached) := by
  have key : ∀ (x : PortState) (st : Store) (n : Nat), (x.proceed st n).claim = x.claim ∧ (x.proceed st n).draft = x.draft
      ∧ (x.proceed st n).commit.map (fun k => k.reached) = x.commit.map (fun k => k.reached) := by
    intro x st n
    obtain ⟨h, -, h2⟩ := PortState.proceed_eq x st n
    refine ⟨?_, ?_, h2⟩ <;> rw [h]
  have hp : ((s.taken p row).proceedChecks.port q).claim = ((s.taken p row).port q).claim
      ∧ ((s.taken p row).proceedChecks.port q).draft = ((s.taken p row).port q).draft
      ∧ ((s.taken p row).proceedChecks.port q).commit.map (fun k => k.reached) = ((s.taken p row).port q).commit.map (fun k => k.reached) := by
    cases q <;> exact key _ _ _
  obtain ⟨h1, h2, h3⟩ := hp
  refine ⟨h1.trans ?_, h2.trans ?_, h3.trans ?_⟩ <;> cases p <;> cases q <;> rfl

/-- Marks do not depend on a reply being sent. -/
theorem State.marked_reply {s t : State} {hit : Line → Bool} (h : s.marked t hit) (p : Port) (r : Reply) : s.marked (t.reply p r) hit := by
  obtain ⟨h1, h2, h3, h4⟩ := h
  cases p
  · exact ⟨h1, h2, fun l hl => ⟨(h3 l hl).1, fun q => by cases q; exacts [(h3 l hl).2 .cab, (h3 l hl).2 .plan]⟩,
      fun hl => ⟨(h4 hl).1, fun q => by cases q; exacts [(h4 hl).2 .cab, (h4 hl).2 .plan]⟩⟩
  · exact ⟨h1, h2, fun l hl => ⟨(h3 l hl).1, fun q => by cases q; exacts [(h3 l hl).2 .cab, (h3 l hl).2 .plan]⟩,
      fun hl => ⟨(h4 hl).1, fun q => by cases q; exacts [(h4 hl).2 .cab, (h4 hl).2 .plan]⟩⟩

end Sys2Proof.Machine
end

