-- ==== Sys2Proof/Laws/Lines.lean ====
section
/-! SUPPORT. The line table under the operations that write it: what each line reads as afterwards. -/
namespace Sys2Proof.Machine

/-- Looking up an id in a table whose records were changed under their ids. -/
theorem find_map_id {f : Line → Line} (hf : ∀ l, (f l).id = l.id) (ls : List Line) (id : Nat) :
    (ls.map f).find? (fun l => l.id == id) = (ls.find? (fun l => l.id == id)).map f := by
  induction ls with
  | nil => rfl
  | cons l ls ih =>
    simp only [List.map_cons, List.find?_cons, hf]
    split
    · rfl
    · exact ih

/-- Every record changed under its id. -/
theorem State.mapLines_line? {f : Line → Line} (hf : ∀ l, (f l).id = l.id) (s : State) (id : Nat) :
    (s.mapLines f).line? id = (s.line? id).map f := find_map_id hf s.store.lines id

/-- A record that is found has the id. -/
theorem State.line?_id {s : State} {id : Nat} {l : Line} (h : s.line? id = some l) : l.id = id := by
  simpa using List.find?_some h

/-- A record that is found is in the table. -/
theorem State.line?_mem {s : State} {id : Nat} {l : Line} (h : s.line? id = some l) : l ∈ s.store.lines := List.mem_of_find?_eq_some h

/-- One record changed: that one reads changed, the others as before. -/
theorem State.updLine_line? {f : Line → Line} (hf : ∀ l, (f l).id = l.id) (s : State) (id k : Nat) :
    (s.updLine id f).line? k = if k = id then (s.line? k).map f else s.line? k := by
  unfold State.updLine
  rw [State.mapLines_line? (fun l => by split <;> simp [hf])]
  by_cases h : k = id
  · subst h
    simp only [if_true]
    rcases hl : s.line? k with _ | l
    · rfl
    · simp [State.line?_id hl]
  · rw [if_neg h]
    rcases hl : s.line? k with _ | l
    · rfl
    · have : l.id ≠ id := by rw [State.line?_id hl]; exact h
      simp [this]

@[simp] theorem Line.setStaged_id (l : Line) (st : Option Staged) : (l.setStaged st).id = l.id := by
  unfold Line.setStaged; split <;> rfl
@[simp] theorem Line.setStaged_status (l : Line) (st : Option Staged) : (l.setStaged st).status = l.status := by
  unfold Line.setStaged; split <;> rfl
@[simp] theorem Line.setStaged_outlet (l : Line) (st : Option Staged) : (l.setStaged st).outlet = l.outlet := by
  unfold Line.setStaged; split <;> rfl
@[simp] theorem Line.setStaged_profile (l : Line) (st : Option Staged) : (l.setStaged st).profile = l.profile := by
  unfold Line.setStaged; split <;> rfl
@[simp] theorem Line.setStaged_spans (l : Line) (st : Option Staged) : (l.setStaged st).spans = l.spans := by
  unfold Line.setStaged; split <;> rfl
@[simp] theorem Line.setStaged_revision (l : Line) (st : Option Staged) : (l.setStaged st).revision = l.revision := by
  unfold Line.setStaged; split <;> rfl
@[simp] theorem Line.setStaged_label (l : Line) (st : Option Staged) : (l.setStaged st).label = l.label := by
  unfold Line.setStaged; split <;> rfl
@[simp] theorem Line.setStaged_kind (l : Line) (st : Option Staged) : (l.setStaged st).lifecycle.kind = l.lifecycle.kind := by
  unfold Line.setStaged; split
  · rename_i h; simp [h, Lifecycle.kind]
  · rfl
@[simp] theorem Line.updRun_id (l : Line) (f : RunContext → RunContext) : (l.updRun f).id = l.id := by
  unfold Line.updRun; split <;> rfl
@[simp] theorem Line.updRun_status (l : Line) (f : RunContext → RunContext) : (l.updRun f).status = l.status := by
  unfold Line.updRun; split <;> rfl
@[simp] theorem Line.updRun_kind (l : Line) (f : RunContext → RunContext) : (l.updRun f).lifecycle.kind = l.lifecycle.kind := by
  unfold Line.updRun; split
  · rename_i h; simp [h, Lifecycle.kind]
  · rfl
@[simp] theorem Line.marked_id (l : Line) : l.marked.id = l.id := by simp [Line.marked]

/-- What each line reads as after marks (R17). -/
theorem State.marked_line? {s t : State} {hit : Line → Bool} (h : s.marked t hit) (id : Nat) :
    t.line? id = (s.line? id).map (fun l => if l.takesMarks && hit l then { l.setStaged none with status := .stale } else l) := by
  show t.store.lines.find? _ = _
  rw [h.1]
  exact find_map_id (fun l => by split <;> simp) s.store.lines id

/-- A record put into the table is found, and the others as before (R1). -/
theorem insertLine_find (l : Line) (ls : List Line) (h : ls.find? (fun k => k.id == l.id) = none) (id : Nat) :
    (insertLine l ls).find? (fun k => k.id == id) = if id = l.id then some l else ls.find? (fun k => k.id == id) := by
  induction ls with
  | nil =>
    by_cases hid : id = l.id
    · simp [insertLine, hid]
    · have : l.id ≠ id := fun h => hid h.symm
      simp [insertLine, hid, this]
  | cons m ms ih =>
    simp only [List.find?_cons] at h
    split at h
    · exact absurd h (by simp)
    · rename_i hm
      unfold insertLine
      split
      · by_cases hid : id = l.id
        · simp [hid]
        · have : (l.id == id) = false := by simpa using fun h => hid (Eq.symm h)
          rw [List.find?_cons, this]
          simp [hid]
      · simp only [List.find?_cons]
        by_cases hid : id = l.id
        · subst hid
          rw [hm, ih h]
        · rcases hmid : m.id == id
          · rw [ih h, if_neg hid]
          · rw [if_neg hid]

/-- A queue after marks holds what it held and ids of the batch (R84). -/
theorem State.marks_queue_sub (ids : List Nat) (s : State) :
    ∀ k ∈ (ids.foldl State.applyMark s).recheck.queue, k ∈ s.recheck.queue ∨ k ∈ ids := by
  induction ids generalizing s with
  | nil => intro k hk; exact .inl hk
  | cons id ids ih =>
    intro k hk
    rcases ih (s.applyMark id) k hk with h | h
    · rw [State.applyMark_queue] at h
      unfold Recheck.takeMark at h
      split at h
      · exact .inl h
      · split at h
        · rcases List.mem_append.mp h with h | h
          · exact .inl h
          · simp only [List.mem_singleton] at h; exact .inr (h ▸ List.mem_cons_self)
        · exact .inl h
    · exact .inr (List.mem_cons_of_mem _ h)

/-- The unit's first work leaves the queue; a check it starts is of a STALE line, by the scan (R90). -/
theorem State.firstWork_spec (s : State) : s.firstWork.recheck.queue = s.recheck.queue
    ∧ (∀ f ∈ s.firstWork.recheck.inFlight, f ∈ s.recheck.inFlight ∨ ∃ l ∈ s.store.lines, l.id = f.id ∧ l.status = .stale) := by
  unfold State.firstWork
  dsimp only
  split
  · rename_i h
    simp only [Bool.and_eq_true, Option.isNone_iff_eq_none] at h
    unfold State.beginPass
    dsimp only
    split
    · rename_i id hid
      refine ⟨rfl, fun f hf => .inr ?_⟩
      obtain ⟨l, hl, rfl⟩ := Option.map_eq_some_iff.mp hid
      have h2 := List.find?_some hl
      simp only [Bool.and_eq_true, beq_iff_eq] at h2
      refine ⟨l, List.mem_of_find?_eq_some hl, ?_, h2.2⟩
      simp only [State.scanTo, State.startCheck, State.updRecheck_recheck, Option.mem_def, Option.some.injEq] at hf
      rw [← hf]
    · have he : ∀ u : State, u.endPass.recheck.queue = u.recheck.queue ∧ u.endPass.recheck.inFlight = u.recheck.inFlight := by
        intro u
        have : ∀ v : State, v.sweptTest.recheck = v.recheck := by intro v; unfold State.sweptTest; split <;> rfl
        unfold State.endPass
        rw [this, State.evalBacklog_recheck]
        exact ⟨rfl, rfl⟩
      refine ⟨(he _).1, fun f hf => .inl ?_⟩
      rw [(he _).2] at hf
      exact hf
  · exact ⟨rfl, fun f hf => .inl hf⟩

theorem State.beforeMarks_spec (s : State) (hit : Line → Bool) : (s.beforeMarks hit).recheck.queue = s.recheck.queue
    ∧ (∀ f ∈ (s.beforeMarks hit).recheck.inFlight, f ∈ s.recheck.inFlight ∨ ∃ l ∈ s.store.lines, l.id = f.id ∧ l.status = .stale) := by
  unfold State.beforeMarks
  split
  · exact ⟨rfl, fun f hf => .inl hf⟩
  · exact State.firstWork_spec s

/-- The queue after a batch of marks: what it held, and ids of lines hit. -/
theorem State.markLines_queue_sub (s : State) (hit : Line → Bool) :
    ∀ k ∈ (s.markLines hit).recheck.queue, k ∈ s.recheck.queue ∨ ∃ l ∈ s.store.lines, l.takesMarks = true ∧ hit l = true ∧ l.id = k := by
  intro k hk
  rw [State.markLines_eq] at hk
  rcases State.marks_queue_sub _ _ k hk with h | h
  · rw [(State.markBase_spec s hit).2.1, (State.beforeMarks_spec s hit).1] at h
    exact .inl h
  · obtain ⟨l, hl, rfl⟩ := List.mem_map.mp h
    obtain ⟨h1, h2⟩ := List.mem_filter.mp hl
    simp only [Line.takesMark, Bool.and_eq_true] at h2
    exact .inr ⟨l, h1, h2.1, h2.2, rfl⟩

/-- A check in flight after marks was in flight, with its discard flag perhaps set, or was begun by the scan, of a STALE line. -/
theorem State.markLines_inFlight (s : State) (hit : Line → Bool) :
    ∀ f ∈ (s.markLines hit).recheck.inFlight, (∃ g ∈ s.recheck.inFlight, f.id = g.id ∧ (g.discard = true → f.discard = true))
      ∨ ∃ l ∈ s.store.lines, l.id = f.id ∧ l.status = .stale := by
  intro f hf
  rw [State.markLines_eq] at hf
  obtain ⟨g, hg, h1, h2⟩ := State.marks_discard _ _ f hf
  rw [(State.markBase_spec s hit).2.1] at hg
  rcases (State.beforeMarks_spec s hit).2 g hg with h | ⟨l, hl, h3, h4⟩
  · exact .inl ⟨g, h, h1, fun h => h2 (.inr h)⟩
  · exact .inr ⟨l, hl, h3.trans h1.symm, h4⟩

/-- With no staged revision among the lines hit, nothing is dropped: the last drop stays, and only BACKLOG and SWEPT are raised. -/
theorem State.markLines_quiet (s : State) (hit : Line → Bool)
    (h : ∀ l ∈ s.store.lines, l.takesMarks = true → hit l = true → l.staged? = none) :
    (s.markLines hit).run = s.run ∧ s.keepsMachine (s.markLines hit) [.backlog, .swept] := by
  have hn : s.markBase hit = (s.beforeMarks hit).writeMarks hit := by
    refine (State.noteMarkDrop_notes _ hit s.store.lines).2 ?_
    rw [List.find?_eq_none]
    intro l hl
    by_cases h1 : l.takesMarks = true <;> by_cases h2 : hit l = true <;> simp [h1, h2]
    simp [h l hl h1 h2]
  obtain ⟨k1, k2, k3⟩ := State.keepsMachine_unitOnly (State.unitOnly_beforeMarks s hit)
  obtain ⟨m1, m2, m3⟩ := State.keepsMachine_unitOnly (State.unitOnly_marks (markedIds s.store.lines hit) (s.markBase hit))
  rw [State.markLines_eq]
  refine ⟨by rw [m3, hn]; exact k3, State.keepsMachine_trans k1 (State.keepsMachine_trans ?_ (State.keepsMachine_mono m1 (by simp)))⟩
  rw [hn]
  exact State.keepsMachine_mono (State.setLines_keeps _ _) (by simp)

/-- An id taken out of the queue is no longer in it (R85). -/
theorem State.unqueue_queue (s : State) (id : Nat) : (s.unqueue id).recheck.queue = s.recheck.queue.filter (fun k => k != id) := by
  unfold State.unqueue
  split
  · rw [State.evalBacklog_recheck]; rfl
  · rename_i h
    symm
    rw [List.filter_eq_self]
    intro k hk
    simp only [bne_iff_ne, ne_eq]
    rintro rfl
    simp [hk] at h

/-- Taking an id out of the queue changes the Re-check unit and the event sets alone. -/
theorem State.unitOnly_unqueue (s : State) (id : Nat) : s.unitOnly (s.unqueue id) [.backlog] := by
  unfold State.unqueue
  split
  · exact State.unitOnly_trans (State.unitOnly_updRecheck s _ _) (State.unitOnly_evalBacklog _ (by simp))
  · exact State.unitOnly_refl s _

/-- Nor does it touch the check in flight. -/
theorem State.unqueue_inFlight (s : State) (id : Nat) : (s.unqueue id).recheck.inFlight = s.recheck.inFlight := by
  unfold State.unqueue
  split
  · rw [State.evalBacklog_recheck]; rfl
  · rfl

end Sys2Proof.Machine
end

