-- ==== Sys2Proof/Laws/Operands.lean ====
section
/-! SUPPORT. Operands and slots: what the readers of words and the writers of draft slots give. -/
namespace Sys2Proof.Machine

/-- A station's number names the station (R24). -/
theorem stationOf?_number (n : StationId) : stationOf? n.number = some n := by cases n <;> rfl

/-- A list of event kinds is refused when one word of it names none (R172). -/
theorem eventKinds?_none (writeSlots_spec : List Text) : eventKinds? writeSlots_spec = none ↔ ∃ w ∈ writeSlots_spec,
    eventKind? w = none := by
  induction writeSlots_spec with
  | nil => simp [eventKinds?]
  | cons w writeSlots_spec ih =>
    unfold eventKinds?
    rcases h : eventKind? w with _ | e
    · simp [h]
    · rcases h2 : eventKinds? writeSlots_spec with _ | es
      · have := ih.mp h2; simp [h]; exact this
      · have : ¬∃ w ∈ writeSlots_spec, eventKind? w = none := fun hh => by rw [ih.mpr hh] at h2; cases h2
        simp [h]; push Not at this; exact this

/-- The kinds read are those that a word names (R172). -/
theorem mem_eventKinds? (writeSlots_spec : List Text) (es) (h : eventKinds? writeSlots_spec = some es)
    (k) : k ∈ es ↔ ∃ w ∈ writeSlots_spec, eventKind? w = some k := by
  induction writeSlots_spec generalizing es with
  | nil => simp [eventKinds?] at h; subst h; simp
  | cons w writeSlots_spec ih =>
    unfold eventKinds? at h
    rcases h1 : eventKind? w with _ | e
    · simp [h1] at h
    · rcases h2 : eventKinds? writeSlots_spec with _ | es'
      · simp [h1, h2] at h
      · simp [h1, h2] at h; subst h
        simp [ih _ h2, h1]; tauto

/-- An odd number of numbers makes no pairs (R68). -/
theorem pairs?_odd (ns : List Int) (h : ns.length % 2 = 1) : pairs? ns = none := by
  induction ns using pairs?.induct with
  | case1 => simp at h
  | case2 => rfl
  | case3 c z rest ih => simp only [pairs?]; rw [ih (by simp at h; omega)]; rfl

/-- Pairs are made of two numbers each (R68). -/
theorem pairs?_length (ns : List Int) (ps) (h : pairs? ns = some ps) : ns.length = 2 * ps.length := by
  induction ns using pairs?.induct generalizing ps with
  | case1 => simp [pairs?] at h; subst h; rfl
  | case2 => simp [pairs?] at h
  | case3 c z rest ih =>
    simp only [pairs?] at h
    rcases hr : pairs? rest with _ | qs
    · simp [hr] at h
    · simp [hr] at h; subst h; have := ih _ hr; simp; omega

/-- The pairs written out one after the other read back (R68). -/
theorem pairs?_flat (ps : List Point) : pairs? (ps.flatMap (fun q => [q.chainage, q.invert])) = some ps := by
  induction ps with
  | nil => rfl
  | cons q ps ih => simp only [List.flatMap_cons, List.cons_append, List.nil_append, pairs?, ih]; rfl

/-- Slots after a write: the written ones hold the points, the others what they held (R68). -/
theorem writeSlots_spec (k : Nat) (ps : List Point) (sl : List (Option Point)) : (writeSlots k ps sl).length = sl.length
    ∧ ∀ j, j < sl.length → (writeSlots k ps sl)[j]? =
   if k ≤ j ∧ j < k + ps.length then some ps[j - k]? else sl[j]? := by
  induction ps generalizing k sl with
  | nil => exact ⟨rfl, fun j _ => by rw [if_neg (by simp)]; rfl⟩
  | cons q ps ih =>
    obtain ⟨h1, h2⟩ := ih (k + 1) (sl.set k (some q))
    refine ⟨by rw [writeSlots, h1, List.length_set], fun j hj => ?_⟩
    rw [writeSlots, h2 j (by simpa using hj)]
    by_cases hjk : j = k
    · subst hjk; simp [hj]
    · by_cases hh : k + 1 ≤ j ∧ j < k + 1 + ps.length
      · rw [if_pos hh, if_pos (by simp; omega)]
        obtain ⟨m, rfl⟩ : ∃ m, j = k + 1 + m := ⟨j - (k+1), by omega⟩
        simp [show k + 1 + m - k = m + 1 by omega]
      · rw [if_neg hh, if_neg (by simp; omega), List.getElem?_set_ne (Ne.symm hjk)]

/-- Filled slots hold the list they were filled from (R66). -/
theorem present_fillSlots {α} (n : Nat) (xs : List α) : present (fillSlots n xs) = xs.take n := by
  unfold present fillSlots
  rw [List.take_append]
  simp [List.filterMap_append, List.take_replicate]
  rw [← List.map_take, List.filterMap_map]
  exact List.filterMap_some

/-- A signature collides with another IN_SERVICE station's under SIG_MASK (R34). -/
theorem Store.collides_iff (s : State) (n : StationId) (sig : Byte) : s.store.collides n sig = true ↔
    ∃ (m : StationId) (d : StationData), m ≠ n ∧ s.store.stations.get m = .inService d
        ∧ d.signature &&& s.settings.sigMask = sig &&& s.settings.sigMask := by
  unfold Store.collides
  rw [List.any_eq_true]
  constructor
  · rintro ⟨m, -, h⟩
    simp only [Bool.and_eq_true, bne_iff_ne, ne_eq] at h
    obtain ⟨h1, h2⟩ := h
    split at h2
    · rename_i d hd
      refine ⟨m, d, h1, hd, ?_⟩
      simp only [sameUnder, beq_iff_eq] at h2
      exact h2
    · simp at h2
  · rintro ⟨m, d, h1, h2, h3⟩
    refine ⟨m, by cases m <;> decide, ?_⟩
    simp only [h2, sameUnder, Bool.and_eq_true, bne_iff_ne, ne_eq, beq_iff_eq]
    refine ⟨h1, ?_⟩
    exact h3

end Sys2Proof.Machine
end

