-- ==== Sys2Proof/Laws/Recheck.lean ====
section
/-! SUPPORT. The Re-check unit at work, and the writes that leave the machine beside the store alone. -/
namespace Sys2Proof.Machine

/-- Raising an event changes that event alone. -/
theorem State.raise_keeps (s : State) (k : EventKind) : s.keepsMachine (s.raise k) [k] := by
  refine ⟨rfl, rfl, rfl, rfl, rfl, rfl, rfl, rfl, fun p => by cases p <;> exact ⟨rfl, rfl, rfl, rfl, rfl, rfl, rfl, rfl⟩, ?_⟩
  intro p e hk
  simp only [List.mem_cons, List.not_mem_nil, or_false] at hk
  cases p
  · exact (mem_setKind _ _ _).trans (by simp [hk, State.port])
  · exact (mem_setKind _ _ _).trans (by simp [hk, State.port, State.raiseAt])

/-- SWEPT raised or not, nothing else changes (R91). -/
theorem State.sweptTest_keeps (s : State) : s.keepsMachine s.sweptTest [.swept] ∧ s.sweptTest.store = s.store ∧ s.sweptTest.run = s.run
    ∧ s.sweptTest.recheck = s.recheck := by
  unfold State.sweptTest
  split
  · exact ⟨State.raise_keeps s _, rfl, rfl, rfl⟩
  · exact ⟨State.keepsMachine_refl s _, rfl, rfl, rfl⟩

/-- The Re-check unit has worked: its own state and its three events alone have changed, and no event is lost. -/
def State.unitWorks (s t : State) : Prop := s.keepsMachine t [.conflict, .swept, .backlog] ∧ t.store = s.store ∧ t.run = s.run
   ∧ ∀ q : Port, ∀ k, k ∈ (s.port q).events → k ∈ (t.port q).events

theorem State.unitWorks_refl (s : State) : State.unitWorks s s := ⟨State.keepsMachine_refl s _, rfl, rfl, fun _ _ h => h⟩

theorem State.unitWorks_trans {s t u : State} (h : State.unitWorks s t) (h' : State.unitWorks t u) : State.unitWorks s u :=
  ⟨State.keepsMachine_trans h.1 h'.1, h'.2.1.trans h.2.1, h'.2.2.1.trans h.2.2.1, fun q k hk => h'.2.2.2 q k (h.2.2.2 q k hk)⟩

theorem State.unitWorks_updRecheck (s : State) (f) : State.unitWorks s (s.updRecheck f) :=
  ⟨State.keepsMachine_mono (State.keepsMachine_unitOnly (State.unitOnly_updRecheck s f [])).1 (by simp), rfl, rfl,
      fun q k hk => by cases q <;> exact hk⟩

theorem State.unitWorks_raise (s : State) (e : EventKind) (he : e ∈ [EventKind.conflict, .swept,
    .backlog]) : State.unitWorks s (s.raise e) :=
  ⟨State.keepsMachine_mono (State.raise_keeps s e) (by simpa using he), rfl, rfl, fun q k hk => by
    cases q
    · exact (mem_setKind _ _ _).mpr (.inr hk)
    · exact (mem_setKind _ _ _).mpr (.inr hk)⟩

theorem State.unitWorks_evalBacklog (s : State) : State.unitWorks s s.evalBacklog := by
  unfold State.evalBacklog; dsimp only
  split
  · exact State.unitWorks_trans (State.unitWorks_updRecheck s _) (State.unitWorks_raise _ _ (by simp))
  · split
    · exact State.unitWorks_trans (State.unitWorks_updRecheck s _) (State.unitWorks_raise _ _ (by simp))
    · exact State.unitWorks_refl s

theorem State.unitWorks_sweptTest (s : State) : State.unitWorks s s.sweptTest := by
  unfold State.sweptTest; split
  · exact State.unitWorks_raise _ _ (by simp)
  · exact State.unitWorks_refl s

theorem State.unitWorks_scanTo (s : State) (id) : State.unitWorks s (s.scanTo id) :=
    State.unitWorks_trans (State.unitWorks_updRecheck s _) (State.unitWorks_updRecheck _ _)

theorem State.unitWorks_endPass (s : State) : State.unitWorks s s.endPass :=
    State.unitWorks_trans (State.unitWorks_trans (State.unitWorks_updRecheck s _) (State.unitWorks_evalBacklog _))
    (State.unitWorks_sweptTest _)

theorem State.unitWorks_beginPass (s : State) : State.unitWorks s s.beginPass := by
  unfold State.beginPass; dsimp only
  split
  · exact State.unitWorks_trans (State.unitWorks_updRecheck s _) (State.unitWorks_scanTo _ _)
  · exact State.unitWorks_trans (State.unitWorks_updRecheck s _) (State.unitWorks_endPass _)

theorem State.unitWorks_carryPass (s : State) (pos) : State.unitWorks s (s.carryPass pos) := by
  unfold State.carryPass; split
  · exact State.unitWorks_scanTo _ _
  · split
    · exact State.unitWorks_beginPass s
    · exact State.unitWorks_endPass s

theorem State.unitWorks_lookForWork (s : State) : State.unitWorks s s.lookForWork := by
  unfold State.lookForWork; split
  · exact State.unitWorks_refl s
  · exact State.unitWorks_trans (State.unitWorks_trans (State.unitWorks_updRecheck s _) (State.unitWorks_updRecheck _ _))
      (State.unitWorks_evalBacklog _)
  · split
    · split
      · exact State.unitWorks_beginPass s
      · exact State.unitWorks_carryPass s _
    · exact State.unitWorks_refl s

theorem State.unitWorks_carryAfter (s : State) (o) : State.unitWorks s (s.carryAfter o) := by
  unfold State.carryAfter; split
  · exact State.unitWorks_carryPass _ _
  · exact State.unitWorks_refl s

/-- A write of one record changes nothing beside the table. -/
theorem State.updLine_keeps (s : State) (id : Nat) (f : Line → Line) : s.keepsMachine (s.updLine id f) [] := State.setLines_keeps s _

/-- Checks in flight reading on leave queue, scan and backlog (R43). -/
theorem State.proceedChecks_queue (s : State) : s.proceedChecks.recheck.queue = s.recheck.queue
    ∧ s.proceedChecks.recheck.scanPending = s.recheck.scanPending
   ∧ s.proceedChecks.recheck.backlog = s.recheck.backlog := by
  show (s.recheck.proceed _ _).queue = _ ∧ (s.recheck.proceed _ _).scanPending = _ ∧ (s.recheck.proceed _ _).backlog = _
  rw [(Recheck.proceed_eq s.recheck s.store _).1]
  exact ⟨rfl, rfl, rfl⟩

/-- A finished commit on both sides keeps what was kept. -/
theorem State.keepsMachine_commitDone {u w : State} {ks} (h : u.keepsMachine w ks) (p : Port) (b : Bool) :
    (u.commitDone p b).keepsMachine (w.commitDone p b) ks := by
  apply State.keepsMachine_reply
  obtain ⟨a0, a1, a2, a3, a4, a5, a6, a7, a8, a9⟩ := h
  cases p
  · refine ⟨a0, a1, a2, a3, a4, a5, a6, a7, fun p => ?_, fun p k hk => ?_⟩
    · cases p
      · obtain ⟨c1, c2, c3, c4, c5, c6, c7, c8⟩ := a8 .cab
        exact ⟨c1, c2, c3, c4, rfl, c6, c7, c8⟩
      · exact a8 .plan
    · cases p
      · exact a9 .cab k hk
      · exact a9 .plan k hk
  · refine ⟨a0, a1, a2, a3, a4, a5, a6, a7, fun p => ?_, fun p k hk => ?_⟩
    · cases p
      · exact a8 .cab
      · obtain ⟨c1, c2, c3, c4, c5, c6, c7, c8⟩ := a8 .plan
        exact ⟨c1, c2, c3, c4, rfl, c6, c7, c8⟩
    · cases p
      · exact a9 .cab k hk
      · exact a9 .plan k hk

/-- Finishing a commit writes the port alone. -/
theorem State.commitDone_store (s : State) (p : Port) (b : Bool) : (s.commitDone p b).store = s.store
    ∧ (s.commitDone p b).recheck = s.recheck ∧ (s.commitDone p b).run = s.run := by
  cases p <;> exact ⟨rfl, rfl, rfl⟩

/-- Finishing a commit raises nothing. -/
theorem State.commitDone_events (s : State) (p q : Port) (b : Bool) : ((s.commitDone p b).port q).events = (s.port q).events := by
  cases p <;> cases q <;> rfl

/-- A station's volatile fields written as they are. -/
theorem State.updLive_same (s : State) (n : StationId) : s.updLive n (fun v => v) = s := by
  have : s.link.live.set n (s.link.live.get n) = s.link.live := by cases n <;> rfl
  simp [State.updLive, State.updLink, this]

/-- A station written, its lines marked and OK sent (R30, R31, R32, R78). -/
theorem State.writeStation_marked (s : State) (p : Port) (row : Instr) (n : StationId) (x : Station) (f : StationLive → StationLive) :
  let t := ((((s.taken p row).writeStation n x).updLive n f).markingChange (.station n)).ok p
  ({ s.answered p row okReply with link := { s.link with live := s.link.live.set n (f (s.link.live.get n)) } } : State).keepsMachine t [.dropped, .backlog, .swept]
   ∧ s.marked t (s.marksLine (.station n)) ∧ t.store.stations = s.store.stations.set n x ∧ t.settings = s.settings
   ∧ s.reaches t (.station n) := by
  intro t
  have hm := State.markingChange_spec (((s.taken p row).writeStation n x).updLive n f) (.station n)
  set u := (((s.taken p row).writeStation n x).updLive n f) with hu
  have hml : u.marksLine (.station n) = s.marksLine (.station n) := by
    rw [← State.marksLine_taken s p row, ← State.marksLine_proceedChecks (s.taken p row)]; rfl
  have hst : u.store = { s.store with stations := s.store.stations.set n x } := by
    rw [hu]
    show ({ (s.taken p row).proceedChecks.store with stations := ((s.taken p row).proceedChecks.store).stations.set n x } : Store) = _
    rw [(State.proceedChecks_keeps _).1]; simp
  obtain ⟨h1, h2, h3, h4, h5⟩ := hm
  refine ⟨?_, ?_, ?_, ?_, ?_⟩
  · have hk : ({ s.taken p row with link := { s.link with live := s.link.live.set n (f (s.link.live.get n)) } } : State).keepsMachine u [.dropped, .backlog, .swept] := by
      obtain ⟨a0, a1, a2, a3, a4, a5, a6, a7, a8, a9⟩ := State.keepsMachine_mono (ks' :=
          [.dropped, .backlog, .swept]) (State.proceedChecks_keeps (s.taken p row)).2 (by simp)
      refine ⟨a0, a1, a2, ?_, a4, a5, a6, a7, a8, a9⟩
      rw [hu]; simp only [State.updLive, State.updLink, State.writeStation, State.setStation, a3, State.taken_link]
    have := State.keepsMachine_reply (State.keepsMachine_trans hk h2) p okReply
    have he : (({ s.taken p row with link := { s.link with live := s.link.live.set n (f (s.link.live.get n)) } } : State).reply p okReply) = ({ s.answered p row okReply with link := { s.link with live := s.link.live.set n (f (s.link.live.get n)) } } : State) := by cases p <;> rfl
    rw [he] at this; exact this
  · have := State.marked_reply h1 p okReply
    rw [hml] at this
    refine State.marked_congr ?_ ?_ ?_ this
    · rw [hst]
    · rw [hu]; cases p <;> rfl
    · intro q
      have hk := (State.proceedChecks_keeps (s.taken p row)).2.2.2.2.2.2.2.2.2.2 q .dropped (by simp)
      refine Iff.trans ?_ (hk.trans ?_)
      · rw [hu]; cases q <;> exact .rfl
      · cases p <;> cases q <;> exact .rfl
  · show (((u.markingChange (.station n)).ok p).store).stations = _
    rw [State.ok, State.reply, State.updPort_store, h3, hst]
  · show (((u.markingChange (.station n)).ok p).store).settings = _
    rw [State.ok, State.reply, State.updPort_store, h4, hst]; rfl
  · refine State.reaches_congr ?_ (fun q => ?_) (State.reaches_reply h5 p okReply)
    · rw [hst]
    · have := State.taken_proceedChecks_ports s p row q
      rw [hu]
      cases q <;> exact this

end Sys2Proof.Machine
end

