-- ==== Sys2Proof/Laws/Run.lean ====
section
/-! SUPPORT. The ACTIVE line and its run under the operations that change them. -/
namespace Sys2Proof.Machine

/-! ## The ACTIVE line -/

/-- A line with a run context is ACTIVE, and the reverse. -/
theorem Line.isActive_iff (l : Line) : l.isActive = true ↔ ∃ r st, l.lifecycle = .active r st := by
  unfold Line.isActive Lifecycle.kind
  rcases l.lifecycle <;> simp

theorem Line.isActive_run (l : Line) : l.isActive = l.run?.isSome := by
  unfold Line.isActive Lifecycle.kind Line.run?
  rcases l.lifecycle <;> rfl

theorem Line.lifecycle_of_run {l : Line} {r : RunContext} (h : l.run? = some r) : l.lifecycle = .active r l.staged? := by
  unfold Line.run? at h
  unfold Line.staged?
  rcases hl : l.lifecycle <;> simp_all

theorem State.active?_mem {s : State} {l : Line} (h : s.active? = some l) : l ∈ s.store.lines ∧ l.isActive = true :=
  ⟨List.mem_of_find?_eq_some h, List.find?_some h⟩

/-- A change that leaves every record's being ACTIVE changes the ACTIVE line alone as it says. -/
theorem find_map_active {f : Line → Line} (hf : ∀ l, (f l).isActive = l.isActive) (ls : List Line) :
    (ls.map f).find? Line.isActive = (ls.find? Line.isActive).map f := by
  induction ls with
  | nil => rfl
  | cons l ls ih =>
    simp only [List.map_cons, List.find?_cons, hf]
    split
    · rfl
    · exact ih

theorem State.mapLines_active? {f : Line → Line} (hf : ∀ l, (f l).isActive = l.isActive) (s : State) :
    (s.mapLines f).active? = s.active?.map f := find_map_active hf s.store.lines

/-- The ACTIVE line changed by something that leaves it ACTIVE. -/
theorem State.updActive_active? {f : Line → Line} (hf : ∀ l, l.isActive = true → (f l).isActive = true) (s : State) :
    (s.updActive f).active? = s.active?.map f := by
  unfold State.updActive
  rw [State.mapLines_active? (fun l => by
    by_cases h : l.isActive = true
    · simp [h, hf l h]
    · simp [h])]
  rcases hl : s.active? with _ | l
  · rfl
  · simp [(State.active?_mem hl).2]

/-- The ACTIVE line changed by something that takes it out of ACTIVE: there is none (R13). -/
theorem State.updActive_none {f : Line → Line} (hf : ∀ l, (f l).isActive = false) (s : State) : (s.updActive f).active? = none := by
  show (s.store.lines.map _).find? Line.isActive = none
  rw [List.find?_eq_none]
  intro l hl
  obtain ⟨k, -, rfl⟩ := List.mem_map.mp hl
  split
  · simp [hf]
  · assumption

@[simp] theorem Line.updRun_isActive (l : Line) (f : RunContext → RunContext) : (l.updRun f).isActive = l.isActive := by
  unfold Line.isActive; rw [Line.updRun_kind]
@[simp] theorem Line.setStaged_isActive (l : Line) (st : Option Staged) : (l.setStaged st).isActive = l.isActive := by
  unfold Line.isActive; rw [Line.setStaged_kind]
@[simp] theorem Line.updRun_run? (l : Line) (f : RunContext → RunContext) : (l.updRun f).run? = l.run?.map f := by
  unfold Line.updRun Line.run?
  rcases h : l.lifecycle <;> simp [h]
@[simp] theorem Line.setStaged_run? (l : Line) (st : Option Staged) : (l.setStaged st).run? = l.run? := by
  unfold Line.setStaged Line.run?
  rcases h : l.lifecycle <;> simp [h]
@[simp] theorem Line.updRun_profile (l : Line) (f : RunContext → RunContext) : (l.updRun f).profile = l.profile := by
  unfold Line.updRun; split <;> rfl
@[simp] theorem Line.updRun_spans (l : Line) (f : RunContext → RunContext) : (l.updRun f).spans = l.spans := by
  unfold Line.updRun; split <;> rfl
@[simp] theorem Line.updRun_staged? (l : Line) (f : RunContext → RunContext) : (l.updRun f).staged? = l.staged? := by
  unfold Line.updRun Line.staged?
  rcases h : l.lifecycle <;> simp [h]

/-- The run context changed. -/
theorem State.updRun_active? (s : State) (f : RunContext → RunContext) : (s.updRun f).active? = s.active?.map (fun l => l.updRun f) :=
  State.updActive_active? (fun l h => by simpa using h) s

theorem State.updRun_context? (s : State) (f : RunContext → RunContext) : (s.updRun f).context? = s.context?.map f := by
  unfold State.context?
  rw [State.updRun_active?]
  rcases s.active? with _ | l <;> simp

/-- A change of the ACTIVE line that leaves its run context. -/
theorem State.updActive_context? {f : Line → Line} (hf : ∀ l, (f l).run? = l.run?) (s : State) : (s.updActive f).context? = s.context? := by
  unfold State.context?
  rw [State.updActive_active? (fun l h => by rw [Line.isActive_run, hf, ← Line.isActive_run]; exact h)]
  rcases s.active? with _ | l
  · rfl
  · simp [hf]

/-! ## A change of run state (R108) -/

theorem State.raiseEntry_eq (s : State) (r : RunState) :
    s.raiseEntry r = s ∨ s.raiseEntry r = s.raise .halt ∨ s.raiseEntry r = s.raise .coast := by
  cases r <;> simp [State.raiseEntry]

@[simp] theorem State.changeRun_powered (s : State) (r : RunState) : (s.changeRun r).powered = s.powered := by cases r <;> rfl
@[simp] theorem State.changeRun_resetLow (s : State) (r : RunState) : (s.changeRun r).resetLow = s.resetLow := by cases r <;> rfl
@[simp] theorem State.changeRun_running (s : State) (r : RunState) : (s.changeRun r).running = s.running := by cases r <;> rfl
@[simp] theorem State.changeRun_time (s : State) (r : RunState) : (s.changeRun r).time = s.time := by cases r <;> rfl
@[simp] theorem State.changeRun_recheck (s : State) (r : RunState) : (s.changeRun r).recheck = s.recheck := by cases r <;> rfl
@[simp] theorem State.changeRun_link (s : State) (r : RunState) : (s.changeRun r).link = s.link := by cases r <;> rfl
@[simp] theorem State.changeRun_chain (s : State) (r : RunState) : (s.changeRun r).chain = s.chain := by cases r <;> rfl
@[simp] theorem State.changeRun_free (s : State) (r : RunState) : (s.changeRun r).free = s.free := by cases r <;> rfl
@[simp] theorem State.changeRun_pending (s : State) (r : RunState) : (s.changeRun r).pending = s.pending := by cases r <;> rfl
@[simp] theorem State.changeRun_run (s : State) (r : RunState) : (s.changeRun r).run = { s.run with timer := none } := by cases r <;> rfl
@[simp] theorem State.changeRun_eval (s : State) (r : RunState) : (s.changeRun r).eval = { s.eval with drive := 0 } := by cases r <;> rfl
@[simp] theorem State.changeRun_stations (s : State) (r : RunState) : (s.changeRun r).store.stations = s.store.stations := by cases r <;> rfl
@[simp] theorem State.changeRun_settings (s : State) (r : RunState) : (s.changeRun r).settings = s.settings := by cases r <;> rfl

/-- The store after a change of run state: the run context's state, and nothing else. -/
theorem State.changeRun_store (s : State) (r : RunState) : (s.changeRun r).store = (s.updRun (fun c => { c with state := r })).store := by
  cases r <;> rfl

theorem State.changeRun_active? (s : State) (r : RunState) :
    (s.changeRun r).active? = s.active?.map (fun l => l.updRun (fun c => { c with state := r })) := by
  rw [← State.updRun_active?]; unfold State.active?; rw [State.changeRun_store]

theorem State.changeRun_context? (s : State) (r : RunState) :
    (s.changeRun r).context? = s.context?.map (fun c => { c with state := r }) := by
  rw [← State.updRun_context?]; unfold State.context? State.active?; rw [State.changeRun_store]

theorem State.changeRun_runState? (s : State) (r : RunState) (h : s.context? ≠ none) : (s.changeRun r).runState? = some r := by
  obtain ⟨c, hc⟩ := Option.ne_none_iff_exists'.mp h
  simp [State.runState?, State.changeRun_context?, hc]

/-- Ports under a change of run state: RUN is raised, with HALT or COAST on the entry into HALTED or COASTING (R108). -/
theorem State.changeRun_port (s : State) (r : RunState) (p : Port) : ∃ es : List EventKind,
    (s.changeRun r).port p = { s.port p with events := es } ∧ .run ∈ es ∧ (∀ h, r = .halted h → .halt ∈ es) ∧ (r = .coasting → .coast ∈ es)
      ∧ (∀ k ∈ (s.port p).events, k ∈ es)
      ∧ (∀ k ∈ es, k ∈ (s.port p).events ∨ k = .run ∨ k = .halt ∨ k = .coast) := by
  cases r
  case halted h =>
    refine ⟨setKind .halt (setKind .run (s.port p).events), by cases p <;> rfl, ?_, ?_, ?_, ?_, ?_⟩ <;>
      simp only [mem_setKind] <;> tauto
  case coasting =>
    refine ⟨setKind .coast (setKind .run (s.port p).events), by cases p <;> rfl, ?_, ?_, ?_, ?_, ?_⟩ <;>
      simp only [mem_setKind] <;> tauto
  all_goals
    refine ⟨setKind .run (s.port p).events, by cases p <;> rfl, ?_, ?_, ?_, ?_, ?_⟩ <;>
      simp only [mem_setKind] <;> tauto

/-! ## Starting the strike timer (R122) -/

@[simp] theorem State.startTimer_context? (s : State) (d : Nat) : (s.startTimer d).context? = s.context? := rfl
@[simp] theorem State.startTimer_active? (s : State) (d : Nat) : (s.startTimer d).active? = s.active? := rfl

end Sys2Proof.Machine
end

