-- ==== Sys2Proof/Laws/Restart.lean ====
section
/-! SUPPORT. What a restart leaves (R131, R181). -/
namespace Sys2Proof.Machine

/-- A restart of a module that runs leaves what R181 gives. -/
theorem State.restart_restartedTo {s : State} (hs : s.running = true) : s.restartedTo s.restart := by
  have hr : s.powered = true ∧ s.resetLow = false := by simpa [State.running] using hs
  refine ⟨hr.1, hr.2, rfl, rfl, rfl, rfl, rfl, rfl, rfl, rfl, rfl, ?_, ?_, rfl, rfl, rfl, ?_⟩
  · show s.store.lines.map _ = s.store.lines.map _
    apply List.map_congr_left
    intro l _
    unfold Line.afterRestart Line.setStaged Line.updRun RunContext.afterRestart
    rcases h : l.lifecycle <;> simp [h]
    all_goals (obtain ⟨a1,a2,a3,a4,a5,a6,a7,a8⟩ := l; simp only at h; subst h; rfl)
  · have : (s.mapLines Line.afterRestart).store.lines.any (fun l => l.status == .stale) = s.store.lines.any
      (fun l => l.status == .stale) := by
      show (s.store.lines.map _).any _ = _
      rw [List.any_map]
      congr 1
      funext l
      unfold Line.afterRestart Line.setStaged Line.updRun
      rcases h : l.lifecycle <;> simp [h]
    show ({ Recheck.reset with scanPending := _, backlog := _ } : Recheck) = _
    rw [this]; rfl
  · show (s.mapLines Line.afterRestart).warnedAfterRestart = true ↔ _
    have hact : (s.mapLines Line.afterRestart).active? = s.active?.map Line.afterRestart :=
        State.mapLines_active? (fun l => by unfold Line.afterRestart; simp) s
    have hf : (s.mapLines Line.afterRestart).furthest? = s.furthest? := by
      unfold State.furthest? State.context?
      rw [hact]
      rcases s.active? with _ | l
      · rfl
      · simp only [Option.map_some, Option.bind_some, Line.afterRestart, Line.updRun_run?, Line.setStaged_run?]
        rcases l.run? with _ | r
        · rfl
        · simp only [Option.map_some, Option.bind_some, RunContext.afterRestart]; split <;> rfl
    unfold State.warnedAfterRestart; rw [hact, hf]
    rcases s.active? with _ | l
    · simp
    · rcases s.furthest? with _ | f
      · simp
      · simp only [Option.map_some, Option.some.injEq, exists_eq_left', ↓existsAndEq, true_and]
        have h0 : (Line.afterRestart l).length = l.length := by unfold Line.length Line.points Line.afterRestart; simp
        rw [decide_eq_true_iff]; unfold State.endWarningPoint; rw [h0]; rfl

end Sys2Proof.Machine
end

