-- ==== Sys2Proof/Laws/Runs.lean ====
section
/-! SUPPORT. The run: what its state is read from, how it ends, how counts and the serving span move it. -/
namespace Sys2Proof.Machine

/-- The run context is the ACTIVE line's. -/
theorem State.context?_of {s : State} {l : Line} {r : RunContext} (h : s.active? = some l) (hr : l.run? = some r) : s.context? = some r :=
    by
  simp [State.context?, h, hr]

/-- The run state is the ACTIVE line's. -/
theorem State.runState?_of {s : State} {l : Line} {r : RunContext} (ha : s.active? = some l)
    (hr : l.run? = some r) : s.runState? = some r.state := by
  simp [State.runState?, State.context?_of ha hr]

/-- SUSPENDED or HALTED, read from the ACTIVE line. -/
theorem State.stopped_of {s : State} {l : Line} {r : RunContext} (ha : s.active? = some l)
    (hr : l.run? = some r) : s.stopped = r.state.isStopped := by
  unfold State.stopped; rw [State.runState?_of ha hr]
  cases r.state <;> rfl

theorem taken_stopped (s : State) (p) (row) : (s.taken p row).stopped = s.stopped := by unfold State.stopped; rw [taken_runState?]

theorem taken_isArmed (s : State) (p) (row) : (s.taken p row).isArmed = s.isArmed := by unfold State.isArmed; rw [taken_runState?]

theorem taken_digging (s : State) (p) (row) : (s.taken p row).digging = s.digging := by unfold State.digging; rw [taken_runState?]

/-- CUTTING or COASTING. -/
theorem State.digging_iff (s : State) : s.digging = true ↔ s.runState? = some .cutting ∨ s.runState? = some .coasting := by
  unfold State.digging; simp

/-- The span list is the ACTIVE line's. -/
theorem State.spanList_of {s : State} {l : Line} (ha : s.active? = some l) : s.spanList = l.spans := by unfold State.spanList; rw [ha]

theorem Line.marked_run? (l : Line) : l.marked.run? = l.run? := by
  simp [Line.marked, Line.run?, Line.setStaged]
  rcases h : l.lifecycle <;> simp [h]

theorem Line.applied_run? (l : Line) (st : Staged) : (l.applied st).run? = l.run? := by
  simp [Line.applied, Line.run?, Line.setStaged]
  rcases h : l.lifecycle <;> simp [h]

/-- The ACTIVE line after the marks of a change (R17). -/
theorem State.markLines_active? {s : State} {l : Line} (h : s.active? = some l) (hit : Line → Bool) :
    (s.markLines hit).active? = some (if l.takesMark hit then l.marked else l) := by
  have hl : (s.markLines hit).store.lines = s.store.lines.map (fun l => if l.takesMark hit then l.marked else l) :=
      (State.markLines_marked s hit).1
  show (s.markLines hit).store.lines.find? _ = _
  rw [hl, find_map_active (fun k => by split <;> [(rw [Line.isActive_run, Line.isActive_run, Line.marked_run?]); rfl])]
  show s.active?.map _ = _
  rw [h]; rfl

/-- Closing every segment sets each closure part CLOSED (R130). -/
theorem Line.closeAll_profile (k : Line) : (Line.closeAll k).profile = k.profile.map
    (fun b => { b with closure := b.closure.map (fun c => { c with state := .closed }) }) := by
  unfold Line.closeAll
  apply List.map_congr_left
  intro b _
  unfold Breakpoint.updOpen Closure.close
  rcases hb : b with ⟨pt, c⟩
  rcases c with _ | c
  · rfl
  · simp only [Option.map_some]
    split
    · rfl
    · rename_i h
      obtain ⟨st, wo, ed, gr, co⟩ := c
      cases st
      · exact absurd rfl h
      · rfl

/-- The run goes to IDLE: which of the module that changes, the store apart (R12, R98, R110). -/
theorem State.leaveActive_machine (w : State) (x : Lifecycle) :
    (w.leaveActive x).powered = w.powered ∧ (w.leaveActive x).resetLow = w.resetLow ∧ (w.leaveActive x).time = w.time
      ∧ (w.leaveActive x).link = w.link ∧ (w.leaveActive x).chain = { w.chain with known := false, position := 0 }
      ∧ (w.leaveActive x).eval = Evaluator.reset ∧ (w.leaveActive x).pending = w.pending ∧ (w.leaveActive x).recheck = w.recheck
      ∧ (w.leaveActive x).run = { w.run with coast := 0, timer := none, wait := none } :=
  ⟨rfl, rfl, rfl, rfl, rfl, rfl, rfl, rfl, rfl⟩

/-- RUN is raised on a port where the run goes to IDLE (R108). -/
theorem State.leaveActive_port (w : State) (x : Lifecycle) (p : Port) :
    (w.leaveActive x).port p = { w.port p with events := setKind .run (w.port p).events } := by
  cases p <;> rfl

/-- The ACTIVE line takes the lifecycle it leaves to; no other line changes (R12). -/
theorem State.leaveActive_store (w : State) (x : Lifecycle) : (w.leaveActive x).store =
    { w.store with lines := w.store.lines.map (fun l => if l.isActive then { l with lifecycle := x } else l) } := rfl

/-- Which lines a change marks does not depend on the run (R17). -/
theorem State.leaveActive_marksLine (w : State) (x : Lifecycle) (c : Change) (l : Line) :
    (w.leaveActive x).marksLine c l = w.marksLine c l := by
  have h1 : (w.leaveActive x).cab = { w.cab with events := setKind .run w.cab.events } := rfl
  have h2 : (w.leaveActive x).plan = { w.plan with events := setKind .run w.plan.events } := rfl
  unfold State.marksLine PortState.draftHit
  rw [h1, h2]

/-- A drop noted or not (R159). -/
theorem State.noteDropIf_spec (a : State) (l : Line) (r : DropReason) : let b := a.noteDropIf l r
    b.store = a.store ∧ (∀ c k, b.marksLine c k = a.marksLine c k) ∧ a.keepsMachine b [.dropped]
    ∧ ∀ q, .run ∈ (a.port q).events → .run ∈ (b.port q).events := by
  unfold State.noteDropIf
  split
  · refine ⟨rfl, fun c k => rfl, ⟨rfl, rfl, rfl, rfl, rfl, rfl, rfl, rfl, fun p => by cases p <;> exact ⟨rfl, rfl, rfl, rfl, rfl, rfl, rfl,
      rfl⟩, ?_⟩, ?_⟩
    · intro p k hk
      have hkd : k ≠ .dropped := by intro h; subst h; simp at hk
      cases p
      · exact (mem_setKind _ _ _).trans (by rw [or_iff_right hkd]; rfl)
      · exact (mem_setKind _ _ _).trans (by rw [or_iff_right hkd]; rfl)
    · intro q h; cases q <;> exact (mem_setKind _ _ _).mpr (.inr h)
  · exact ⟨rfl, fun _ _ => rfl, State.keepsMachine_refl a _, fun _ h => h⟩

/-- Marks at or beyond a new length are disarmed (R106). -/
theorem State.fitToLength_spec {w : State} {k old : Line} (h : w.active? = some k) : (w.fitToLength old).active? = some (k.updRun
    (fun r => { r with mark1 := keepMark k.length r.mark1, mark2 := keepMark k.length r.mark2 }))
   ∧ (w.fitToLength old).store.stations = w.store.stations ∧ (w.fitToLength old).settings = w.settings
       ∧ (w.fitToLength old).cab = w.cab := by
  unfold State.fitToLength; rw [h]; simp only
  have := State.updRun_active? w (fun r => { r with mark1 := keepMark k.length r.mark1, mark2 := keepMark k.length r.mark2 })
  rw [h] at this
  split <;> exact ⟨this, rfl, rfl, rfl⟩

/-- A move of the serving span out of CUTTING changes neither the store nor the CAB port (R135). -/
theorem State.moveServing_still {w : State} (held) (h : w.runState? ≠ some .cutting) : (w.moveServing held).store = w.store
    ∧ (w.moveServing held).cab = w.cab := by
  unfold State.moveServing
  split
  · simp only
    split
    · exact ⟨rfl, rfl⟩
    · unfold State.afterSwitch
      have : (w.setServing (some (spanIndex w.spanList w.chainage))).runState? = w.runState? := rfl
      rw [this, if_neg (by simpa using h)]; exact ⟨rfl, rfl⟩
  · split <;> exact ⟨rfl, rfl⟩

/-- A move of the serving span leaves the link (R135). -/
theorem State.moveServing_link (s : State) (h) : (s.moveServing h).link = s.link := by
  unfold State.moveServing; split
  · simp only []; split
    · rfl
    · unfold State.afterSwitch; split
      · split
        · rfl
        · unfold State.enterCoasting; simp only []; split
          · rw [State.changeRun_link, State.changeRun_link]; rfl
          · rw [State.changeRun_link]; rfl
      · rfl
  · split <;> rfl

/-- A count that does not apply (R97, R98). -/
theorem State.count_still (u : State) (b : Bool) (h : u.chain.known = false ∨ ¬(-2400000000 ≤ u.chain.position + u.countLength b
    ∧ u.chain.position + u.countLength b ≤ 2400000000)) :
   u.count b = u := by
  unfold State.count; simp only []
  rw [if_neg]
  simp only [Bool.and_eq_true, decide_eq_true_eq]
  rintro ⟨h1, h2⟩
  rcases h with h | h
  · rw [h] at h1; cases h1
  · exact h h2

/-- A count that applies (R97, R101). -/
theorem State.count_moved (u : State) (b : Bool) (h : u.chain.known = true) (h2 : -2400000000 ≤ u.chain.position + u.countLength b
    ∧ u.chain.position + u.countLength b ≤ 2400000000) :
   u.count b = if Int.tdiv (u.chain.position + u.countLength b) 1000 = u.chainage then u.updChain
       (fun k => { k with position := u.chain.position + u.countLength b })
     else (u.updChain (fun k => { k with position := u.chain.position + u.countLength b })).handChainage u.digging
         (u.runState? == some .coasting) := by
  unfold State.count; simp only []
  rw [if_pos]
  · rfl
  · rw [h, Bool.true_and, decide_eq_true_eq]; exact h2

/-- A chainage handed on while the run stands (R101, R134). -/
theorem State.handChainage_stopped (v : State) (c : Bool) (h : v.digging = false) (hk : v.chain.known = true) : 
   ∃ ref : Option HandoffRef, (ref = v.eval.reference ∨ ref = none) ∧ v.handChainage false c = { v with eval := { v.eval with serving := some (spanIndex v.spanList v.chainage), reference := ref } } := by
  have hb : v.backtrackTest = v := by
    unfold State.backtrackTest State.haltDigging; split
    · rfl
    · split
      · rw [h]; rfl
      · rfl
  have hnc : v.runState? ≠ some .cutting := by unfold State.digging at h; simp at h; exact h.1
  have hm : ∃ ref : Option HandoffRef, (ref = v.eval.reference ∨ ref = none)
      ∧ v.moveServing v.servingStation? = { v with eval := { v.eval with serving := some (spanIndex v.spanList v.chainage), reference := ref } } := by
    unfold State.moveServing; simp only [hk, if_true]
    split
    · rename_i hh; refine ⟨v.eval.reference, .inl rfl, ?_⟩; rw [← hh.1]
    · refine ⟨none, .inr rfl, ?_⟩
      unfold State.afterSwitch
      rw [if_neg]; rfl
      show ¬ (v.runState? == some .cutting) = true
      simpa using hnc
  obtain ⟨ref, h1, h2⟩ := hm
  refine ⟨ref, h1, ?_⟩
  unfold State.handChainage; simp only [hb, h2, Bool.false_and]
  split <;> rfl

/-- The decode table of R95. -/
theorem countOf_table (m : DecodeMode) (ch : Channel) (a b : Bool) :
    let v := (a, b)
    let w := match ch with
      | .a => (!a, b)
      | .b => (a, !b)
    let x4 := m = .x4
    let x2 := m = .x4 ∨ m = .x2
    let forward := (v = (false, false) ∧ w = (true, false)) ∨ (x4 ∧ v = (true, false) ∧ w = (true, true))
      ∨ (x2 ∧ v = (true, true) ∧ w = (false, true)) ∨ (x4 ∧ v = (false, true) ∧ w = (false, false))
    let reverse := (v = (true, false) ∧ w = (false, false)) ∨ (x4 ∧ v = (true, true) ∧ w = (true, false))
      ∨ (x2 ∧ v = (false, true) ∧ w = (true, true)) ∨ (x4 ∧ v = (false, false) ∧ w = (false, true))
    countOf m v w = .forward ∧ forward ∧ ¬reverse ∨ countOf m v w = .reverse ∧ reverse ∧ ¬forward
       ∨ countOf m v w = .nothing ∧ ¬forward ∧ ¬reverse := by
  cases m <;> cases ch <;> cases a <;> cases b <;> simp [countOf, count4X, count2X, count1X]

end Sys2Proof.Machine
end

