-- ==== Sys2Proof/Laws/Strikes.lean ====
section
/-! SUPPORT. Strikes: the grade update, the evaluation, the strike a wait awaits, and what a strike leaves of the link. -/
namespace Sys2Proof.Machine

theorem measuredAt_congr (st st' : Store) (x : Span) (c d : Int) (h1 : st'.stations = st.stations) (h2 : st'.settings = st.settings) :
    measuredAt st' x c d = measuredAt st x c d := by simp [measuredAt, effectivePlane, h1, h2]

/-- The grade update (R142). -/
theorem State.updateGrade_spec (v : State) (b : Bool) :
   (v.updateGrade b).store = v.store ∧ (v.updateGrade b).chain = v.chain ∧ (v.updateGrade b).run = v.run ∧ (v.updateGrade b).time = v.time
   ∧ (v.updateGrade b).eval.gradeCount = (if b then min 50 (v.eval.gradeCount + 1) else 0)
   ∧ (v.updateGrade b).eval.drive = v.eval.drive ∧ (v.updateGrade b).eval.reference = v.eval.reference
       ∧ (v.updateGrade b).eval.serving = v.eval.serving
   ∧ (v.updateGrade b).eval.gradeFlag = ((b && v.eval.gradeFlag) || decide (v.settings.gradeCount ≤ (((if b then min 50
       (v.eval.gradeCount + 1) else 0 : Nat)) : Int)))
   ∧ (v.eval.gradeFlag = false → (v.updateGrade b).eval.gradeFlag = true → ∀ q : Port, .grade ∈ ((v.updateGrade b).port q).events)
   ∧ (∀ q : Port, ∀ k ∈ (v.port q).events, k ∈ ((v.updateGrade b).port q).events) := by
  unfold State.updateGrade
  simp only [Config.gradeCountTop]
  obtain ⟨n, hn⟩ : ∃ n : Nat, (if b = true then min 50 (v.eval.gradeCount + 1) else 0) = n := ⟨_, rfl⟩
  simp only [hn]
  split
  · rename_i h
    simp only [Bool.and_eq_true, decide_eq_true_eq, Bool.not_eq_true'] at h
    refine ⟨rfl, rfl, rfl, rfl, rfl, rfl, rfl, rfl, ?_, ?_, ?_⟩
    · show true = _; simp [h.1]
    · intro _ _ q; cases q <;> exact (mem_setKind _ _ _).mpr (.inl rfl)
    · intro q k hk; cases q <;> exact (mem_setKind _ _ _).mpr (.inr hk)
  · rename_i h
    refine ⟨rfl, rfl, rfl, rfl, rfl, rfl, rfl, rfl, ?_, ?_, ?_⟩
    · show (b && v.eval.gradeFlag) = _
      rcases hb : (b && v.eval.gradeFlag)
      · simp only [hb, Bool.not_false, Bool.and_true, decide_eq_true_eq] at h
        simp [h]
      · simp
    · intro h1 h2
      have : (b && v.eval.gradeFlag) = true := h2
      rw [h1] at this; simp at this
    · intro q k hk; cases q <;> exact hk

/-- One evaluation (R146). -/
theorem State.evaluate_spec (v : State) (l : Line) (r : RunContext) (rd : Reading) (ha : v.active? = some l) (hr : l.run? = some r)
    (hc : r.state = .cutting)
   (err : Option Int) (herr : v.errorOf? rd = err) :
   let t := v.evaluate rd
   let b := outOfTolerance v.settings err
   let n := if b then min 50 (v.eval.gradeCount + 1) else 0
   let fl := (b && v.eval.gradeFlag) || decide (v.settings.gradeCount ≤ (n : Int))
   t.eval.gradeCount = n ∧ t.eval.gradeFlag = fl
   ∧ (v.eval.gradeFlag = false → t.eval.gradeFlag = true → ∀ q : Port, .grade ∈ (t.port q).events)
   ∧ (fl = true ∧ v.settings.gradeEffect = .halt → t.runState? = some (.halted .grade) ∧ t.eval.drive = 0 ∧ t.run.timer = none
       ∧ ∀ q : Port, .halt ∈ (t.port q).events ∧ .run ∈ (t.port q).events)
   ∧ (fl = false ∨ v.settings.gradeEffect = .report → t.runState? = some .cutting ∧ t.run.timer = v.run.timer
      ∧ t.active?.map (fun k => k.profile) = some (l.accrue v.chainage err fl).profile
      ∧ t.eval.reference = (match rd.offset? with | some d => some { offset := d, chainage := v.chainage, time := v.time } | none => v.eval.reference)
      ∧ t.eval.drive = slewTo v.settings.slew v.eval.drive (demand v.settings rd (err.getD 0))) := by
  intro t b n fl
  obtain ⟨g1, g2, g3, g4, g5, g6, g7, g8, g9, g10, g11⟩ := State.updateGrade_spec v b
  set w := v.updateGrade b with hw
  have hfl : w.eval.gradeFlag = fl := g9
  set z := w.accrue err with hz
  have hze : z.eval = w.eval := rfl
  have hzchain : w.chainage = v.chainage := by unfold State.chainage; rw [g2]
  have hwa : w.active? = some l := by unfold State.active?; rw [g1]; exact ha
  have hza : z.active? = some (l.accrue v.chainage err fl) := by
    rw [hz, State.accrue, State.updActive_active? (f := fun l => l.accrue w.chainage err w.eval.gradeFlag) (fun l h => h), hwa, hzchain,
        hfl]; rfl
  have hzc : z.context? = some r := by
    unfold State.context?; rw [hza]; exact hr
  have hzr : z.runState? = some .cutting := by simp [State.runState?, hzc, hc]
  have hzs : z.settings = v.settings := by show w.store.settings = _; rw [g1]; rfl
  have hport : ∀ q, z.port q = w.port q := fun q => by cases q <;> rfl
  have ht : t = if z.settings.gradeEffect = .halt && z.eval.gradeFlag then z.haltGrade else z.drive rd err := by
    show v.evaluate rd = _
    unfold State.evaluate; rw [herr]
  have hhalt : z.haltGrade = z.changeRun (.halted .grade) := by unfold State.haltGrade; rw [hzr]; rfl
  by_cases hh : v.settings.gradeEffect = .halt ∧ fl = true
  · have : t = z.changeRun (.halted .grade) := by rw [ht, hzs, hze, hfl]; simp [hh.1, hh.2, hhalt]
    have hcn : z.context? ≠ none := by rw [hzc]; simp
    rw [this]
    refine ⟨by rw [State.changeRun_eval]; exact g5, by rw [State.changeRun_eval]; exact hfl, ?_, ?_, ?_⟩
    · intro h1 h2 q
      obtain ⟨es, he, -, -, -, h5, -⟩ := State.changeRun_port z (.halted .grade) q
      rw [he]; apply h5; rw [hport]
      exact g10 h1 (by rw [State.changeRun_eval] at h2; exact h2) q
    · intro _
      refine ⟨State.changeRun_runState? z _ hcn, by rw [State.changeRun_eval], by rw [State.changeRun_run], fun q => ?_⟩
      obtain ⟨es, he, h2, h3, -, -, -⟩ := State.changeRun_port z (.halted .grade) q
      rw [he]; exact ⟨h3 _ rfl, h2⟩
    · rintro (h | h)
      · rw [hh.2] at h; cases h
      · rw [hh.1] at h; cases h
  · have : t = z.drive rd err := by
      rw [ht, hzs, hze, hfl]
      have : (decide (v.settings.gradeEffect = .halt) && fl) = false := by
        rw [← Bool.not_eq_true, Bool.and_eq_true, decide_eq_true_eq]; exact hh
      rw [if_neg]; simpa using this
    have hd : ∀ y : State, (y.setReference rd).store = y.store ∧ (y.setReference rd).run = y.run
        ∧ (∀ q, (y.setReference rd).port q = y.port q)
       ∧ (y.setReference rd).eval = { y.eval with reference := (match rd.offset? with | some d => some { offset := d, chainage := y.chainage, time := y.time } | none => y.eval.reference) } := by
      intro y; unfold State.setReference
      rcases rd.offset? with _ | d
      · exact ⟨rfl, rfl, fun q => rfl, rfl⟩
      · exact ⟨rfl, rfl, fun q => by cases q <;> rfl, rfl⟩
    set y := z.updEval (fun e => { e with drive := slewTo z.settings.slew e.drive (demand z.settings rd (err.getD 0)) }) with hy
    have hty : t = y.setReference rd := this
    obtain ⟨e1, e2, e3, e4⟩ := hd y
    have hya : (y.setReference rd).active? = z.active? := by unfold State.active?; rw [e1]; rfl
    rw [hty]
    refine ⟨by rw [e4]; exact g5, by rw [e4]; exact hfl, ?_, ?_, ?_⟩
    · intro h1 h2 q
      rw [e3]; have : y.port q = z.port q := by cases q <;> rfl
      rw [this, hport]
      exact g10 h1 (by rw [e4] at h2; exact h2) q
    · rintro ⟨h1, h2⟩; exact absurd ⟨h2, h1⟩ hh
    · intro _
      refine ⟨?_, ?_, ?_, ?_, ?_⟩
      · unfold State.runState? State.context?; rw [hya]; show Option.map _ z.context? = _; rw [hzc]; simp [hc]
      · rw [e2]; show w.run.timer = _; rw [g3]
      · rw [hya, hza]; rfl
      · rw [e4]; split
        · rename_i d _
          show some ({ offset := d, chainage := y.chainage, time := y.time } : HandoffRef) = _
          have q1 : y.chainage = v.chainage := hzchain
          have q2 : y.time = v.time := g4
          rw [q1, q2]
        · exact g7
      · rw [e4]; show slewTo z.settings.slew w.eval.drive (demand z.settings rd _) = _
        rw [hzs, g6]

/-- The strike that a wait awaits is judged by the Run controller, over the state it stood in (R39, R115, R120). -/
theorem State.accept_waits {f : Frame} {w : TieWait} {s : State} (hw : s.run.wait = some w)
  (h : (w.kind = .tie ∧ s.runState? = some .armed) ∨ (w.kind = .retie ∧ s.stopped = true)) :
  ∃ v : State, (s.hunt.accept w.station f.reading) = v.judgeWait w f.reading ∧ v.store = s.store ∧ v.chain = s.chain ∧ v.run = s.run
      ∧ v.cab = s.cab ∧ v.plan = s.plan ∧ v.time = s.time
     ∧ v.eval.serving = s.eval.serving := by
  let u := s.hunt.updLive w.station (fun v => { last := some { time := s.time, reading := f.reading }, accepted := bump v.accepted })
  have hrs : u.runState? = s.runState? := rfl
  have hst : u.stopped = s.stopped := rfl
  have hwf : u.waitFor? w.station = some w := by
    unfold State.waitFor?
    have : u.run.wait = some w := hw
    rw [this]; simp [hrs, hst, h]
  have hnd : u.digging = false := by
    rcases h with ⟨-, h⟩ | ⟨-, h⟩
    · unfold State.digging; rw [hrs, h]; rfl
    · unfold State.digging; rw [hrs]; unfold State.stopped at h
      rcases hr : s.runState? with _ | r
      · rfl
      · rw [hr] at h; cases r <;> simp at h <;> rfl
  have hroute : u.evalRoute w.station = .nothing ∨ u.evalRoute w.station = .reference := by
    have hc : u.runState? ≠ some .cutting ∧ u.runState? ≠ some .coasting := by
      unfold State.digging at hnd; simp at hnd; exact hnd
    unfold State.evalRoute
    simp only [hnd, hc.1, hc.2, if_false, Bool.false_and]
    split
    · exact .inl rfl
    · split
      · split
        · exact .inr rfl
        · exact .inl rfl
      · left; simp
  have hacc : s.hunt.accept w.station f.reading = (u.handEvaluator (u.evalRoute w.station) f.reading).judgeWait w f.reading := by
    show u.route w.station f.reading = _
    unfold State.route; simp only [hwf]
  refine ⟨_, hacc, ?_⟩
  rcases hroute with hr | hr <;> rw [hr]
  · exact ⟨rfl, rfl, rfl, rfl, rfl, rfl, rfl⟩
  · show (u.setReference f.reading).store = _ ∧ _
    unfold State.handEvaluator State.setReference
    dsimp only
    split <;> exact ⟨rfl, rfl, rfl, rfl, rfl, rfl, rfl⟩

theorem State.handEvaluator_link (s : State) (r : EvalRoute) (rd : Reading) : (s.handEvaluator r rd).link = s.link := by
  have hg : ∀ (u : State) b, (u.updateGrade b).link = u.link := by intro u b; unfold State.updateGrade; simp only []; split <;> split <;> rfl
  have hr : ∀ (u : State) rd, (u.setReference rd).link = u.link := by intro u rd; unfold State.setReference; split <;> rfl
  have he : ∀ u : State, (u.evaluate rd).link = u.link := by
    intro u; unfold State.evaluate; simp only []
    split
    · unfold State.haltGrade; split
      · rw [State.changeRun_link]; exact hg _ _
      · exact hg _ _
    · unfold State.drive; simp only []; rw [hr]; exact hg _ _
  unfold State.handEvaluator; split
  · exact he _
  · rw [he]; unfold State.endCoast; show (s.changeRun _).link = _; rw [State.changeRun_link]
  · exact hr _ _
  · unfold State.compareHandoff; split
    · split
      · unfold State.haltDigging; split
        · rw [State.changeRun_link]
        · rfl
      · rfl
    · rfl
  · rfl

theorem State.judgeWait_link (s : State) (w : TieWait) (rd : Reading) : (s.judgeWait w rd).link = s.link := by
  unfold State.judgeWait; split
  · unfold State.judgeTie; split
    · split
      · exact State.reply_link _ _ _
      · split
        · simp only []; split
          · exact State.reply_link _ _ _
          · unfold State.ok; rw [State.reply_link]; unfold State.tieSucceeds; simp only []
            show (State.changeRun _ _).link = _
            rw [State.changeRun_link]
            show (State.warnAtTie _ _).link = _
            unfold State.warnAtTie; simp only []; split <;> rfl
        · exact State.reply_link _ _ _
    · exact State.reply_link _ _ _
  · unfold State.judgeRetie; split
    · split
      · simp only []; split
        · exact State.reply_link _ _ _
        · unfold State.ok; rw [State.reply_link]; unfold State.retieSucceeds; simp only []; rw [State.moveServing_link]; rfl
      · exact State.reply_link _ _ _
    · exact State.reply_link _ _ _

end Sys2Proof.Machine
end

