-- ==== Sys2Proof/Laws/Walk.lean ====
section
/-! SUPPORT. What the walk of F can do next: the point it meets, and its end (R102, R107). -/
namespace Sys2Proof.Machine

/-- A point taken from a list as the earliest is in it. -/
theorem earliest_mem {ms : List Meeting} {m : Meeting} (h : earliest ms = some m) : m ∈ ms := by
  induction ms generalizing m with
  | nil => exact absurd h (by simp [earliest])
  | cons x xs ih =>
    unfold earliest at h
    cases hx : earliest xs with
    | none => simp_all
    | some y =>
      simp only [hx] at h
      split at h
      · exact List.mem_cons_of_mem _ (ih (by rw [hx, h]))
      · simp_all

/-- A list without an earliest point is empty. -/
theorem earliest_eq_none {ms : List Meeting} : earliest ms = none ↔ ms = [] := by
  cases ms with
  | nil => simp [earliest]
  | cons x xs =>
    refine iff_of_false ?_ (List.cons_ne_nil x xs)
    unfold earliest
    split
    · simp
    · split <;> simp

/-- Everything the next point of a walk is: a point of the ACTIVE line as it stands, after the last one met, at or below the new F, and no
end warning left to the next advance. -/
theorem State.nextPoint?_some {s : State} {last m : Meeting} {changedAt : Option Int} {new : Int}
    (h : s.nextPoint? last changedAt new = some m) :
    m ∈ s.points ∧ last.before m = true ∧ m.chainage ≤ new ∧ m.isLeft changedAt = false := by
  have := earliest_mem h
  simpa [and_assoc] using this

/-- The walk has nothing left to meet exactly where no such point stands. -/
theorem State.nextPoint?_none {s : State} {last : Meeting} {changedAt : Option Int} {new : Int} :
    s.nextPoint? last changedAt new = none ↔
      ∀ m ∈ s.points, last.before m = true → m.chainage ≤ new → m.isLeft changedAt = true := by
  simp [State.nextPoint?, earliest_eq_none, List.filter_eq_nil_iff]

/-- Before the length has changed in a walk, no end warning is left to the next advance. -/
@[simp] theorem Meeting.isLeft_none (m : Meeting) : m.isLeft none = false := by simp [Meeting.isLeft]

/-- A walk with nothing to meet leaves the state as it is. -/
theorem State.walk_none {s : State} {last : Meeting} {changedAt : Option Int} {new : Int}
    (h : s.nextPoint? last changedAt new = none) (n : Nat) : s.walk n last changedAt new = s := by
  cases n with
  | zero => rfl
  | succ n => simp [State.walk, h]

/-- A walk goes on from the state to which its next point leads. -/
theorem State.walk_some {s : State} {last m : Meeting} {changedAt : Option Int} {new : Int}
    (h : s.nextPoint? last changedAt new = some m) (n : Nat) :
    s.walk (n + 1) last changedAt new = (s.meet m).walk n m (changeAt s (s.meet m) m changedAt) new := by
  simp [State.walk, h]

end Sys2Proof.Machine
end

