-- ==== Sys2Proof/Tests/Slice0.lean ====
section
/-! SUPPORT. The model's own tests: ill-formed rows that WellFormed refuses, command lines written out from the manual, small steps, and
for every statement with hypotheses states and operands that meet them, clause by clause. -/
namespace Sys2Proof.Tests
open Sys2Proof Sys2Proof.Machine

/-! ## Small states -/

/-- A word of a line. -/
def w (s : String) : Text := s.toList

/-- The row that the text of a line spells on a port. -/
def row (p : Port) (s : String) : Instr := decodeLine p { chars := s.toList, bad := false, tooLong := false }

/-- The state after a row. -/
def after (i : Instr) (s : State) : State :=
  match exec i s with
  | .next t => t
  | _ => s

/-- The line on the port answers this text. -/
def answers (p : Port) (line reply : String) (s : State) : Bool :=
  (after (row p line) s).sending? p == some (reply.toList ++ ['\r', '\n'])

/-- The state after a line and the end of its reply. -/
def said (p : Port) (line : String) (s : State) : State := after (.replySent p) (after (row p line) s)

/-- A line of 50 m at one per mille, and the span of station 2 above it. -/
def pts : List Point := [{ chainage := 0, invert := -1500 }, { chainage := 50000, invert := -1450 }]
def span0 : Span := { start := 0, station := .s2, plane := 400, slope := 1000 }
def lineOf (id : Nat) (lc : Lifecycle) (c : CheckStatus) : Line :=
  { id := id, label := none, outlet := none, lifecycle := lc, status := c, revision := 0,
    profile := pts.map (fun q => { point := q, closure := none }), spans := [span0] }

/-- A run context with F at 0 once the run has left ARMED. -/
def ctx (x : RunState) : RunContext :=
  { state := x, retie := false, furthest := if x = .armed then none else some 0, mark1 := none, mark2 := none, trimFrom := 0,
    trimTo := 0, rampStart := 0 }

def data37 : StationData := { signature := 37, label := none, correction := 0 }

/-- The factory's module with station 2 in service and these lines. -/
def withLines (ls : List Line) : State :=
  { State.reset with store := { State.reset.store with lines := ls, stations := State.reset.store.stations.set .s2 (.inService data37) } }

/-- Line 1 in a lifecycle, and nothing under way. -/
def planned : State := withLines [lineOf 1 .planned .checked]
def complete : State := withLines [lineOf 1 .complete .checked]
def armed : State := withLines [lineOf 1 (.active (ctx .armed) none) .checked]

/-- Line 1 under a run that has left ARMED, at chainage 0, with this staged revision. -/
def running (x : RunState) (st : Option Staged) : State :=
  { withLines [lineOf 1 (.active (ctx x) st) .checked] with
    chain := { State.reset.chain with known := true }
    run := { State.reset.run with timer := if x = .cutting then some 800 else none }
    eval := { State.reset.eval with serving := some 0 } }

/-- A staged revision that keeps the lists, and one that moves a point behind the freeze chainage. -/
def sameLists : Staged := { profile := pts, spans := [span0], settled := false, base := 0 }
def movedLists : Staged := { sameLists with profile := [{ chainage := 0, invert := -1501 }, { chainage := 50000, invert := -1450 }] }

/-- A draft with the lists of a line. -/
def draft (base : Option Count) : Draft :=
  { base := base, parent := none, junction := none, label := none, points := fillSlots 64 pts, spans := fillSlots 6 [span0], first := 0,
    last := 63, cursor := 0 }

/-- A claim, and perhaps a draft, on a port. -/
def holding (p : Port) (id : Nat) (d : Option Draft) (s : State) : State := s.updPort p (fun q => { q with claim := some id, draft := d })

/-- A commit in flight of the claimed line. -/
def committing (p : Port) (was : Option LifecycleKind) (reached : Bool) (s : State) : State :=
  s.updPort p (fun q =>
    { q with hand := .waiting (.commit p []), commit := some { was := was, reached := reached, check := CheckRun.begun } })

/-- A reply under way on a port. -/
def replying (p : Port) (overrun : Bool) (s : State) : State :=
  s.updPort p (fun q => { q with hand := .sending (some (.release p [])) okReply, overrun := overrun })

/-- A wait of TIE or RETIE under way. -/
def waiting (k : TieKind) (i : Instr) (s : State) : State :=
  { s with
    cab := { s.cab with hand := .waiting i }
    run := { s.run with wait := some { kind := k, station := .s2, chainage := 0, deadline := 800 } } }

/-- A frame of station 2 with an offset, and its row. -/
def frame (flags lo : Byte) : Frame :=
  { signature := 37, flags := flags, offsetHigh := 0, offsetLow := lo, check := 37 ^^^ flags ^^^ lo ^^^ 0x5A }
def strike (flags lo : Byte) : Instr := .frameComplete 37 flags 0 lo (37 ^^^ flags ^^^ lo ^^^ 0x5A)

/-! ## WellFormed refuses what cannot happen as written -/

theorem test_wf_emptyWord : WellFormed (.claim .cab [[]]) = false := by decide
theorem test_wf_spaceInWord : WellFormed (.claim .cab [w "1 2"]) = false := by decide
theorem test_wf_controlCharacter : WellFormed (.claim .cab [[Char.ofNat 127]]) = false := by decide
theorem test_wf_lineTooLong : WellFormed (.claim .cab [List.replicate 155 'x']) = false := by decide +kernel
theorem test_wf_longestLine : WellFormed (.claim .cab [List.replicate 154 'x']) = true := by decide +kernel
theorem test_wf_unknownNamesACommand : WellFormed (.unknownCommand .plan [w "claim", w "7"]) = false := by decide
theorem test_wf_unknownNamesHead : WellFormed (.unknownCommand .plan [w "HEAD", w "Parent"]) = false := by decide
theorem test_wf_unknownWithoutWords : WellFormed (.unknownCommand .plan []) = false := by decide
theorem test_wf_stationWithoutNumber : WellFormed (.stationDefine .plan []) = false := by decide
theorem test_wf_stationReadOfAVerb : WellFormed (.stationRead .plan [w "2", w "plane", w "5"]) = false := by decide
theorem test_wf_lineFeedIsNoPortByte : WellFormed (.commandPortByte .cab 10 false) = false := by decide
theorem test_wf_good : WellFormed (.stationDefine .plan [w "2", w "37", w "north"]) = true ∧ WellFormed (.unknownCommand .cab [w "HEAD"]) = true
    ∧ WellFormed (.commandPortByte .cab 10 true) = true := by decide

/-! ## Command lines, written out from the manual -/

theorem test_line_claim : row .cab "  claim   5 " = .claim .cab [w "5"] := by decide
theorem test_line_put : row .plan "PUT 0 -1500 20000 -1480" = .put .plan [w "0", w "-1500", w "20000", w "-1480"] := by decide
theorem test_line_head : row .plan "HEAD junction 4500" = .headJunction .plan [w "4500"] ∧ row .plan "HEAD" = .unknownCommand .plan [w "HEAD"] := by
  decide
theorem test_line_station : row .plan "Station 2 Define 37 North" = .stationDefine .plan [w "2", w "37", w "North"]
    ∧ row .plan "STATION 2" = .stationRead .plan [w "2"] ∧ row .plan "STATION 2 PLAIN 5" = .stationRead .plan [w "2", w "PLAIN", w "5"] := by decide
theorem test_line_zero : row .cab "ZERO COUNTERS" = .zeroCounters .cab [] ∧ row .cab "ZERO" = .unknownCommand .cab [w "ZERO"] := by decide
theorem test_line_run : row .cab "MARK 1 1000 SUSPEND" = .mark .cab [w "1", w "1000", w "SUSPEND"] ∧ row .cab "retie 20" = .retie .cab [w "20"] := by
  decide
theorem test_line_module : row .cab "SET GRADE_EFFECT REPORT" = .set .cab [w "GRADE_EFFECT", w "REPORT"]
    ∧ row .cab "FOO 1" = .unknownCommand .cab [w "FOO", w "1"] ∧ row .cab "   " = .emptyLine .cab := by decide
theorem test_line_bad : decodeLine .cab { chars := w "TIE", bad := true, tooLong := false } = .commandLineBad .cab
    ∧ decodeLine .cab { chars := w "TIE", bad := false, tooLong := true } = .commandLineBad .cab := by decide

/-! ## Replies -/

theorem test_reply_claim : answers .cab "CLAIM 5" "OK FREE" State.reset = true ∧ answers .cab "CLAIM 1" "OK" planned = true
    ∧ answers .plan "CLAIM 5" "NO HELD CAB" (said .cab "CLAIM 5" State.reset) = true ∧ answers .cab "CLAIM 0" "NO RANGE" State.reset = true := by decide
theorem test_reply_open : answers .cab "OPEN" "OK 2 1 0" (said .cab "CLAIM 1" planned) = true
    ∧ answers .cab "OPEN" "OK 0 0 NONE" (said .cab "CLAIM 5" planned) = true := by decide
theorem test_reply_put : answers .cab "PUT 0 -1500 50000 -1450" "OK 2" (holding .cab 5 (some (draft none)) planned) = true := by decide
theorem test_reply_cut : answers .cab "CUT 1" "OK 1" (holding .cab 5 (some (draft none)) planned) = true := by decide
theorem test_reply_profile : answers .cab "PROFILE 1 1 1" "OK\r\nBP 1 50000 -1450 NONE NONE NONE NONE NONE\r\n." planned = true
    ∧ answers .cab "PROFILE 7 0 63" "NO NOLINE" planned = true := by decide
theorem test_reply_define : answers .plan "STATION 3 DEFINE 37" "NO COLLIDE" planned = true
    ∧ answers .plan "STATION 2 FORGET" "NO STATE" planned = true := by decide
theorem test_reply_select : answers .plan "SELECT 1" "NO PORT" planned = true ∧ answers .cab "SELECT 1" "OK" planned = true
    ∧ (after (row .cab "SELECT 1") planned).runState? = some .armed := by decide
theorem test_reply_tie : (after (strike 0 0) (waiting .tie (.tie .cab []) armed)).sending? .cab = some (w "OK 0" ++ ['\r', '\n'])
    ∧ (after (strike 0 0) (waiting .tie (.tie .cab []) armed)).runState? = some .cutting
    ∧ (after (strike 1 0) (waiting .tie (.tie .cab []) armed)).sending? .cab = some (w "NO TIEOUT EDGE" ++ ['\r', '\n']) := by decide
theorem test_reply_suspend : answers .plan "SUSPEND" "OK" (running .cutting none) = true ∧ answers .cab "SUSPEND" "NO STATE" armed = true := by decide
theorem test_reply_set : answers .cab "SET BACKUP 5001" "NO RANGE" State.reset = true ∧ answers .cab "SET backup 5000" "OK" State.reset = true
    ∧ answers .cab "SET MIN_FALL 900" "NO STATE" armed = true := by decide
theorem test_reply_run : answers .cab "IDENT 5" "NO SYNTAX" State.reset = true ∧ answers .cab "FOO" "NO SYNTAX" State.reset = true := by decide

/-- A commit of the ACTIVE line that a marking change reached leaves it STALE and waiting for a check, whatever its status became. -/
theorem test_reached_active :
    let d : Draft :=
      { base := some 0, parent := none, junction := none, label := none, points := fillSlots 64 pts, spans := fillSlots 6 [span0], first := 0,
        last := 63, cursor := 0 }
    let t := after (.commitCompletion .plan) (committing .plan (some .active) true (holding .plan 1 (some d) (running .cutting none)))
    t.sending? .plan = some (w "OK STALE" ++ ['\r', '\n']) ∧ (t.line? 1).map (fun l => l.status) = some .stale ∧ t.recheck.queue = [1]
      ∧ t.run.lastDrop = some { id := 1, reason := .stale } := by decide +kernel

/-- RESET held low releases the outputs and lets no row through; its rise restarts the module. -/
theorem test_reset_level :
    let low := after .resetInput (running .cutting none)
    low.permit = false ∧ low.attention .cab = false ∧ after (row .cab "SUSPEND") low = low
      ∧ (after .resetInput low).runState? = some (.suspended .power) ∧ (after .resetInput low).running = true
      ∧ (after .resetInput (after .supplyLoss low)).powered = false
      ∧ (after .powerOn (after .supplyLoss low)).running = false := by decide

/-- After a restart with a STALE line the scan pass is the Re-check unit's first work, though a mark comes before CHECK_START. -/
theorem test_scan_first :
    let t := after (row .cab "RECHECK 1") { withLines [lineOf 1 .planned .checked, lineOf 2 .planned .stale] with
      recheck := { State.reset.recheck with scanPending := true, backlog := true } }
    t.recheck.scanPos = some 2 ∧ t.recheck.inFlight.map (fun f => (f.id, f.origin)) = some (2, .scan) ∧ t.recheck.queue = [1] := by decide

/-! ## States that meet the hypotheses of the statements -/

theorem test_meets_StepRunsTheFrontRow : step { planned with pending := [.checkStart, .powerOn] } = exec .checkStart { planned with pending := [.powerOn] } := rfl

theorem test_meets_EmptyQueueTicksTheClock :
    State.reset.pending = [] ∧ ({ State.reset with powered := false } : State).running = false
      ∧ ({ State.reset with resetLow := true } : State).running = false ∧ State.reset.running = true ∧ State.reset.timerDue = false ∧ State.reset.waitDue = false ∧ State.reset.lapseDue .cab = false
      ∧ State.reset.lapseDue .plan = false ∧ State.reset.gapDue = false := by decide

/-- A run under way meets every law, and a row in its queue steps. -/
theorem test_meets_law1 : (running .cutting (some sameLists)).tableLaw := by decide
theorem test_meets_law2 : (running .cutting (some sameLists)).poolLaw := by decide
theorem test_meets_law3 : (running .cutting (some sameLists)).store.collisionLaw := by decide
theorem test_meets_law4 : (running .cutting (some sameLists)).recheck.law := by decide
theorem test_meets_law5 : (running .cutting (some sameLists)).portLaw := by decide
theorem test_meets_law6 : (running .cutting (some sameLists)).digLaw := by decide
/-- A line under its collector, and a STALE line that waits for the scan, or in the queue. -/
def childOf (id parent : Nat) (l : Line) : Line := { l with id := id, outlet := some { parent := parent, junction := 20000 } }
def family : State := withLines [lineOf 1 .complete .checked, childOf 2 1 (lineOf 2 (.active (ctx .armed) none) .checked)]
def stale (queue : List Nat) (pos : Option Nat) : State :=
  { withLines [lineOf 1 .planned .checked, lineOf 2 .planned .stale] with
    recheck := { State.reset.recheck with queue := queue, scanPending := queue.isEmpty, scanPos := pos, backlog := queue.isEmpty } }
def runningLine : Line := lineOf 1 (.active (ctx .cutting) (some sameLists)) .checked
theorem test_meets_law7 : (running .cutting (some sameLists)).closedLaw := by
  refine ⟨by decide, by decide, by decide, (by intro c hc; cases hc), (by intro c hc; cases hc), ?_⟩
  intro l hl
  have hm : l = runningLine := by simpa [running, withLines, runningLine] using hl
  subst hm
  have hp : ∀ b ∈ runningLine.profile, b.closure = none := by decide
  refine ⟨by decide, by decide, by decide, ?_⟩
  intro r hr
  cases hr
  refine ⟨by decide, by decide, ?_⟩
  intro f hf
  cases hf
  refine ⟨by decide, fun k b c hb hc => ?_⟩
  simp [hp b (List.mem_of_getElem? hb)] at hc
theorem test_meets_law8 : family.store.idsAscending ∧ family.store.lines.length = 2 := by decide
theorem test_meets_law9 : family.store.levelLaw := by
  intro l hl p hp
  have hm : l = lineOf 1 .complete .checked ∨ l = childOf 2 1 (lineOf 2 (.active (ctx .armed) none) .checked) := by
    simpa [family, withLines] using hl
  rcases hm with rfl | rfl
  · cases hp
  · cases hp
    exact ⟨lineOf 1 .complete .checked, by decide, fun g hg => by cases hg⟩
theorem test_meets_law10 : family.store.activeParentLaw := by
  intro l hl ha p k hp hk
  have hm : l = lineOf 1 .complete .checked ∨ l = childOf 2 1 (lineOf 2 (.active (ctx .armed) none) .checked) := by
    simpa [family, withLines] using hl
  rcases hm with rfl | rfl
  · exact absurd ha (by decide)
  · cases hp
    cases hk
    rfl
theorem test_meets_law11 : (stale [2] none).recheck.law ∧ (stale [2] none).tableLaw ∧ (stale [2] none).coverLaw := by decide
theorem test_meets_law12 : (stale [] (some 0)).recheck.law ∧ (stale [] (some 0)).tableLaw ∧ (stale [] (some 0)).coverLaw := by decide
theorem test_meets_laws_step : step { running .cutting (some sameLists) with pending := [strike 0 0] } = .next (after (strike 0 0) (running .cutting (some sameLists))) := rfl

theorem test_meets_LaidLinesStand : complete.store.idsAscending ∧ (lineOf 1 .complete .checked) ∈ complete.store.lines
    ∧ (lineOf 1 .complete .checked).lifecycle = .complete ∧ complete.cab.commitLaw ∧ complete.plan.commitLaw := by decide
theorem test_meets_LaidLinesStand_abandoned : (withLines [lineOf 1 .abandoned .stale]).store.idsAscending
    ∧ (lineOf 1 .abandoned .stale) ∈ (withLines [lineOf 1 .abandoned .stale]).store.lines := by decide

theorem test_meets_LineTextReadsBack : WellFormed (.put .plan [w "0", w "-5"]) = true
    ∧ encodeLine (.put .plan [w "0", w "-5"]) = some (.plan, { chars := w "PUT 0 -5", bad := false, tooLong := false }) := by decide

theorem test_meets_PortByteBuildsTheLine : State.reset.running = true ∧ (true = true ∨ (10 : Byte) ≠ 10) ∧ (false = true ∨ (13 : Byte) ≠ 10)
    ∧ (false = true ∨ (31 : Byte) ≠ 10) ∧ (false = true ∨ (32 : Byte) ≠ 10) ∧ (false = true ∨ (126 : Byte) ≠ 10)
    ∧ (false = true ∨ (127 : Byte) ≠ 10) := by decide

theorem test_meets_LinesNotTaken : State.reset.ready .cab (.commandLineBad .cab) ∧ State.reset.ready .plan (.unknownCommand .plan [w "FOO"])
    ∧ State.reset.running = true ∧ State.reset.lineIs .cab (.emptyLine .cab) = true := by decide

theorem test_meets_LinesNotTaken_busy : (replying .cab false State.reset).running = true ∧ (replying .cab false State.reset).busy .cab = true
    ∧ ((replying .cab false State.reset).port .cab).buffer = emptyBuffer
    ∧ Instr.words (.claim .cab [w "5"]) = some (.cab, [w "CLAIM", w "5"])
    ∧ (replying .cab false State.reset).lineIs .cab (.claim .cab [w "5"]) = true
    ∧ (replying .cab false State.reset).lineIs .cab (.commandLineBad .cab) = true := by decide

theorem test_meets_ReplyEndsAndClaimLapses : (replying .cab false State.reset).running = true
    ∧ ((replying .cab false State.reset).port .cab).hand = .sending (some (.release .cab [])) okReply
    ∧ restartsAfter (some (.release .cab [])) okReply = false ∧ ((replying .cab false State.reset).port .cab).overrun = false
    ∧ ((replying .cab true State.reset).port .cab).overrun = true := by decide

/-- CLAIM at the ends of the range of ids: held by the other port, another id held, the same id held, and an empty slot. -/
theorem test_meets_ClaimTakesTheId : number? (w "1") = some 1 ∧ number? (w "999") = some 999
    ∧ (holding .plan 1 none State.reset).ready .cab (.claim .cab [w "1"]) ∧ ((holding .plan 1 none State.reset).port (otherPort .cab)).claim = some 1
    ∧ (holding .cab 2 none State.reset).ready .cab (.claim .cab [w "999"]) ∧ ((holding .cab 2 none State.reset).port .cab).claim = some 2
    ∧ ((holding .cab 2 none State.reset).port (otherPort .cab)).claim ≠ some 999
    ∧ (holding .cab 999 none State.reset).ready .cab (.claim .cab [w "999"]) ∧ ((holding .cab 999 none State.reset).port .cab).claim = some 999
    ∧ State.reset.ready .cab (.claim .cab [w "1"]) ∧ (State.reset.port .cab).claim = none := by decide

theorem test_meets_ReleaseAndDiscardEmpty : State.reset.ready .cab (.release .cab [w "x"]) ∧ State.reset.ready .cab (.release .cab [])
    ∧ (State.reset.port .cab).claim = none ∧ (holding .cab 1 none State.reset).ready .cab (.release .cab [])
    ∧ ((holding .cab 1 none State.reset).port .cab).claim ≠ none
    ∧ State.reset.ready .plan (.discard .plan []) ∧ (State.reset.port .plan).claim = none
    ∧ (holding .plan 1 none State.reset).ready .plan (.discard .plan []) ∧ ((holding .plan 1 none State.reset).port .plan).draft = none
    ∧ (holding .plan 1 (some (draft none)) State.reset).ready .plan (.discard .plan [])
    ∧ ((holding .plan 1 (some (draft none)) State.reset).port .plan).draft ≠ none := by decide

/-- A lapse timer at its deadline, and a millisecond before. -/
theorem test_meets_ReplyEndsAndClaimLapses_lapse : ∀ time : Fin 2,
    ({ (State.reset.updPort .cab (fun q => { q with claim := some 1, lapse := some 1 })) with time := time.val } : State).running = true
      ∧ (({ (State.reset.updPort .cab (fun q => { q with claim := some 1, lapse := some 1 })) with time := time.val } : State).port .cab).lapse = some 1
      ∧ (1 ≤ time.val ∨ time.val < 1) := by decide

theorem test_meets_OpenFillsTheDraft : (holding .cab 1 none planned).ready .cab (.openDraft .cab []) ∧ ((holding .cab 1 none planned).port .cab).claim = some 1
    ∧ (planned.line? 1).isSome = true ∧ planned.line? 5 = none
    ∧ ((running .cutting (some sameLists)).line? 1).bind (fun l => l.staged?) = some sameLists := by decide

theorem test_meets_DraftCommandsNeedADraft : (number? (w "0")).isSome ∧ (number? (w "63")).isSome ∧ (putPairs? [w "0", w "-5"]).isSome
    ∧ (spanForm? [w "5", w "off"]).isSome ∧ (headArg? [w "none"]).isSome ∧ labelArg [] ≠ .bad
    ∧ State.reset.ready .plan (.window .plan [w "0", w "63"]) ∧ (State.reset.port .plan).claim = none
    ∧ (holding .plan 1 none State.reset).ready .plan (.commit .plan []) ∧ ((holding .plan 1 none State.reset).port .plan).claim ≠ none
    ∧ ((holding .plan 1 none State.reset).port .plan).draft = none ∧ State.reset.ready .cab (.openDraft .cab [])
    ∧ State.reset.ready .plan (.retire .plan []) := by decide

/-- A port that holds a draft of line 1, on which no draft command has been given. -/
def drafted : State := holding .plan 1 (some (draft none)) planned

theorem test_meets_WindowAndCut : drafted.ready .plan (.window .plan [w "0", w "63"]) ∧ drafted.ready .plan (.window .plan [w "63", w "64"])
    ∧ number? (w "0") = some 0 ∧ number? (w "63") = some 63 ∧ number? (w "64") = some 64 ∧ drafted.ready .plan (.cut .plan [w "0"])
    ∧ drafted.ready .plan (.cut .plan [w "64"]) ∧ (drafted.port .plan).claim ≠ none ∧ (drafted.port .plan).draft = some (draft none) := by decide

theorem test_meets_PutAndMoreWriteSlots : drafted.ready .plan (.put .plan [w "1200000", w "-50000"]) ∧ drafted.ready .plan (.more .plan [w "1200001", w "0"])
    ∧ drafted.ready .plan (.put .plan [w "0"]) ∧ numbers? [w "0"] = some [0] ∧ numbers? [w "x", w "0"] = none
    ∧ numbers? [w "1200000", w "-50000"] = some (([{ chainage := 1200000, invert := -50000 }] : List Point).flatMap (fun q => [q.chainage, q.invert]))
    ∧ numbers? [w "1200001", w "0"] = some (([{ chainage := 1200001, invert := 0 }] : List Point).flatMap (fun q => [q.chainage, q.invert]))
    ∧ (draft none).points.length = 64 ∧ (draft none).last ≤ 63 := by decide

theorem test_meets_SpanAndHead : drafted.ready .plan (.span .plan [w "5", w "OFF"]) ∧ isKeyword "OFF" (w "OFF") = true
    ∧ drafted.ready .plan (.span .plan [w "0", w "1200000", w "6", w "50000", w "-30000"])
    ∧ numbers? [w "0", w "1200000", w "6", w "50000", w "-30000"] = some [0, 1200000, 6, 50000, -30000] ∧ StationId.s6.number = 6
    ∧ drafted.ready .plan (.span .plan [w "6", w "0", w "7", w "0", w "0"])
    ∧ drafted.ready .plan (.headParent .plan [w "999"]) ∧ isKeyword "NONE" (w "999") = false ∧ drafted.ready .plan (.headParent .plan [w "None"])
    ∧ isKeyword "NONE" (w "None") = true ∧ drafted.ready .plan (.headJunction .plan [w "1200000"]) ∧ drafted.ready .plan (.headLabel .plan [])
    ∧ drafted.ready .plan (.headLabel .plan [w "sixteencharacter"]) ∧ (w "sixteencharacter").length = 16
    ∧ drafted.ready .plan (.headLabel .plan [w "seventeencharacte"]) ∧ 16 < (w "seventeencharacte").length
    ∧ drafted.ready .plan (.headLabel .plan [w "None"]) := by decide

theorem test_meets_ReadsAnswerTheirRecords : planned.ready .cab (.ident .cab []) ∧ planned.ready .cab (.run .cab []) ∧ planned.ready .cab (.queue .cab [])
    ∧ planned.ready .cab (.settings .cab []) ∧ planned.ready .cab (.events .cab []) ∧ planned.ready .cab (.counters .cab [])
    ∧ planned.ready .cab (.stationRead .cab [w "6"]) ∧ number? (w "6") = some StationId.s6.number ∧ planned.ready .cab (.lines .cab [])
    ∧ planned.ready .cab (.lines .cab [w "planned"]) ∧ lifecycleKind? (w "planned") = some .planned
    ∧ planned.context? = none ∧ armed.active? = some (lineOf 1 (.active (ctx .armed) none) .checked) ∧ armed.ready .cab (.run .cab []) := by decide

theorem test_meets_LineReadsAnswer : number? (w "1") = some ((1 : Nat) : Int) ∧ planned.ready .cab (.line .cab [w "1"])
    ∧ planned.ready .cab (.spans .cab [w "1"]) ∧ planned.ready .cab (.profile .cab [w "1", w "0", w "63"]) ∧ number? (w "63") = some ((63 : Nat) : Int)
    ∧ isKeyword "STAGED" (w "Staged") = true ∧ (running .cutting (some sameLists)).ready .cab (.spans .cab [w "1", w "Staged"])
    ∧ (running .cutting (some sameLists)).ready .cab (.profile .cab [w "1", w "0", w "63", w "Staged"])
    ∧ ((running .cutting (some sameLists)).line? 1).bind (fun l => l.staged?) = some sameLists
    ∧ isKeyword "DRAFT" (w "draft") = true ∧ (drafted.port .plan).draft = some (draft none) ∧ (drafted.port .plan).claim = some 1
    ∧ (holding .plan 1 none planned).ready .plan (.line .plan [w "1", w "draft"]) ∧ ((holding .plan 1 none planned).port .plan).draft = none
    ∧ drafted.ready .plan (.line .plan [w "1", w "draft"]) ∧ drafted.ready .plan (.spans .plan [w "1", w "draft"])
    ∧ drafted.ready .plan (.profile .plan [w "1", w "0", w "63", w "draft"]) := by decide

theorem test_meets_ReadsAnswerTheirRecords_zero : planned.ready .plan (.zeroCounters .plan []) := by decide

/-- Station 3 undefined, with backlog and without; and stations withdrawn, named by a line and not. -/
def backlogged (s : State) : State := { s with recheck := { s.recheck with scanPending := true, backlog := true } }
def withdrawn (ls : List Line) : State :=
  { withLines ls with store := { (withLines ls).store with stations := (withLines ls).store.stations.set .s2 (.withdrawn data37) } }

theorem test_meets_DefineAndForget_define : planned.ready .plan (.stationDefine .plan [w "3", w "255"])
    ∧ defineArgs? [w "3", w "255"] = some { number := 3, signature := 255, label := none } ∧ StationId.s3.number = 3
    ∧ planned.store.stations.get .s2 ≠ .undefined ∧ planned.store.stations.get .s3 = .undefined ∧ (backlogged planned).recheck.backlog = true
    ∧ (backlogged planned).store.stations.get .s3 = .undefined ∧ planned.recheck.backlog = false
    ∧ planned.store.stations.get .s2 = .inService data37 ∧ data37.signature &&& planned.settings.sigMask = 37 &&& planned.settings.sigMask := by decide
theorem test_meets_DefineAndForget_apart (m : StationId) (d : StationData) (_ : m ≠ .s3) (h : planned.store.stations.get m = .inService d) :
    d.signature &&& planned.settings.sigMask ≠ 255 &&& planned.settings.sigMask := by
  cases m <;> simp [planned, withLines, State.reset, Store.reset, Six.all, Six.set, Six.get] at h
  subst h; decide

theorem test_meets_DefineAndForget_forget : planned.ready .plan (.stationForget .plan [w "2"]) ∧ number? (w "2") = some StationId.s2.number
    ∧ (withdrawn [lineOf 1 .planned .checked]).store.stations.get .s2 = .withdrawn data37
    ∧ (backlogged (withdrawn [])).recheck.backlog = true ∧ (withdrawn []).recheck.backlog = false
    ∧ (∃ l ∈ (withdrawn [lineOf 1 .planned .checked]).store.lines, (l.lifecycle.kind = .planned ∨ l.lifecycle.kind = .active) ∧ l.namesStation .s2 = true)
    ∧ (∀ l ∈ (withdrawn [lineOf 1 .complete .checked]).store.lines, l.lifecycle.kind = .planned ∨ l.lifecycle.kind = .active → l.namesStation .s2 = false)
    ∧ (withdrawn [lineOf 1 .complete .checked]).store.stations.get .s2 = .withdrawn data37 := by decide
theorem test_meets_DefineAndForget_inService (d : StationData) : planned.store.stations.get .s2 ≠ .withdrawn d := by
  simp [planned, withLines, State.reset, Store.reset, Six.all, Six.set, Six.get]

theorem test_meets_StationChangesMarkLines : number? (w "2") = some StationId.s2.number ∧ planned.recheck.backlog = false
    ∧ planned.ready .plan (.stationPlane .plan [w "2", w "500"]) ∧ number? (w "500") = some 500 ∧ number? (w "-500") = some (-500)
    ∧ planned.ready .plan (.stationPlane .plan [w "2", w "-500"]) ∧ planned.ready .plan (.stationPlane .plan [w "2", w "0"])
    ∧ planned.store.stations.get .s2 = .inService data37 ∧ planned.digging = false ∧ planned.ready .plan (.stationWithdraw .plan [w "2"])
    ∧ (withdrawn [lineOf 1 .planned .checked]).store.stations.get .s2 = .withdrawn data37
    ∧ (withdrawn [lineOf 1 .planned .checked]).ready .plan (.stationRestore .plan [w "2"])
    ∧ (backlogged planned).ready .plan (.stationWithdraw .plan [w "2"]) ∧ planned.store.stations.get .s3 = .undefined
    ∧ planned.ready .plan (.stationPlane .plan [w "3", w "500"]) ∧ (running .cutting none).digging = true
    ∧ (running .cutting none).ready .plan (.stationWithdraw .plan [w "2"])
    ∧ (lineOf 1 (.active (ctx .cutting) none) .checked).namesStation .s2 = true
    ∧ (running .cutting none).active? = some (lineOf 1 (.active (ctx .cutting) none) .checked) := by decide
theorem test_meets_StationChangesMarkLines_apart (m : StationId) (e : StationData) (hm : m ≠ .s2)
    (h : (withdrawn [lineOf 1 .planned .checked]).store.stations.get m = .inService e) :
    e.signature &&& (255 : Byte) ≠ data37.signature &&& (255 : Byte) := by
  cases m <;> simp [withdrawn, withLines, State.reset, Store.reset, Six.all, Six.set, Six.get] at h hm

/-- Subjects that fail and pass: a profile of one breakpoint, of two that are too close, and the design of line 1 under its collector. -/
theorem test_meets_PlanCheckTestsItsItems : ¬(2 ≤ (pts.take 1).length ∧ (pts.take 1).length ≤ 64) ∧ (draft none).subject 5 = (draft none).subject 5
    ∧ ((draft none).subject 5).points[0]? = some { chainage := 0, invert := -1500 }
    ∧ ((draft none).subject 5).points.getLast? = some { chainage := 50000, invert := -1450 } ∧ (5000 : Int) ≤ 50000 ∧ ¬((4999 : Int) ≥ 5000)
    ∧ ((draft none).points.map Option.isSome)[2]? = some false
    ∧ (((draft none).points.set 0 none).map Option.isSome)[0]? = some false ∧ (((draft none).points.set 0 none).map Option.isSome)[1]? = some true
    ∧ family.store.idsAscending ∧ (family.store.line? 1).isSome = true
    ∧ (childOf 2 1 (lineOf 2 (.active (ctx .armed) none) .checked)).subject.parent = some 1 := by decide +kernel

theorem test_meets_ElevationsAndFreeze : (0 : Int) < 1000000 ∧ pts.Pairwise (fun x y => x.chainage < y.chainage)
    ∧ pts[0]? = some { chainage := 0, invert := -1500 } ∧ pts[0 + 1]? = some { chainage := 50000, invert := -1450 } ∧ pts.length = 0 + 2
    ∧ [span0].Pairwise (fun x y => x.start < y.start) ∧ [span0][0]? = some span0 ∧ (0 : Int) < 5000 ∧ (ctx .cutting).rampStart ≤ 4999
    ∧ freezeChainage planned.store (lineOf 1 .planned .checked) (some 42000) = 50000
    ∧ freezeChainage planned.store (lineOf 1 .planned .checked) (some 41999) = 49999
    ∧ (lineOf 1 .planned .checked).profile[1]? = some { point := { chainage := 50000, invert := -1450 }, closure := none } := by decide
/-- The worked roundings of the manual's conventions: halves go away from zero. -/
theorem test_round : roundDiv 5 2 = 3 ∧ roundDiv (-5) 2 = -3 ∧ roundDiv 1 3 = 0 ∧ roundDiv (-2) 3 = -1 := by decide

/-- Drafts of a free id, of the PLANNED line, and of the ACTIVE line, whose commits pass. -/
def freshDraft : State := holding .plan 5 (some (draft none)) planned
def planDraft : State := holding .plan 1 (some (draft (some 0))) planned
def digDraft : State := holding .plan 1 (some (draft (some 0))) (running .cutting none)
def fullTable : State := withLines ((List.range 40).map (fun k => lineOf (k + 10) .planned .checked))

theorem test_meets_CommitGoesInFlight : freshDraft.ready .plan (.commit .plan []) ∧ (freshDraft.port .plan).claim = some 5
    ∧ (freshDraft.port .plan).draft = some (draft none) ∧ freshDraft.line? 5 = none ∧ freshDraft.recheck.backlog = false
    ∧ (holding .plan 1 (some (draft (some 0))) complete).line? 1 = some (lineOf 1 .complete .checked)
    ∧ (lineOf 1 .complete .checked).lifecycle.kind = .complete ∧ (backlogged planDraft).recheck.backlog = true
    ∧ planDraft.line? 1 = some (lineOf 1 .planned .checked) ∧ (draft none).base ≠ some (lineOf 1 .planned .checked).revision
    ∧ (holding .plan 5 (some (draft none)) fullTable).line? 5 = none ∧ 40 ≤ (holding .plan 5 (some (draft none)) fullTable).store.lines.length := by decide

/-- The commit that passes, for each kind of line; and commits refused by the check and by each completion test. -/
theorem test_meets_commits : (committing .plan none false freshDraft).running = true
    ∧ ((committing .plan none false freshDraft).port .plan).commit = some { was := none, reached := false, check := CheckRun.begun }
    ∧ ((committing .plan none false freshDraft).port .plan).claim = some 5
    ∧ ((committing .plan none false freshDraft).port .plan).draft = some (draft none)
    ∧ CheckRun.begun.result freshDraft.store ((draft none).subject 5) = none
    ∧ freshDraft.completionRefusal? { was := none, reached := false, check := CheckRun.begun } ((draft none).subject 5) (draft none) = none
    ∧ freshDraft.completionRefusal? { was := none, reached := true, check := CheckRun.begun } ((draft none).subject 5) (draft none) = none
    ∧ freshDraft.line? 5 = none
    ∧ CheckRun.begun.result planDraft.store ((draft (some 0)).subject 1) = none
    ∧ planDraft.completionRefusal? { was := some .planned, reached := true, check := CheckRun.begun } ((draft (some 0)).subject 1) (draft (some 0)) = none
    ∧ planDraft.line? 1 = some (lineOf 1 .planned .checked) ∧ (planDraft.port (otherPort .plan)).claim ≠ some 1
    ∧ CheckRun.begun.result digDraft.store ((draft (some 0)).subject 1) = none
    ∧ digDraft.completionRefusal? { was := some .active, reached := false, check := CheckRun.begun } ((draft (some 0)).subject 1) (draft (some 0)) = none
    ∧ digDraft.line? 1 = some (lineOf 1 (.active (ctx .cutting) none) .checked) := by decide

def emptyDraft : Draft := { draft none with points := List.replicate 64 none }
def movedDraft : Draft := { draft (some 0) with points := fillSlots 64 movedLists.profile }
def childDraft : Draft := { draft none with parent := some 7, junction := some 20000 }
def packed : State :=
  let big : Line := { lineOf 10 .planned .checked with profile := List.replicate 1535 { point := { chainage := 0, invert := 0 }, closure := none } }
  holding .plan 5 (some (draft none)) (withLines [big])

theorem test_meets_CommitRefusedAtCompletion_checks :
    (CheckRun.begun.result freshDraft.store (emptyDraft.subject 5)).isSome = true
    ∧ freshDraft.line? 5 = none ∧ (none : Option LifecycleKind) ≠ some .planned
    ∧ (draft none).base ≠ some (lineOf 1 .planned .checked).revision
    ∧ 40 ≤ (holding .plan 5 (some (draft none)) fullTable).store.lines.length
    ∧ (firstFailure freshDraft.store (childDraft.subject 5) [.move, .parentExists, .cycleAndLevel]).isSome = true
    ∧ firstFailure freshDraft.store ((draft none).subject 5) [.move, .parentExists, .cycleAndLevel] = none := by decide
theorem test_meets_CommitRefusedAtCompletion_frozen :
    meetsFreeze digDraft.store (lineOf 1 (.active (ctx .cutting) none) .checked) (some 0) (movedDraft.subject 1).points (movedDraft.subject 1).spans = false
    ∧ CheckRun.begun.result digDraft.store (movedDraft.subject 1) = none := by decide
theorem test_meets_CommitRefusedAtCompletion_pool : packed.store.freeSlots < ((draft none).subject 5).points.length - slotsReturned (packed.line? 5) := by
  decide +kernel

/-- A commit of line 1, or its retirement, reaches a commit in flight on the other port whose draft names line 1 as parent. -/
theorem test_reached_child :
    let d : Draft := { draft none with parent := some 1, junction := some 20000 }
    let s := committing .cab none false (holding .cab 5 (some d) planDraft)
    let dropped : State := { s with run := { s.run with lastDrop := some { id := 7, reason := .stale } } }
    let reached := fun t : State => t.cab.commit.map (fun c => c.reached)
    reached s = some false ∧ reached (after (.commitCompletion .plan) (committing .plan (some .planned) false s)) = some true
      ∧ reached (after (.retire .plan []) dropped) = some true
      ∧ (after (.retire .plan []) dropped).run.lastDrop = some { id := 7, reason := .stale } := by
  decide +kernel

theorem test_meets_RetireRemovesTheLine : planDraft.ready .plan (.retire .plan []) ∧ (planDraft.port .plan).claim = some 1 ∧ freshDraft.line? 5 = none
    ∧ planDraft.line? 1 = some (lineOf 1 .planned .checked) ∧ (lineOf 1 .planned .checked).lifecycle.kind ≠ .active
    ∧ (∀ k ∈ planDraft.store.lines, k.parent? ≠ some 1) ∧ (lineOf 1 (.active (ctx .cutting) none) .checked).lifecycle.kind = .active
    ∧ (∃ k ∈ (withLines [lineOf 1 .planned .checked, { lineOf 2 .planned .checked with outlet := some { parent := 1, junction := 0 } }]).store.lines,
        k.parent? = some 1) := by decide

theorem test_meets_RecheckMarksTheLine : planned.ready .cab (.recheck .cab [w "999"]) ∧ number? (w "999") = some ((999 : Nat) : Int)
    ∧ planned.line? 999 = none ∧ planned.ready .cab (.recheck .cab [w "1"]) ∧ planned.line? 1 = some (lineOf 1 .planned .checked)
    ∧ complete.line? 1 = some (lineOf 1 .complete .checked) ∧ (stale [] none).ready .cab (.recheck .cab [w "1"])
    ∧ (stale [] none).recheck.inFlight = none ∧ (stale [] none).recheck.queue = [] ∧ (stale [] none).recheck.scanPending = true
    ∧ (stale [] none).recheck.scanPos = none ∧ (stale [] none).store.staleAbove? 0 = some 2 := by decide

/-- A Re-check unit with an entry, at rest, and in each place of a scan. -/
def scanning (pos : Option Nat) : State :=
  { withLines [lineOf 1 .planned .stale] with
    recheck := { State.reset.recheck with scanPending := true, scanPos := pos, backlog := true } }

theorem test_meets_CheckStartTakesWork : ({ planned with recheck := { planned.recheck with queue := [1] } } : State).recheck.queue = [1]
    ∧ planned.recheck.queue = [] ∧ planned.recheck.scanPending = false ∧ planned.recheck.inFlight = none
    ∧ (scanning none).recheck.scanPos = none ∧ (scanning none).store.staleAbove? 0 = some 1 ∧ (scanning (some 0)).store.staleAbove? 0 = some 1
    ∧ (scanning (some 1)).store.staleAbove? 1 = none ∧ (scanning (some 1)).recheck.again = false
    ∧ (backlogged planned).recheck.scanPending = true ∧ (backlogged planned).recheck.scanPos = none
    ∧ (backlogged planned).store.staleAbove? 0 = none ∧ (backlogged planned).recheck.backlog = true := by decide
/-- A pass to be repeated begins again; one that begins with no STALE line ends. -/
theorem test_scan_again_and_over :
    let again := after .checkStart { scanning (some 1) with recheck := { (scanning (some 1)).recheck with again := true } }
    let past := after .checkStart (backlogged planned)
    again.recheck.scanPos = some 1 ∧ again.recheck.again = false ∧ again.recheck.inFlight.isSome = true
      ∧ past.recheck.scanPending = false ∧ past.recheck.backlog = false ∧ EventKind.swept ∈ past.cab.events ∧ EventKind.backlog ∈ past.plan.events := by
  decide

/-- A check of line 1 in flight. -/
def checking (discard : Bool) (s : State) : State :=
  { s with recheck := { s.recheck with inFlight := some { id := 1, discard := discard, origin := .queue, check := CheckRun.begun } } }

theorem test_meets_RecheckCompletionWritesTheResult : (checking true planned).running = true ∧ (checking true planned).recheck.inFlight.isSome = true
    ∧ (checking false planned).line? 1 = some (lineOf 1 .planned .checked)
    ∧ CheckRun.begun.result planned.store (lineOf 1 .planned .checked).subject = none
    ∧ (CheckRun.begun.result State.reset.store (lineOf 1 .planned .checked).subject).isSome = true
    ∧ (checking false planned).recheck.queue = [] ∧ (checking false planned).recheck.scanPending = false := by decide

/-- A check of line 1 that ends with line 1 STALE and line 2 in a status, under a pass at a place. -/
def finishing (o : Origin) (discard : Bool) (pos : Option Nat) (again : Bool) (q : List Nat) (c : CheckStatus) : State :=
  { withLines [lineOf 1 .planned .stale, lineOf 2 .planned c] with
    recheck := { queue := q, inFlight := some { id := 1, discard := discard, origin := o, check := CheckRun.begun }
                 scanPending := true, scanPos := pos, again := again, backlog := true } }
theorem test_meets_RecheckCompletionWritesTheResult_next : ∀ o ∈ [Origin.queue, .scan],
    let t := fun (discard : Bool) (pos : Option Nat) (again : Bool) (c : CheckStatus) =>
      after .recheckCompletion (finishing o discard pos again [] c)
    (t false (some 1) true .stale).store.staleAbove? 1 = some 2 ∧ (t false (some 1) true .stale).recheck.inFlight.map (fun f => f.id) = some 2
      ∧ (t false (some 1) false .checked).store.staleAbove? 1 = none ∧ EventKind.swept ∈ (t false (some 1) false .checked).cab.events
      ∧ (t true (some 1) true .checked).store.staleAbove? 1 = none ∧ (t true (some 1) true .checked).store.staleAbove? 0 = some 1
      ∧ (t true (some 1) true .checked).recheck.again = false
      ∧ (t false (some 1) true .checked).store.staleAbove? 0 = none ∧ (t false (some 1) true .checked).recheck.scanPending = false
      ∧ (t false none false .stale).store.staleAbove? 0 = some 2 ∧ (t false none false .checked).store.staleAbove? 0 = none
      ∧ (after .recheckCompletion (finishing o false (some 1) true [2] .stale)).recheck.inFlight.map (fun f => f.origin) = some .queue := by decide

/-- A frame in collection after its first bytes, with the clock at the gap and before it. -/
def collecting (n : Nat) (time : Nat) : State :=
  { planned with time := time, link := { planned.link with framing := .collecting ((frame 0 0).bytes.take n) 0 } }

theorem test_meets_LinkCollectsAndJudgesFrames : planned.link.framing = .hunting ∧ (collecting 5 2).link.framing = .collecting [0xC3, 37, 0, 0, 0] 0
    ∧ (5 : Byte) ≠ 37 ^^^ 0 ^^^ 0 ^^^ 0 ^^^ 0x5A ∧ (0x79 : Byte) ≠ 37 ^^^ 0 ^^^ 0 ^^^ 0 ^^^ 0x5A
    ∧ (3 : Byte).getLsbD 0 = true ∧ (3 : Byte).getLsbD 1 = true ∧ ((0 : Byte) ++ (121 : Byte)).toInt = 121 ∧ ((0 : Byte) ++ (120 : Byte)).toInt = 120
    ∧ ((255 : Byte) ++ (136 : Byte)).toInt = -120 ∧ (4 : Byte).getLsbD 2 = true ∧ ((frame 0 0).bytes.take 1).length < 5
    ∧ 0 + 2 ≤ (collecting 3 2).time ∧ (collecting 3 1).time < 0 + 2 := by decide
theorem test_meets_LinkCollectsAndJudgesFrames_unmatched (n : StationId) (d : StationData) (h : planned.store.stations.get n = .inService d) :
    planned.settings.sigMask &&& d.signature ≠ planned.settings.sigMask &&& 38 := by
  cases n <;> simp [planned, withLines, State.reset, Store.reset, Six.all, Six.set, Six.get] at h
  subst h; decide

/-- A stopped run at a chainage, with a strike of the serving station at time 0. -/
def stopped (c : Int) (retie : Bool) (now : Nat) : State :=
  let r : RunContext := { ctx (.suspended .operator) with retie := retie }
  { withLines [lineOf 1 (.active r none) .checked] with
    time := now
    chain := { State.reset.chain with known := !retie, position := c * 1000 }
    eval := { State.reset.eval with serving := if retie then none else some 0 }
    link := { State.reset.link with live := State.reset.link.live.set .s2 { last := some { time := 0, reading := .offset 0 }, accepted := 1 } } }

theorem test_meets_AcceptedStrikeIsRecorded : planned.running = true ∧ planned.frameFits (frame 0 120) = true ∧ (frame 0 120).isBad = false
    ∧ (frame 0 121).isBad = true ∧ (frame 0 120).receiverFault = false ∧ planned.store.matchStation? 37 = some .s2 ∧ planned.runState? = none
    ∧ armed.runState? = some .armed ∧ armed.run.wait = none ∧ armed.store.matchStation? 37 = some .s2
    ∧ (stopped 0 true 0).chain.known = false ∧ (stopped 0 true 0).run.wait = none
    ∧ (stopped 0 false 0).active? = some (lineOf 1 (.active (ctx (.suspended .operator)) none) .checked)
    ∧ (stopped 0 false 0).chain.known = true ∧ (stopped 0 false 0).eval.serving = some 0 ∧ (ctx (.suspended .operator)).state.isStopped = true
    ∧ (stopped 0 false 0).run.wait = none ∧ (frame 0 120).reading = .offset 120 ∧ (frame 1 0).reading = .edgeHigh := by decide

/-- A run under station 4, with span 1 of station 2 from 10000 mm on, at the first chainage of the handoff zone, one below it, the last, and the
span's start; the reference is as old as STRIKE_TIMEOUT allows. -/
def handing (c : Int) (now : Nat) : State :=
  let far : Span := { span0 with start := 10000, plane := 410 }
  let r : RunContext := { ctx .cutting with furthest := some 10000 }
  { withLines [{ lineOf 1 (.active r none) .checked with spans := [{ span0 with station := .s4 }, far] }] with
    time := now
    chain := { State.reset.chain with known := true, position := c * 1000 }
    run := { State.reset.run with timer := some 1600 }
    eval := { State.reset.eval with serving := some 0, reference := some { offset := 0, chainage := c, time := 0 } } }

theorem test_meets_AcceptedStrikeIsRecorded_handoff : (handing 8000 800).digging = true ∧ (handing 8000 800).chain.known = true
    ∧ (handing 8000 800).servingStation? = some .s4 ∧ (handing 8000 800).nextSpan?.map (fun y => (y.start, y.station)) = some (10000, .s2)
    ∧ (handing 8000 800).settings.handoffLen = 2000 ∧ (handing 7999 800).chainage < 10000 - 2000 ∧ (handing 9999 0).chainage < 10000
    ∧ ¬(handing 10000 0).chainage < 10000 ∧ (handing 8000 800).time - 0 ≤ (handing 8000 800).settings.strikeTimeout.toNat
    ∧ (handing 8000 800).settings.handoffTol = 25 ∧ (handing 8000 801).settings.strikeTimeout.toNat < (handing 8000 801).time - 0
    ∧ (after (strike 0 25) (handing 8000 800)).runState? = some .cutting ∧ (after (strike 0 26) (handing 8000 800)).runState? = some (.halted .handoff)
    ∧ (after (strike 0 26) (handing 8000 801)).runState? = some .cutting ∧ (after (strike 0 26) (handing 7999 800)).link.foreign = 1
    ∧ (after (strike 1 0) (handing 8000 800)).runState? = some .cutting := by decide

/-- A strike of the serving station, in tolerance, out of tolerance, and at an edge, while CUTTING and while COASTING. -/
theorem test_meets_EvaluationDrivesTheBoom : ∀ x ∈ [RunState.cutting, .coasting],
    (running x none).running = true ∧ (running x none).frameFits (frame 0 0) = true ∧ (frame 0 0).isBad = false ∧ (frame 1 0).isBad = false
      ∧ (frame 0 0).receiverFault = false ∧ (running x none).store.matchStation? (frame 0 0).signature = some .s2
      ∧ (running x none).active? = some (lineOf 1 (.active (ctx x) none) .checked) ∧ (ctx x).state = x ∧ (running x none).chain.known = true
      ∧ (running x none).servingSpan? = some span0 ∧ span0.station = .s2 ∧ 1 ≤ (running x none).settings.gradeCount
      ∧ (frame 0 0).reading = .offset 0 ∧ (frame 1 0).reading = .edgeHigh ∧ (frame 2 0).reading = .edgeLow
      ∧ measuredAt (running x none).store span0 0 0 - targetAt (running x none).store (lineOf 1 (.active (ctx x) none) .checked) (ctx x) 0 = 0 := by decide

theorem test_meets_StrikeEndsTheWait : (waiting .tie (.tie .cab []) armed).run.wait.map (fun x => x.kind) = some .tie
    ∧ (waiting .tie (.tie .cab []) armed).frameFits (frame 0 15) = true ∧ (frame 0 15).isBad = false ∧ (frame 0 15).receiverFault = false
    ∧ (waiting .tie (.tie .cab []) armed).store.matchStation? (frame 0 15).signature = some .s2
    ∧ (waiting .tie (.tie .cab []) armed).active? = some (lineOf 1 (.active (ctx .armed) none) .checked)
    ∧ (lineOf 1 (.active (ctx .armed) none) .checked).spans.head? = some span0
    ∧ (waiting .tie (.tie .cab []) armed).cab.hand = .waiting (.tie .cab [])
    ∧ measuredAt armed.store span0 0 15 - (invertAt pts 0 - trimAt (ctx .armed) 5000 0) = -15
    ∧ measuredAt armed.store span0 0 16 - (invertAt pts 0 - trimAt (ctx .armed) 5000 0) = -16 ∧ armed.settings.tieTol = 15
    ∧ (waiting .retie (.retie .cab [w "0"]) (running (.suspended .power) none)).run.wait.map (fun x => x.kind) = some .retie
    ∧ (ctx (.suspended .power)).state.isStopped = true ∧ [span0][spanIndex [span0] 0]? = some span0
    ∧ (waiting .retie (.retie .cab [w "0"]) (running (.suspended .power) none)).cab.hand = .waiting (.retie .cab [w "0"])
    ∧ (running (.suspended .power) none).chain.known = true ∧ (running (.suspended .power) none).servingStation? = some .s2 := by decide

/-- Counts in every run state: unknown chainage, within a millimetre, over one, and at the bound of the position. -/
theorem test_meets_OdometerDecodesTransitions : planned.running = true ∧ planned.chain.known = false
    ∧ (running (.suspended .operator) none).chain.known = true ∧ (running (.suspended .operator) none).digging = false
    ∧ Int.tdiv (0 + 2500) 1000 ≠ (running (.suspended .operator) none).chainage
    ∧ ¬(-2400000000 ≤ (2400000000 + 2500 : Int) ∧ (2400000000 + 2500 : Int) ≤ 2400000000)
    ∧ Int.tdiv (0 + 500) 1000 = (running .cutting none).chainage := by decide

/-- Line 1 with an inner breakpoint at 20 m, its first segment OPEN, and the run of it with F, the odometer at a position, a staged revision and
the end-warning flag. -/
def bent : List Point := [{ chainage := 0, invert := -1500 }, { chainage := 20000, invert := -1480 }, { chainage := 50000, invert := -1450 }]
def opening : Closure := { state := .opened, worst := 0, edge := false, grade := false, coasted := 0 }
def bentLine (r : RunContext) (st : Option Staged) : Line :=
  { lineOf 1 (.active r st) .checked with
    profile := bent.map (fun q => { point := q, closure := if q.chainage = 0 then some opening else none }) }
def ctxAt (x : RunState) (f : Int) : RunContext := { ctx x with furthest := some f }
def digging (r : RunContext) (st : Option Staged) (position : Int) : State :=
  { withLines [bentLine r st] with
    chain := { State.reset.chain with known := true, position := position }
    run := { State.reset.run with timer := if r.state = .cutting then some 800 else none }
    eval := { State.reset.eval with serving := some 0 } }

/-- A count to one below F − BACKUP, to F − BACKUP, to F, and one above F with no point near. -/
theorem test_meets_AdvanceMovesF : ∀ x ∈ [RunState.cutting, .coasting],
    (digging (ctxAt x 2000) none 502000).digsTo .b (bentLine (ctxAt x 2000) none) (ctxAt x 2000) 2000 499500
      ∧ Int.tdiv 499500 1000 < 2000 - (digging (ctxAt x 2000) none 502000).settings.backup
      ∧ (digging (ctxAt x 2000) none 502500).digsTo .b (bentLine (ctxAt x 2000) none) (ctxAt x 2000) 2000 500000
      ∧ 2000 - (digging (ctxAt x 2000) none 502500).settings.backup ≤ Int.tdiv 500000 1000
      ∧ (digging (ctxAt x 2000) none 1997500).digsTo .a (bentLine (ctxAt x 2000) none) (ctxAt x 2000) 2000 2000000
      ∧ Int.tdiv 2000000 1000 ≤ 2000
      ∧ (digging (ctxAt x 2000) none 2000000).digsTo .a (bentLine (ctxAt x 2000) none) (ctxAt x 2000) 2000 2002500
      ∧ 2000 < Int.tdiv 2002500 1000 ∧ Int.tdiv 2002500 1000 < (bentLine (ctxAt x 2000) none).length
      ∧ (bentLine (ctxAt x 2000) none).noCrossing 2000 (Int.tdiv 2002500 1000) ∧ (ctxAt x 2000).mark1 = none ∧ (ctxAt x 2000).mark2 = none
      ∧ (digging (ctxAt x 2000) none 2000000).noWarning (bentLine (ctxAt x 2000) none) (Int.tdiv 2002500 1000)
      ∧ 0 ≤ (digging (ctxAt x 2000) none 502000).settings.backup
      ∧ (digging (ctxAt x 2000) none 2000000).eval.serving = some (spanIndex [span0] (Int.tdiv 2002500 1000)) := by
  intro x hx
  have hx' : x = .cutting ∨ x = .coasting := by simpa using hx
  rcases hx' with rfl | rfl
  all_goals (repeat' apply And.intro)
  all_goals decide

/-- A count over a span start at or below F, with and without a strike of the new station, as old as STRIKE_TIMEOUT allows. -/
def switching (x : RunState) (struck : Bool) (now : Nat) : State :=
  let next : Span := { span0 with start := 1000, station := .s4 }
  { digging (ctxAt x 2000) none 997500 with
    time := now
    store := { (digging (ctxAt x 2000) none 997500).store with lines := [{ bentLine (ctxAt x 2000) none with spans := [span0, next] }] }
    link := { State.reset.link with live :=
      if struck then State.reset.link.live.set .s4 { last := some { time := 0, reading := .edgeLow }, accepted := 1 } else State.reset.link.live } }
theorem test_meets_AdvanceMovesF_switch : ∀ x ∈ [RunState.cutting, .coasting],
    (switching x true 800).digsTo .a { bentLine (ctxAt x 2000) none with spans := [span0, { span0 with start := 1000, station := .s4 }] }
        (ctxAt x 2000) 2000 1000000
      ∧ (switching x true 800).eval.serving ≠ some (spanIndex [span0, { span0 with start := 1000, station := .s4 }] (Int.tdiv 1000000 1000))
      ∧ (switching x true 800).lastStrike? .s4 = some { time := 0, reading := .edgeLow }
      ∧ (switching x true 800).time - 0 ≤ (switching x true 800).settings.strikeTimeout.toNat
      ∧ (switching x true 801).settings.strikeTimeout.toNat < (switching x true 801).time - 0 ∧ (switching x false 0).lastStrike? .s4 = none
      ∧ 0 < (switching x true 800).settings.coastLimit ∧ (after (.odoValidTransition .a) (switching x true 800)).runState? = some x
      ∧ (after (.odoValidTransition .a) (switching x false 0)).runState? = some .coasting := by decide

/-- A count over F and over a span start, with no point near. -/
def passing (x : RunState) (struck : Bool) (now : Nat) (limit : Int) : State :=
  let s := switching x struck now
  { s with
    chain := { s.chain with position := 2000000 }
    store := { s.store with
      lines := [{ bentLine (ctxAt x 2000) none with spans := [span0, { span0 with start := 2001, station := .s4 }] }]
      settings := { s.store.settings with coastLimit := limit } } }
theorem test_meets_AdvanceMovesF_forward_switch : ∀ x ∈ [RunState.cutting, .coasting], ∀ struck ∈ [false, true], ∀ limit ∈ [(0 : Int), 3000],
    let l := { bentLine (ctxAt x 2000) none with spans := [span0, { span0 with start := 2001, station := .s4 }] }
    (passing x struck 800 limit).digsTo .a l (ctxAt x 2000) 2000 2002500 ∧ Int.tdiv 2002500 1000 = 2002 ∧ spanIndex l.spans 2002 = 1
      ∧ (passing x struck 800 limit).noPoint l (ctxAt x 2000) 2000 2002 := by
  intro x hx struck hs limit hl
  have hx' : x = .cutting ∨ x = .coasting := by simpa using hx
  have hs' : struck = false ∨ struck = true := by cases struck <;> simp
  have hl' : limit = 0 ∨ limit = 3000 := by simpa using hl
  rcases hx' with rfl | rfl <;> rcases hs' with rfl | rfl <;> rcases hl' with rfl | rfl
  all_goals (repeat' apply And.intro)
  all_goals first
    | decide
    | exact fun m h => (by rcases h with h | h <;> cases h)
theorem test_meets_servesWith :
    let l := { bentLine (ctxAt .cutting 2000) none with spans := [span0, { span0 with start := 2001, station := .s4 }] }
    let serves := fun (s : State) (r : RunContext) (k : Nat) (r' : RunContext) => ∃ b, (s.movedTo .a 2002500).servesWith l r k b r'
    serves (passing .cutting false 800 0) (ctxAt .cutting 2000) 0 (ctxAt .cutting 2000)
      ∧ serves (passing .coasting false 800 0) (ctxAt .coasting 2000) 1 (ctxAt .coasting 2000)
      ∧ serves (passing .cutting true 800 0) (ctxAt .cutting 2000) 1 (ctxAt .cutting 2000)
      ∧ serves (passing .cutting false 800 3000) (ctxAt .cutting 2000) 1 (ctxAt .coasting 2000)
      ∧ serves (passing .cutting true 801 3000) (ctxAt .cutting 2000) 1 (ctxAt .coasting 2000)
      ∧ serves (passing .cutting true 801 0) (ctxAt .cutting 2000) 1 (ctxAt (.halted .coast) 2000) := by
  have old : ∀ now limit y, (((passing .cutting true now limit).movedTo .a 2002500).lastStrike? .s4 = some y) → y.time = 0 := by
    intro now limit y h
    have : ((passing .cutting true now limit).movedTo .a 2002500).lastStrike? .s4 = some { time := 0, reading := .edgeLow } := rfl
    rw [this] at h
    cases h; rfl
  refine ⟨⟨_, .inl ⟨rfl, rfl, rfl⟩⟩, ⟨_, .inr (.inl ⟨by decide, rfl, rfl, rfl⟩)⟩,
    ⟨_, .inr (.inr ⟨by decide, rfl, _, rfl, .inl ⟨{ time := 0, reading := .edgeLow }, rfl, by decide, rfl, rfl⟩⟩)⟩,
    ⟨_, .inr (.inr ⟨by decide, rfl, _, rfl, .inr ⟨fun y h => (by cases h), .inl ⟨by decide, rfl, rfl⟩⟩⟩)⟩,
    ⟨_, .inr (.inr ⟨by decide, rfl, _, rfl, .inr ⟨fun y h => ?_, .inl ⟨by decide, rfl, rfl⟩⟩⟩)⟩,
    ⟨_, .inr (.inr ⟨by decide, rfl, _, rfl, .inr ⟨fun y h => ?_, .inr ⟨by decide, rfl, rfl⟩⟩⟩)⟩⟩
  · rw [old _ _ y h]; decide
  · rw [old _ _ y h]; decide
theorem test_forward_switch :
    let t := fun (x : RunState) (struck : Bool) (limit : Int) => after (.odoValidTransition .a) (passing x struck 800 limit)
    (t .cutting true 3000).run.timer = some 800 ∧ (t .cutting true 3000).runState? = some .cutting
      ∧ (t .cutting false 3000).runState? = some .coasting ∧ (t .cutting false 3000).run.coast = 0
      ∧ (t .cutting false 0).runState? = some (.halted .coast) ∧ (t .cutting false 0).furthest? = some 2002
      ∧ (t .coasting true 3000).run.coast = 2 ∧ (t .coasting true 3000).eval.serving = some 1 := by decide

/-- A count from 19998 mm to the breakpoint at 20 m, with a mark there or none. -/
def crossing (x : RunState) (m : Option Mark) (st : Option Staged) : State := digging { ctxAt x 19998 with mark1 := m } st 19998000
def settledSame : Staged := { profile := bent, spans := [span0], settled := true, base := 0 }
def settledMoved : Staged := { settledSame with profile := bent.map (fun q => { q with invert := q.invert - 1 }) }

theorem test_meets_WalkMeetsItsPoints_crossing : ∀ x ∈ [RunState.cutting, .coasting],
    (crossing x none none).digsTo .a (bentLine (ctxAt x 19998) none) (ctxAt x 19998) 19998 20000500
      ∧ 19998 < Int.tdiv 20000500 1000 ∧ (crossing x none none).eval.serving = some (spanIndex [span0] (Int.tdiv 20000500 1000))
      ∧ (bentLine (ctxAt x 19998) none).profile[1]? = some { point := { chainage := 20000, invert := -1480 }, closure := none }
      ∧ Int.tdiv 20000500 1000 = 20000 ∧ 20000 < (bentLine (ctxAt x 19998) none).length
      ∧ (crossing x none none).noWarning (bentLine (ctxAt x 19998) none) 20000
      ∧ meetsFreeze (crossing x none (some settledSame)).store (bentLine (ctxAt x 19998) (some settledSame)) (some 20000) bent [span0] = true
      ∧ meetsFreeze (crossing x none (some settledMoved)).store (bentLine (ctxAt x 19998) (some settledMoved)) (some 20000) settledMoved.profile
          [span0] = false
      ∧ (∀ q ∈ bent, q.chainage ≤ 20000 ∨ 20000 < q.chainage) ∧ lengthOf bent = (bentLine (ctxAt x 19998) none).length
      ∧ (crossing x none (some settledSame)).marksLine (.parent 1) (bentLine (ctxAt x 19998) (some settledSame)) = false := by
  intro x hx
  have hx' : x = .cutting ∨ x = .coasting := by simpa using hx
  rcases hx' with rfl | rfl
  all_goals (repeat' apply And.intro)
  all_goals decide

/-- An application that brings the end-warning point to the crossing leaves ENDNEAR to the next advance; one that keeps the length with the
point there does not. -/
def shortened : Staged :=
  { settledSame with profile := [{ chainage := 0, invert := -1500 }, { chainage := 20000, invert := -1480 }, { chainage := 25000, invert := -1475 }] }
def applying (st : Staged) (endWarn : Int) : State :=
  let s := crossing .cutting none (some st)
  { s with store := { s.store with settings := { s.store.settings with freezeLead := 0, endWarn := endWarn } } }
theorem test_end_warning_after_application :
    let t := after (.odoValidTransition .a) (applying shortened 5000)
    let u := after (.odoValidTransition .b) t
    let v := after (.odoValidTransition .a) (applying settledSame 30000)
    t.active?.map (fun l => l.length) = some 25000 ∧ EventKind.revised ∈ t.cab.events ∧ EventKind.endnear ∉ t.cab.events
      ∧ t.chain.endWarned = false ∧ EventKind.endnear ∈ u.cab.events ∧ u.chain.endWarned = true
      ∧ EventKind.revised ∈ v.cab.events ∧ EventKind.endnear ∈ v.cab.events ∧ v.chain.endWarned = true := by decide
theorem test_meets_WalkMeetsItsPoints_applies : ∀ e ∈ [(5000 : Int), 4998],
    meetsFreeze (applying shortened e).store (bentLine (ctxAt .cutting 19998) (some shortened)) (some 20000) shortened.profile [span0] = true
      ∧ (∀ q ∈ shortened.profile, q.chainage ≤ 20000 ∨ 20000 < q.chainage) ∧ 20000 < lengthOf shortened.profile
      ∧ (20000 < lengthOf shortened.profile - e ∨ lengthOf shortened.profile - e ≤ 20000) := by decide

/-- A mark one above F and one at the new F, on the straight of the line; and a walk that enters a segment and is suspended there. -/
theorem test_meets_WalkMeetsItsPoints_mark : ∀ x ∈ [RunState.cutting, .coasting], ∀ c ∈ [(2001 : Int), 2002],
    let m : Mark := { chainage := c, suspends := true }
    let r := { ctxAt x 2000 with mark1 := some m }
    (digging r none 2000000).digsTo .a (bentLine r none) r 2000 2002500 ∧ (2000 : Int) < m.chainage ∧ m.chainage ≤ Int.tdiv 2002500 1000
      ∧ Int.tdiv 2002500 1000 < (bentLine r none).length ∧ (bentLine r none).noCrossing 2000 (Int.tdiv 2002500 1000) ∧ r.mark2 = none
      ∧ (digging r none 2000000).noWarning (bentLine r none) (Int.tdiv 2002500 1000) := by decide
theorem test_walk_order :
    let t := after (.odoValidTransition .a) (crossing .cutting (some { chainage := 20000, suspends := true }) none)
    t.runState? = some (.suspended .mark) ∧ t.furthest? = some 20000
      ∧ (t.active?.bind (fun l => l.profile[1]?)).bind (fun b => b.closure) = some opening ∧ t.permit = false := by decide

/-- The end-warning point at the new F and at the old F, and the length at the new F. -/
def ending (x : RunState) (f : Int) (warned : Bool) : State :=
  { digging (ctxAt x f) none (f * 1000) with chain := { State.reset.chain with known := true, position := f * 1000, endWarned := warned } }
theorem test_meets_WalkMeetsItsPoints_end : ∀ x ∈ [RunState.cutting, .coasting], ∀ f ∈ [(44998 : Int), 45000],
    (ending x f false).digsTo .a (bentLine (ctxAt x f) none) (ctxAt x f) f (f * 1000 + 2500)
      ∧ (ending x f false).chain.endWarned = false
      ∧ (bentLine (ctxAt x f) none).length - (ending x f false).settings.endWarn ≤ Int.tdiv (f * 1000 + 2500) 1000
      ∧ Int.tdiv (f * 1000 + 2500) 1000 < (bentLine (ctxAt x f) none).length
      ∧ (bentLine (ctxAt x f) none).noCrossing f (Int.tdiv (f * 1000 + 2500) 1000)
      ∧ (ending x 49998 true).digsTo .a (bentLine (ctxAt x 49998) none) (ctxAt x 49998) 49998 50000500
      ∧ (49998 : Int) < (bentLine (ctxAt x 49998) none).length ∧ (bentLine (ctxAt x 49998) none).length ≤ Int.tdiv 50000500 1000 := by
  intro x hx
  have hx' : x = .cutting ∨ x = .coasting := by simpa using hx
  rcases hx' with rfl | rfl
  all_goals
    intro f hf
    have hf' : f = 44998 ∨ f = 45000 := by simpa using hf
    rcases hf' with rfl | rfl
  all_goals (repeat' apply And.intro)
  all_goals decide

theorem test_meets_SelectArmsTheRun : planned.ready .cab (.select .cab [w "1"]) ∧ number? (w "1") = some ((1 : Nat) : Int) ∧ planned.context? = none
    ∧ armed.context? ≠ none ∧ planned.line? 999 = none ∧ planned.line? 1 = some (lineOf 1 .planned .checked)
    ∧ (lineOf 1 .planned .checked).lifecycle.kind = .planned ∧ (lineOf 1 .planned .checked).status = .checked
    ∧ (lineOf 1 .planned .checked).parent? = none ∧ planned.holder? 1 = none ∧ planDraft.holder? 1 = some .plan
    ∧ complete.context? = none ∧ (lineOf 1 .complete .checked).lifecycle.kind ≠ .planned := by decide

theorem test_meets_RunEndsWithItsLine_staged : (withLines [lineOf 1 (.active (ctx .armed) (some sameLists)) .checked]).ready .cab (.abandon .cab [])
    ∧ (withLines [lineOf 1 (.active (ctx .armed) (some sameLists)) .checked]).active?
        = some (lineOf 1 (.active (ctx .armed) (some sameLists)) .checked) := by decide
theorem test_meets_RunEndsWithItsLine : armed.active? = some (lineOf 1 (.active (ctx .armed) none) .checked) ∧ armed.ready .cab (.deselect .cab [])
    ∧ armed.ready .cab (.abandon .cab []) ∧ (lineOf 1 (.active (ctx .armed) none) .checked).run? = some (ctx .armed)
    ∧ (lineOf 1 (.active (ctx .armed) none) .checked).staged? = none
    ∧ (lineOf 1 (.active (ctx .armed) (some sameLists)) .checked).staged? ≠ none
    ∧ (running .cutting none).ready .cab (.abandon .cab []) ∧ (ctx (.halted .grade)).state.isStopped = true := by decide

theorem test_meets_WaitsAreSetUpAndExpire : armed.ready .cab (.tie .cab []) ∧ armed.active? = some (lineOf 1 (.active (ctx .armed) none) .checked)
    ∧ (lineOf 1 (.active (ctx .armed) none) .checked).spans.head? = some span0
    ∧ (running (.halted .coast) none).ready .cab (.retie .cab [w "-1500"]) ∧ number? (w "-1500") = some (-1500) ∧ number? (w "-1501") = some (-1501)
    ∧ (running (.halted .coast) none).ready .cab (.retie .cab [w "-1501"]) ∧ (ctx (.halted .coast)).furthest = some 0
    ∧ [span0][spanIndex [span0] (-1501)]? = some span0 ∧ (running (.halted .coast) none).settings.backup = 1500
    ∧ (waiting .tie (.tie .cab []) armed).run.wait.map (fun x => x.deadline) = some 800
    ∧ (800 : Nat) ≤ ({ waiting .tie (.tie .cab []) armed with time := 800 } : State).time
    ∧ ({ waiting .tie (.tie .cab []) armed with time := 799 } : State).time < 800 := by decide

theorem test_meets_SuspendStopsTheRun : planned.ready .plan (.suspend .plan [w "x"]) ∧ armed.ready .plan (.suspend .plan [])
    ∧ armed.runState? ≠ some .cutting ∧ armed.runState? ≠ some .coasting ∧ (running .cutting none).ready .plan (.suspend .plan [])
    ∧ (running .cutting none).runState? = some .cutting ∧ (running .coasting none).runState? = some .coasting := by decide

theorem test_meets_StrikeTimerCoasts : (running .cutting none).running = true ∧ (running .cutting none).runState? = some .cutting
    ∧ (running .cutting none).run.timer = some 800 ∧ ({ running .cutting none with time := 799 } : State).time < 800
    ∧ 800 ≤ ({ running .cutting none with time := 800 } : State).time ∧ 0 < (running .cutting none).settings.coastLimit
    ∧ ({ (running .cutting none).settings with coastLimit := 0 } : Settings).coastLimit ≤ 0 := by decide

theorem test_meets_ResumeCutsAgain : (stopped 0 false 800).ready .cab (.resume .cab [])
    ∧ (stopped 0 false 800).active? = some (lineOf 1 (.active (ctx (.suspended .operator)) none) .checked)
    ∧ (ctx (.suspended .operator)).state.isStopped = true ∧ (ctx (.suspended .operator)).furthest = some 0 ∧ (ctx .armed).state.isStopped = false
    ∧ (stopped 0 true 0).context?.map (fun r => r.retie) = some true ∧ (stopped (-1501) false 0).chainage < 0 - (stopped 0 false 0).settings.backup
    ∧ 0 - (stopped 0 false 0).settings.backup ≤ (stopped (-1500) false 0).chainage ∧ 0 + 200 < (stopped 201 false 0).chainage
    ∧ (stopped 200 false 0).chainage ≤ 0 + 200 ∧ 0 < (stopped 200 false 0).chainage ∧ (stopped 1 false 800).chainage = 1
    ∧ (lineOf 1 (.active (ctx (.suspended .operator)) none) .checked).noCrossing 0 200 ∧
    (stopped 200 false 0).noWarning (lineOf 1 (.active (ctx (.suspended .operator)) none) .checked) 200 ∧ (stopped 0 false 800).servingStation? = some .s2
    ∧ (stopped 0 false 800).lastStrike? .s2 = some { time := 0, reading := .offset 0 }
    ∧ (stopped 0 false 800).time - 0 ≤ (stopped 0 false 800).settings.strikeTimeout.toNat
    ∧ (stopped 0 false 801).settings.strikeTimeout.toNat < (stopped 0 false 801).time - 0 := by decide

/-- A RESUME one above F with a mark there, one at a breakpoint, and one at the length, under the span that covers the chainage. -/
def resuming (f : Int) (m : Option Mark) : State :=
  let r := { ctxAt (.suspended .operator) f with mark1 := m }
  { digging r none ((f + 1) * 1000) with
    link := { State.reset.link with live := State.reset.link.live.set .s2 { last := some { time := 0, reading := .edgeLow }, accepted := 1 } } }
theorem test_meets_ResumeCutsAgain_walk : ∀ f ∈ [(2000 : Int), 19999, 49999], ∀ m ∈ [none, some { chainage := f + 1, suspends := true }],
    (resuming f m).ready .cab (.resume .cab []) ∧ (resuming f m).chainage = f + 1
      ∧ (resuming f m).eval.serving = some (spanIndex [span0] (f + 1)) ∧ (resuming f m).servingStation? = some .s2 := by
  decide
theorem test_resume_walk :
    (after (.resume .cab []) (resuming 2000 (some { chainage := 2001, suspends := true }))).runState? = some (.suspended .mark)
      ∧ (after (.resume .cab []) (resuming 19999 none)).furthest? = some 20000
      ∧ (after (.resume .cab []) (resuming 49999 none)).runState? = none
      ∧ ((after (.resume .cab []) (resuming 49999 none)).line? 1).map (fun l => l.lifecycle) = some .complete := by decide

theorem test_meets_MarkAndTrimSet : (running .cutting none).active? = some (lineOf 1 (.active (ctx .cutting) none) .checked)
    ∧ (running .cutting none).ready .cab (.mark .cab [w "2", w "49999", w "suspend"])
    ∧ markForm? [w "2", w "49999", w "suspend"] = some (.arm 2 49999 true) ∧ markForm? [w "1", w "off"] = some (.off 1)
    ∧ (running .cutting none).ready .cab (.mark .cab [w "1", w "off"]) ∧ armed.ready .cab (.trim .cab [w "50"]) ∧ number? (w "50") = some 50
    ∧ number? (w "51") = some 51 ∧ (ctx .armed).furthest = none ∧ (ctx .cutting).furthest = some 0 ∧ trimAt (ctx .cutting) 5000 0 = 0
    ∧ number? (w "-1") = some (-1) := by decide

theorem test_trim_before_tie : answers .cab "TRIM 8" "OK 8" armed = true := by decide

theorem test_meets_RevisionCommands : (running .cutting (some sameLists)).active? = some (lineOf 1 (.active (ctx .cutting) (some sameLists)) .checked)
    ∧ (lineOf 1 (.active (ctx .cutting) (some sameLists)) .checked).staged? = some sameLists
    ∧ (running .cutting (some sameLists)).ready .cab (.settle .cab []) ∧ (running .cutting (some sameLists)).digging = true
    ∧ (running .cutting (some sameLists)).ready .plan (.unsettle .plan []) ∧ (running .cutting (some sameLists)).ready .plan (.unstage .plan [])
    ∧ (running .cutting (some sameLists)).plan.claim ≠ some 1 ∧ (holding .plan 1 none (running .cutting (some sameLists))).plan.claim = some 1
    ∧ (running .cutting (some sameLists)).ready .cab (.unstage .cab []) := by decide

theorem test_meets_SettleAppliesAtOnce : ∀ st ∈ [sameLists, movedLists],
    (running (.suspended .operator) (some st)).ready .cab (.settle .cab []) ∧ (running (.suspended .operator) (some st)).digging = false
      ∧ (running (.suspended .operator) (some st)).active? = some (lineOf 1 (.active (ctx (.suspended .operator)) (some st)) .checked)
      ∧ meetsFreeze (running (.suspended .operator) (some st)).store (lineOf 1 (.active (ctx (.suspended .operator)) (some st)) .checked) (some 0)
          st.profile st.spans = decide (st = sameLists)
      ∧ (running (.suspended .operator) (some st)).store.idsAscending
      ∧ (running (.suspended .operator) (some st)).marksLine (.parent 1) (lineOf 1 (.active (ctx (.suspended .operator)) (some st)) .checked) = false := by
  decide

theorem test_meets_AckAndMask : State.reset.ready .cab (.ack .cab []) ∧ State.reset.ready .cab (.ack .cab [w "start", w "RUN"])
    ∧ eventKind? (w "start") = some .start ∧ isKeyword "ALL" (w "all") = true ∧ eventKind? (w "FOO") = none
    ∧ State.reset.ready .cab (.mask .cab [w "START", w "on"]) ∧ isKeyword "ON" (w "on") = true ∧ isKeyword "OFF" (w "off") = true := by decide

theorem test_meets_SetChangesASetting : State.reset.ready .cab (.set .cab [w "MIN_FALL", w "200"]) ∧ settingName? (w "MIN_FALL") = some .minFall
    ∧ settingValue? .minFall (w "200") = .good (.num 200) ∧ State.reset.settings.get .minFall ≠ .num 200
    ∧ State.reset.context? = none ∧ State.reset.digging = false ∧ State.reset.recheck.backlog = false ∧ armed.context? ≠ none
    ∧ State.reset.settings.get .minFall = .num 1000 ∧ (running .cutting none).digging = true
    ∧ settingValue? .backup (w "0") = .good (.num 0) ∧ State.reset.settings.get .backup ≠ .num 0
    ∧ settingValue? .trimRamp (w "20000") = .good (.num 20000) ∧ State.reset.settings.get .trimRamp ≠ .num 20000 := by decide
/-- Each refusal at a boundary: MAST equal to CLEAR_BAND, BACKUP one above the stored one, backlog on, and two signatures that a mask
makes equal. -/
theorem test_meets_SetChangesASetting_refused : settingValue? .mast (w "500") = .good (.num 500)
    ∧ settingValue? .clearBand (w "110") = .good (.num 110) ∧ (500 : Int) - 500 ≤ 0 ∧ (110 : Int) - 110 ≤ 0
    ∧ settingValue? .backup (w "1501") = .good (.num 1501) ∧ (running (.suspended .operator) none).settings.backup = 1500
    ∧ (running (.suspended .operator) none).furthest? = some 0 ∧ (running (.suspended .operator) none).digging = false
    ∧ (backlogged planned).recheck.backlog = true ∧ (backlogged planned).context? = none
    ∧ settingValue? .sigMask (w "1") = .good (.num 1)
    ∧ (37 : Byte) &&& BitVec.ofInt 8 1 = (165 : Byte) &&& BitVec.ofInt 8 1 := by decide
theorem test_set_refusals :
    let band : State := { State.reset with store := { State.reset.store with settings := { State.reset.settings with clearBand := 500 } } }
    let two : State := { planned with store := { planned.store with stations := planned.store.stations.set .s3 (.inService { data37 with signature := 165 }) } }
    answers .cab "SET MAST 500" "NO RANGE" band = true ∧ answers .cab "SET MAST 501" "OK" band = true
      ∧ answers .cab "SET BACKUP 1501" "NO STATE" (running (.suspended .operator) none) = true
      ∧ answers .cab "SET BACKUP 1500" "OK" (running (.suspended .operator) none) = true
      ∧ answers .cab "SET MIN_FALL 300" "NO BACKLOG" (backlogged planned) = true
      ∧ answers .cab "SET SIG_MASK 1" "NO COLLIDE" two = true ∧ answers .cab "SET SIG_MASK 128" "OK" two = true := by decide +kernel

theorem test_clear_ends_restart :
    let s := after (row .cab "RESTART") planned
    s.cab.hand ≠ .idle ∧ (after (row .plan "CLEARSTORE") s).cab.hand = .idle ∧ (after (row .plan "CLEARSTORE") s).store = Store.reset := by decide
theorem test_meets_RestartAndClearstore : ({ State.reset with powered := false } : State).powered = false ∧ State.reset.powered = true
    ∧ ({ State.reset with resetLow := true } : State).resetLow = true ∧ State.reset.resetLow = false ∧ State.reset.running = true
    ∧ State.reset.ready .plan (.restart .plan [])
    ∧ ((after (.restart .plan []) State.reset).port .plan).hand = .sending (some (.restart .plan [])) okReply
    ∧ armed.ready .plan (.clearstore .plan []) ∧ armed.context? ≠ none ∧ planned.context? = none := by decide

theorem test_meets_WordsAndPorts : planned.ready .plan (.tie .plan []) ∧ (number? (w "1")).isSome ∧ planned.ready .plan (.select .plan [w "1"])
    ∧ (markForm? [w "1", w "OFF"]).isSome ∧ planned.ready .plan (.mark .plan [w "1", w "OFF"]) ∧ planned.ready .cab (.clearstore .cab [])
    ∧ planned.ready .plan (.queue .plan [w "x"]) := by decide

theorem test_meets_OutputsFollowTheState : ({ State.reset with eval := { State.reset.eval with drive := 1000 } } : State).raisingCoil = 1500000
    ∧ ({ State.reset with eval := { State.reset.eval with drive := -1000 } } : State).loweringCoil = 1500000
    ∧ (running (.halted .coast) none).permit = false ∧ State.reset.attention .cab = true := by decide

end Sys2Proof.Tests
end

section
/-! PROOF. The draft rows (04, 4.1 and 4.3): what each row runs on a line that is ready, what the guards and the writers of a draft
give on the state that has taken it, and the statements about RELEASE, DISCARD, WINDOW, CUT, PUT, MORE, SPAN and HEAD. -/
namespace Sys2Proof.Machine

/-! ## What each row runs when its line is ready -/

section Rows
variable {p : Port} {args : List Text} {s : State}

theorem exec_release_ready (h : s.ready p (.release p args)) :
    exec (.release p args) s = .next (let t := s.taken p (.release p args)
      t.withNone p args (t.withClaim p (fun _ => (t.emptyClaim p).ok p))) :=
  congrArg _ (takeLine_ready _ h)

theorem exec_discard_ready (h : s.ready p (.discard p args)) :
    exec (.discard p args) s = .next (let t := s.taken p (.discard p args)
      t.withNone p args (t.withDraft p (fun _ => (t.updPort p (fun q => { q with draft := none })).ok p))) :=
  congrArg _ (takeLine_ready _ h)

theorem exec_window_ready {a b : Int} (h : s.ready p (.window p args)) (hn : numbers? args = some [a, b]) :
    exec (.window p args) s = .next ((s.taken p (.window p args)).setWindow p a b) := by
  show Host.Outcome.next _ = _
  rw [takeLine_ready _ h, hn]

theorem exec_cut_ready {n : Int} (h : s.ready p (.cut p args)) (hn : numbers? args = some [n]) :
    exec (.cut p args) s = .next ((s.taken p (.cut p args)).cutAt p n) := by
  show Host.Outcome.next _ = _
  rw [takeLine_ready _ h, hn]

theorem exec_put_ready (h : s.ready p (.put p args)) :
    exec (.put p args) s = .next ((s.taken p (.put p args)).putFrom p args (fun d => d.first)) :=
  congrArg _ (takeLine_ready _ h)

theorem exec_more_ready (h : s.ready p (.more p args)) :
    exec (.more p args) s = .next ((s.taken p (.more p args)).putFrom p args (fun d => d.cursor)) :=
  congrArg _ (takeLine_ready _ h)

theorem exec_span_ready_off {k : Int} (h : s.ready p (.span p args)) (hf : spanForm? args = some (.off k)) :
    exec (.span p args) s = .next ((s.taken p (.span p args)).setSpan p k none) := by
  show Host.Outcome.next _ = _
  rw [takeLine_ready _ h, hf]

theorem exec_span_ready_set {k start station plane slope : Int} {x : Span} (h : s.ready p (.span p args))
    (hf : spanForm? args = some (.set k start station plane slope)) (hx : spanOf? start station plane slope = some x) :
    exec (.span p args) s = .next ((s.taken p (.span p args)).setSpan p k (some x)) := by
  show Host.Outcome.next _ = _
  simp only [takeLine_ready _ h, hf, hx]

theorem exec_span_ready_no_span {k start station plane slope : Int} (h : s.ready p (.span p args))
    (hf : spanForm? args = some (.set k start station plane slope)) (hx : spanOf? start station plane slope = none) :
    exec (.span p args) s = .next ((s.taken p (.span p args)).withDraft p
      (fun _ => (s.taken p (.span p args)).no p .range)) := by
  show Host.Outcome.next _ = _
  simp only [takeLine_ready _ h, hf, hx]

theorem exec_headParent_ready {v : NumberOr} (h : s.ready p (.headParent p args)) (hv : headArg? args = some v) :
    exec (.headParent p args) s = .next ((s.taken p (.headParent p args)).setParent p v) := by
  show Host.Outcome.next _ = _
  rw [takeLine_ready _ h, hv]

theorem exec_headJunction_ready {v : NumberOr} (h : s.ready p (.headJunction p args)) (hv : headArg? args = some v) :
    exec (.headJunction p args) s = .next ((s.taken p (.headJunction p args)).setJunction p v) := by
  show Host.Outcome.next _ = _
  rw [takeLine_ready _ h, hv]

theorem exec_headLabel_ready_remove (h : s.ready p (.headLabel p args)) (hl : labelArg args = .remove) :
    exec (.headLabel p args) s = .next ((s.taken p (.headLabel p args)).withDraft p
      (fun d => ((s.taken p (.headLabel p args)).setDraft p { d with label := none }).ok p)) := by
  show Host.Outcome.next _ = _
  simp only [takeLine_ready _ h, hl]

theorem exec_headLabel_ready_set {w : Text} (h : s.ready p (.headLabel p args)) (hl : labelArg args = .set w) :
    exec (.headLabel p args) s = .next ((s.taken p (.headLabel p args)).withDraft p
      (fun d => ((s.taken p (.headLabel p args)).setDraft p { d with label := some w }).ok p)) := by
  show Host.Outcome.next _ = _
  simp only [takeLine_ready _ h, hl]

theorem exec_headLabel_ready_bad (h : s.ready p (.headLabel p args)) (hl : labelArg args = .bad) :
    exec (.headLabel p args) s = .next ((s.taken p (.headLabel p args)).no p .syn) := by
  show Host.Outcome.next _ = _
  simp only [takeLine_ready _ h, hl]

end Rows

/-! ## The guards: no argument, a holding slot, an open draft (R59, R65) -/

theorem State.withNone_nil (s : State) (p : Port) (k : State) : s.withNone p [] k = k := rfl

theorem State.withNone_of_ne_nil {args : List Text} (s : State) (p : Port) (k : State) (h : args ≠ []) :
    s.withNone p args k = s.no p .syn := by
  simp [State.withNone, h]

theorem State.withClaim_of_none {s : State} {p : Port} (k : Nat → State) (h : (s.port p).claim = none) :
    s.withClaim p k = s.no p .noclaim := by
  simp [State.withClaim, h]

theorem State.withClaim_of_some {s : State} {p : Port} {id : Nat} (k : Nat → State) (h : (s.port p).claim = some id) :
    s.withClaim p k = k id := by
  simp [State.withClaim, h]

theorem State.withDraft_of_no_claim {s : State} {p : Port} (k : Draft → State) (h : (s.port p).claim = none) :
    s.withDraft p k = s.no p .noclaim :=
  State.withClaim_of_none _ h

theorem State.withDraft_of_no_draft {s : State} {p : Port} (k : Draft → State) (hc : (s.port p).claim ≠ none)
    (hd : (s.port p).draft = none) : s.withDraft p k = s.no p .nodraft := by
  obtain ⟨id, hid⟩ := Option.ne_none_iff_exists'.mp hc
  rw [State.withDraft, State.withClaim_of_some _ hid, hd]

theorem State.withDraft_of_draft {s : State} {p : Port} {d : Draft} (k : Draft → State) (hc : (s.port p).claim ≠ none)
    (hd : (s.port p).draft = some d) : s.withDraft p k = k d := by
  obtain ⟨id, hid⟩ := Option.ne_none_iff_exists'.mp hc
  rw [State.withDraft, State.withClaim_of_some _ hid, hd]

/-! ## The taken state: its slot and draft are the port's, and a change of them is answered -/

@[simp] theorem State.taken_claim (s : State) (p : Port) (row : Instr) : ((s.taken p row).port p).claim = (s.port p).claim := by
  rw [State.port_taken]

@[simp] theorem State.taken_draft (s : State) (p : Port) (row : Instr) : ((s.taken p row).port p).draft = (s.port p).draft := by
  rw [State.port_taken]

theorem taken_setDraft_ok (s : State) (p : Port) (row : Instr) (d : Draft) (fs : List Field) :
    ((s.taken p row).setDraft p d).ok p fs
      = (s.answered p row (.ok fs)).updPort p (fun q => { q with draft := some d }) := by
  cases p <;> rfl

theorem taken_clearDraft_ok (s : State) (p : Port) (row : Instr) (fs : List Field) :
    ((s.taken p row).updPort p (fun q => { q with draft := none })).ok p fs
      = (s.answered p row (.ok fs)).updPort p (fun q => { q with draft := none }) := by
  cases p <;> rfl

theorem taken_emptyClaim_ok (s : State) (p : Port) (row : Instr) (fs : List Field) :
    ((s.taken p row).emptyClaim p).ok p fs
      = (s.answered p row (.ok fs)).updPort p (fun q => { q with claim := none, draft := none, lapse := none }) := by
  cases p <;> rfl

/-! ## RELEASE and DISCARD -/

/-- Settles O19: the guards in their order, then the change, which commutes with the reply. -/
theorem releaseAndDiscardEmpty : Obligations.ReleaseAndDiscardEmpty := by
  refine ⟨fun p args s h => ?release, fun p s h => ?discard⟩
  case release =>
    rw [exec_release_ready h]
    refine ⟨fun ha => ?_, fun ha hc => ?_, fun ha hc => ?_⟩
    · rw [State.withNone_of_ne_nil _ _ _ ha, taken_no]
    · subst ha
      rw [State.withNone_nil, State.withClaim_of_none _ (by simpa using hc), taken_no]
    · subst ha
      obtain ⟨id, hid⟩ := Option.ne_none_iff_exists'.mp hc
      rw [State.withNone_nil, State.withClaim_of_some _ (by simpa using hid), taken_emptyClaim_ok, okReply]
  case discard =>
    rw [exec_discard_ready h, State.withNone_nil]
    refine ⟨fun hc => ?_, fun hc hd => ?_, fun hc hd => ?_⟩
    · rw [State.withDraft_of_no_claim _ (by simpa using hc), taken_no]
    · rw [State.withDraft_of_no_draft _ (by simpa using hc) (by simpa using hd), taken_no]
    · obtain ⟨d, hd⟩ := Option.ne_none_iff_exists'.mp hd
      rw [State.withDraft_of_draft _ (by simpa using hc) (by simpa using hd), taken_clearDraft_ok, okReply]

/-! ## Operands: ranges, words and numbers -/

theorem within_iff {lo hi n : Int} : within lo hi n = true ↔ lo ≤ n ∧ n ≤ hi := decide_eq_true_iff

theorem numbers?_cons {w : Text} {ws : List Text} {n : Int} {ns : List Int} (h : number? w = some n)
    (hs : numbers? ws = some ns) : numbers? (w :: ws) = some (n :: ns) := by
  simp [numbers?, h, hs]

/-- Each number is read from a word of its own. -/
theorem numbers?_length {ws : List Text} {ns : List Int} (h : numbers? ws = some ns) : ws.length = ns.length := by
  induction ws generalizing ns with
  | nil => cases h; rfl
  | cons w ws ih =>
    unfold numbers? at h
    split at h
    case h_1 n ms hw hs => cases h; simp [ih hs]
    case h_2 => cases h

/-! ## WINDOW and CUT -/

section Window
variable {s : State} {p : Port} {d : Draft} (row : Instr) (hc : (s.port p).claim ≠ none) (hd : (s.port p).draft = some d)
include hc hd

theorem taken_withDraft (k : Draft → State) : (s.taken p row).withDraft p k = k d :=
  State.withDraft_of_draft k (by simpa using hc) (by simpa using hd)

theorem taken_setWindow (a b : Int) :
    (s.taken p row).setWindow p a b = if 0 ≤ a ∧ a ≤ b ∧ b ≤ 63 then
      (s.answered p row okReply).updPort p (fun q =>
        { q with draft := some { d with first := a.toNat, last := b.toNat, cursor := a.toNat } })
    else s.answered p row (noReply .range) := by
  have inRange : (within 0 63 a && within 0 63 b && decide (a ≤ b)) = true ↔ 0 ≤ a ∧ a ≤ b ∧ b ≤ 63 := by
    simp only [Bool.and_eq_true, within_iff, decide_eq_true_eq]
    omega
  exact (taken_withDraft row hc hd _).trans (if_congr inRange (taken_setDraft_ok ..) (taken_no ..))

theorem taken_cutAt (n : Int) :
    (s.taken p row).cutAt p n = if 0 ≤ n ∧ n ≤ 63 then
      (s.answered p row (.ok [natField (present (d.points.drop n.toNat)).length])).updPort p (fun q =>
        { q with draft := some (d.cut n.toNat) })
    else s.answered p row (noReply .range) :=
  (taken_withDraft row hc hd _).trans (if_congr within_iff (taken_setDraft_ok ..) (taken_no ..))

end Window

theorem length_present {α : Type} (slots : List (Option α)) : (present slots).length = (slots.filter Option.isSome).length := by
  rw [present, List.length_filterMap_eq_countP, List.countP_eq_length_filter]

theorem Draft.cut_points_length (d : Draft) (n : Nat) : (d.cut n).points.length = d.points.length := by
  simp only [Draft.cut, List.length_append, List.length_take, List.length_replicate]
  omega

/-- The slots below the index are left. -/
theorem Draft.cut_points_below (d : Draft) {n k : Nat} (h : k < n) : (d.cut n).points[k]? = d.points[k]? := by
  rcases Nat.lt_or_ge k d.points.length with hk | hk
  · rw [Draft.cut, List.getElem?_append_left (by simp [h, hk]), List.getElem?_take_of_lt h]
  · rw [List.getElem?_eq_none hk, List.getElem?_eq_none (by rwa [Draft.cut_points_length])]

/-- The slots from the index on are absent. -/
theorem Draft.cut_points_from (d : Draft) {n k : Nat} (h : n ≤ k) (hk : k < d.points.length) :
    (d.cut n).points[k]? = some none := by
  rw [Draft.cut, List.getElem?_append_right (by simp; omega), List.getElem?_replicate_of_lt (by simp; omega)]

/-- Settles O22: both commands reach an open draft, and the test of their range is that of the statement. -/
theorem windowAndCut : Obligations.WindowAndCut := by
  refine ⟨fun p wa wb a b d s h ha hb hc hd => ?window, fun p w n d s h hn hc hd => ?cut⟩
  case window =>
    rw [exec_window_ready h (numbers?_cons ha (numbers?_cons hb rfl)), taken_setWindow _ hc hd]
  case cut =>
    rw [exec_cut_ready h (numbers?_cons hn rfl), taken_cutAt _ hc hd]
    refine ⟨fun hout => by rw [if_neg hout], fun h0 h63 => ⟨(d.cut n.toNat).points, ?_, d.cut_points_length _,
      fun k hk => d.cut_points_below hk, fun k hk hlt => d.cut_points_from hk hlt⟩⟩
    rw [if_pos ⟨h0, h63⟩, length_present, Draft.cut]

/-! ## PUT and MORE -/

/-- Words that are not 1 to 8 pairs of numbers make no pairs (R68). -/
theorem putPairs?_eq_none {args : List Text}
    (h : ∀ ns : List Int, numbers? args = some ns → ns.length < 2 ∨ 16 < ns.length ∨ ns.length % 2 = 1) :
    putPairs? args = none := by
  rcases hps : (numbers? args).bind pairs? with _ | ps
  · simp only [putPairs?, hps]
  · obtain ⟨ns, hns, hpairs⟩ := Option.bind_eq_some_iff.mp hps
    have hlen : ns.length = 2 * ps.length := pairs?_length ns ps hpairs
    have hcount : ¬(1 ≤ ps.length ∧ ps.length ≤ Config.putPairs) := by
      have := h ns hns
      show ¬(1 ≤ ps.length ∧ ps.length ≤ 8)
      omega
    simp only [putPairs?, hps, if_neg hcount]

/-- 1 to 8 pairs written out word for word are read (R68). -/
theorem putPairs?_flat {args : List Text} {ps : List Point}
    (h : numbers? args = some (ps.flatMap (fun q => [q.chainage, q.invert]))) (h1 : 1 ≤ ps.length) (h8 : ps.length ≤ 8) :
    putPairs? args = some ps := by
  have hread : (numbers? args).bind pairs? = some ps := by rw [h]; exact pairs?_flat ps
  simp only [putPairs?, hread]
  exact if_pos ⟨h1, h8⟩

theorem all_goodPair_iff {ps : List Point} : ps.all goodPair = true ↔
    ∀ q ∈ ps, 0 ≤ q.chainage ∧ q.chainage ≤ 1200000 ∧ -50000 ≤ q.invert ∧ q.invert ≤ 50000 := by
  simp only [List.all_eq_true, goodPair, Bool.and_eq_true, within_iff, and_assoc]

theorem length_fitting (d : Draft) (start : Nat) (ps : List Point) :
    (fitting d start ps).length = min ps.length (d.last + 1 - start) := by
  rw [fitting, List.length_take, Nat.min_comm]

/-- A write changes the slots and the cursor alone, and nothing where no pair fits (R68). -/
theorem Draft.write_eq (d : Draft) (start : Nat) (ps : List Point) :
    d.write start ps = { d with
      points := writeSlots start (fitting d start ps) d.points
      cursor := if (fitting d start ps).length = 0 then d.cursor else start + (fitting d start ps).length } := by
  rcases h : fitting d start ps with _ | ⟨q, qs⟩
  · simp [Draft.write, h, writeSlots]
  · simp [Draft.write, h]

theorem Draft.write_points_length (d : Draft) (start : Nat) (ps : List Point) :
    (d.write start ps).points.length = d.points.length := by
  rw [Draft.write_eq]
  exact (writeSlots_spec ..).1

/-- The slots after a write: from the start on the pairs that fit, elsewhere what the slot held (R68). -/
theorem Draft.write_points (d : Draft) (start : Nat) (ps : List Point) {k : Nat} (hk : k < d.points.length) :
    (d.write start ps).points[k]? =
      if start ≤ k ∧ k < start + (fitting d start ps).length then some ps[k - start]? else d.points[k]? := by
  rw [Draft.write_eq, (writeSlots_spec ..).2 k hk]
  refine ite_congr rfl (fun hin => ?_) (fun _ => rfl)
  have hfit : k - start < d.last + 1 - start := by
    have := length_fitting d start ps
    omega
  rw [fitting, List.getElem?_take_of_lt hfit]

section Put
variable {s : State} {p : Port} {d : Draft} {args : List Text} (row : Instr) (start : Draft → Nat)

theorem taken_putFrom_no_pairs (h : putPairs? args = none) :
    (s.taken p row).putFrom p args start = s.answered p row (noReply .syn) := by
  rw [State.putFrom, h]
  exact taken_no ..

theorem taken_putFrom {ps : List Point} (h : putPairs? args = some ps) (hc : (s.port p).claim ≠ none)
    (hd : (s.port p).draft = some d) :
    (s.taken p row).putFrom p args start = if ps.all goodPair then
      (s.answered p row (.ok (writtenFields d (start d) ps))).updPort p (fun q =>
        { q with draft := some (d.write (start d) ps) })
    else s.answered p row (noReply .range) := by
  rw [State.putFrom, h]
  exact (taken_withDraft row hc hd _).trans (if_congr Iff.rfl (taken_setDraft_ok ..) (taken_no ..))

end Put

/-- PUT and MORE are one operation, from the first index and from the cursor (R68). -/
theorem exec_put_or_more_ready {p : Port} {args : List Text} {d : Draft} {s : State} {i : Instr} {start : Nat}
    (hi : (i = .put p args ∧ start = d.first) ∨ (i = .more p args ∧ start = d.cursor)) (h : s.ready p i) :
    ∃ slotOf : Draft → Nat, slotOf d = start ∧ exec i s = .next ((s.taken p i).putFrom p args slotOf) := by
  rcases hi with ⟨rfl, rfl⟩ | ⟨rfl, rfl⟩
  · exact ⟨fun d => d.first, rfl, exec_put_ready h⟩
  · exact ⟨fun d => d.cursor, rfl, exec_more_ready h⟩

/-- Settles O23: the draft written is `Draft.write`, and the pairs that fit are as many as the window leaves room for. -/
theorem putAndMoreWriteSlots : Obligations.PutAndMoreWriteSlots := by
  intro p args d s i start hi h hc hd
  obtain ⟨slotOf, rfl, hexec⟩ := exec_put_or_more_ready hi h
  rw [hexec]
  refine ⟨fun hbad => ?badWords, fun ps hread h1 h8 => ?_⟩
  case badWords => rw [taken_putFrom_no_pairs i slotOf (putPairs?_eq_none hbad)]
  intro good
  rw [taken_putFrom i slotOf (putPairs?_flat hread h1 h8) hc hd]
  refine ⟨fun hbad => ?range, fun hgood hlen hlast => ?written⟩
  case range => rw [if_neg (mt all_goodPair_iff.mp hbad)]
  case written =>
    rw [if_pos (all_goodPair_iff.mpr hgood)]
    refine ⟨(fitting d (slotOf d) ps).length, d.write (slotOf d) ps, length_fitting .., rfl,
      fun k hk => d.write_points _ _ (hlen ▸ hk), (d.write_points_length ..).trans hlen, ?_⟩
    simp only [Draft.write_eq, and_self]

/-! ## SPAN -/

theorem spanForm?_off {w off : Text} {k : Int} (hk : number? w = some k) (hoff : isKeyword "OFF" off = true) :
    spanForm? [w, off] = some (.off k) := by
  simp [spanForm?, hk, hoff]

/-- Five numbers are five words, so they are not a slot with OFF. -/
theorem spanForm?_set {args : List Text} {k start station plane slope : Int}
    (h : numbers? args = some [k, start, station, plane, slope]) :
    spanForm? args = some (.set k start station plane slope) := by
  unfold spanForm?
  split
  · cases numbers?_length h
  · rw [h]

/-- A number that names a station lies within 1..6 (R24). -/
theorem stationOf?_range {n : Int} {k : StationId} (h : stationOf? n = some k) : 1 ≤ n ∧ n ≤ 6 := by
  have hk : k.number = n := by simpa using List.find?_some h
  subst hk
  cases k <;> decide

theorem spanOf?_of_ranges {start plane slope : Int} (n : StationId) (hstart : 0 ≤ start ∧ start ≤ 1200000)
    (hplane : -50000 ≤ plane ∧ plane ≤ 50000) (hslope : -30000 ≤ slope ∧ slope ≤ 30000) :
    spanOf? start n.number plane slope = some { start := start, station := n, plane := plane, slope := slope } := by
  simp [spanOf?, within_iff, hstart, hplane, hslope, stationOf?_number]

theorem ranges_of_spanOf? {start station plane slope : Int} {x : Span} (h : spanOf? start station plane slope = some x) :
    (0 ≤ start ∧ start ≤ 1200000) ∧ (1 ≤ station ∧ station ≤ 6) ∧ (-50000 ≤ plane ∧ plane ≤ 50000)
      ∧ (-30000 ≤ slope ∧ slope ≤ 30000) := by
  unfold spanOf? at h
  split at h
  · rename_i hr
    simp only [Bool.and_eq_true, within_iff] at hr
    obtain ⟨⟨hstart, hplane⟩, hslope⟩ := hr
    obtain ⟨k, hk, -⟩ := Option.map_eq_some_iff.mp h
    exact ⟨hstart, stationOf?_range hk, hplane, hslope⟩
  · cases h

/-! ## SPAN and HEAD on the taken state -/

section SpanHead
variable {s : State} {p : Port} {d : Draft} (row : Instr) (hc : (s.port p).claim ≠ none) (hd : (s.port p).draft = some d)
include hc hd

theorem taken_setSpan (k : Int) (x : Option Span) :
    (s.taken p row).setSpan p k x = if 0 ≤ k ∧ k ≤ 5 then
      (s.answered p row okReply).updPort p (fun q => { q with draft := some { d with spans := d.spans.set k.toNat x } })
    else s.answered p row (noReply .range) :=
  (taken_withDraft row hc hd _).trans (if_congr within_iff (taken_setDraft_ok ..) (taken_no ..))

theorem taken_setParent_removed :
    (s.taken p row).setParent p .removed
      = (s.answered p row okReply).updPort p (fun q => { q with draft := some { d with parent := none } }) :=
  (taken_withDraft row hc hd _).trans (taken_setDraft_ok ..)

theorem taken_setParent_number (n : Int) :
    (s.taken p row).setParent p (.number n) = if 1 ≤ n ∧ n ≤ 999 then
      (s.answered p row okReply).updPort p (fun q => { q with draft := some { d with parent := some n.toNat } })
    else s.answered p row (noReply .range) := by
  refine (taken_withDraft row hc hd _).trans ?_
  by_cases hn : 1 ≤ n ∧ n ≤ 999
  · simp only [lineId?, within_iff, if_pos hn, taken_setDraft_ok, okReply]
  · simp only [lineId?, within_iff, if_neg hn, taken_no]

theorem taken_setJunction_removed :
    (s.taken p row).setJunction p .removed
      = (s.answered p row okReply).updPort p (fun q => { q with draft := some { d with junction := none } }) :=
  (taken_withDraft row hc hd _).trans (taken_setDraft_ok ..)

theorem taken_setJunction_number (n : Int) :
    (s.taken p row).setJunction p (.number n) = if 0 ≤ n ∧ n ≤ 1200000 then
      (s.answered p row okReply).updPort p (fun q => { q with draft := some { d with junction := some n } })
    else s.answered p row (noReply .range) :=
  (taken_withDraft row hc hd _).trans (if_congr within_iff (taken_setDraft_ok ..) (taken_no ..))

end SpanHead

/-! ## The words of HEAD -/

theorem headArg?_removed {w : Text} (h : isKeyword "NONE" w = true) : headArg? [w] = some .removed := by
  simp [headArg?, numberOr?, h]

theorem headArg?_number {w : Text} {n : Int} (h : isKeyword "NONE" w = false) (hn : number? w = some n) :
    headArg? [w] = some (.number n) := by
  simp [headArg?, numberOr?, h, hn]

theorem goodLabel_iff {w : Text} : goodLabel w = true ↔ w.length ≤ 16 ∧ isKeyword "NONE" w = false := by
  simp only [goodLabel, Bool.and_eq_true, decide_eq_true_eq, Bool.not_eq_true']
  rfl

theorem labelArg_good {w : Text} (h : goodLabel w = true) : labelArg [w] = .set w := if_pos h

theorem labelArg_bad {w : Text} (h : ¬goodLabel w = true) : labelArg [w] = .bad := if_neg h

/-! ## The rows of SPAN and HEAD LABEL on an open draft, and the statement -/

section SpanHeadRows
variable {s : State} {p : Port} {d : Draft} (hc : (s.port p).claim ≠ none) (hd : (s.port p).draft = some d)
include hc hd

theorem exec_span_off {w off : Text} {k : Int} (h : s.ready p (.span p [w, off])) (hk : number? w = some k)
    (hoff : isKeyword "OFF" off = true) :
    exec (.span p [w, off]) s = .next (if 0 ≤ k ∧ k ≤ 5 then (s.answered p (.span p [w, off]) okReply).updPort p
        (fun q => { q with draft := some { d with spans := d.spans.set k.toNat none } })
      else s.answered p (.span p [w, off]) (noReply .range)) := by
  rw [exec_span_ready_off h (spanForm?_off hk hoff), taken_setSpan _ hc hd]

theorem exec_span_set {args : List Text} {k start plane slope : Int} {n : StationId} (h : s.ready p (.span p args))
    (hargs : numbers? args = some [k, start, n.number, plane, slope]) (hk : 0 ≤ k ∧ k ≤ 5)
    (hstart : 0 ≤ start ∧ start ≤ 1200000) (hplane : -50000 ≤ plane ∧ plane ≤ 50000)
    (hslope : -30000 ≤ slope ∧ slope ≤ 30000) :
    exec (.span p args) s = .next ((s.answered p (.span p args) okReply).updPort p (fun q =>
      { q with draft := some { d with
          spans := d.spans.set k.toNat (some { start := start, station := n, plane := plane, slope := slope }) } })) := by
  rw [exec_span_ready_set h (spanForm?_set hargs) (spanOf?_of_ranges n hstart hplane hslope), taken_setSpan _ hc hd, if_pos hk]

/-- A span that can be read has its values in range, so then it is the slot that is not. -/
theorem exec_span_range {args : List Text} {k start station plane slope : Int} (h : s.ready p (.span p args))
    (hargs : numbers? args = some [k, start, station, plane, slope])
    (hout : ¬(0 ≤ k ∧ k ≤ 5) ∨ ¬(0 ≤ start ∧ start ≤ 1200000) ∨ ¬(1 ≤ station ∧ station ≤ 6)
      ∨ ¬(-50000 ≤ plane ∧ plane ≤ 50000) ∨ ¬(-30000 ≤ slope ∧ slope ≤ 30000)) :
    exec (.span p args) s = .next (s.answered p (.span p args) (noReply .range)) := by
  rcases hx : spanOf? start station plane slope with _ | x
  · rw [exec_span_ready_no_span h (spanForm?_set hargs) hx, taken_withDraft _ hc hd, taken_no]
  · obtain ⟨hstart, hstation, hplane, hslope⟩ := ranges_of_spanOf? hx
    have hk : ¬(0 ≤ k ∧ k ≤ 5) := by tauto
    rw [exec_span_ready_set h (spanForm?_set hargs) hx, taken_setSpan _ hc hd, if_neg hk]

theorem exec_headLabel_remove (h : s.ready p (.headLabel p [])) :
    exec (.headLabel p []) s = .next ((s.answered p (.headLabel p []) okReply).updPort p
      (fun q => { q with draft := some { d with label := none } })) := by
  rw [exec_headLabel_ready_remove h rfl, taken_withDraft _ hc hd, taken_setDraft_ok, okReply]

theorem exec_headLabel_set {w : Text} (h : s.ready p (.headLabel p [w])) (hw : goodLabel w = true) :
    exec (.headLabel p [w]) s = .next ((s.answered p (.headLabel p [w]) okReply).updPort p
      (fun q => { q with draft := some { d with label := some w } })) := by
  rw [exec_headLabel_ready_set h (labelArg_good hw), taken_withDraft _ hc hd, taken_setDraft_ok, okReply]

end SpanHeadRows

theorem exec_headLabel_bad {s : State} {p : Port} {w : Text} (h : s.ready p (.headLabel p [w])) (hw : ¬goodLabel w = true) :
    exec (.headLabel p [w]) s = .next (s.answered p (.headLabel p [w]) (noReply .syn)) := by
  rw [exec_headLabel_ready_bad h (labelArg_bad hw), taken_no]

/-- Settles O24: each form of the words picks one write of the draft, or its refusal. -/
theorem spanAndHead : Obligations.SpanAndHead := by
  refine ⟨⟨fun p w off k d s h hk hoff hc hd => exec_span_off hc hd h hk hoff,
    fun p args k start station plane slope d s h hargs hc hd => ⟨?set, exec_span_range hc hd h hargs⟩⟩,
    fun p d s hc hd => ⟨?parent, ?noParent, ?junction, ?noJunction, exec_headLabel_remove hc hd, ?label, ?badLabel⟩⟩
  case set =>
    rintro n rfl hk0 hk5 hs0 hs1 hp0 hp1 hl0 hl1
    exact exec_span_set hc hd h hargs ⟨hk0, hk5⟩ ⟨hs0, hs1⟩ ⟨hp0, hp1⟩ ⟨hl0, hl1⟩
  case parent =>
    intro w n h hw hn
    rw [exec_headParent_ready h (headArg?_number hw hn), taken_setParent_number _ hc hd]
  case noParent =>
    intro w h hw
    rw [exec_headParent_ready h (headArg?_removed hw), taken_setParent_removed _ hc hd]
  case junction =>
    intro w n h hw hn
    rw [exec_headJunction_ready h (headArg?_number hw hn), taken_setJunction_number _ hc hd]
  case noJunction =>
    intro w h hw
    rw [exec_headJunction_ready h (headArg?_removed hw), taken_setJunction_removed _ hc hd]
  case label =>
    intro w h hlen hw
    exact exec_headLabel_set hc hd h (goodLabel_iff.mpr ⟨hlen, hw⟩)
  case badLabel =>
    intro w h hbad
    refine exec_headLabel_bad h (fun hgood => ?_)
    obtain ⟨hlen, hw⟩ := goodLabel_iff.mp hgood
    rcases hbad with hlong | hnone
    · omega
    · simp [hw] at hnone

end Sys2Proof.Machine
end

section
/-! PROOF. The outputs computed from the state (log 27; R109, R141, R174, R181) and SUSPEND (07, R116): when the permit, the attention lines
and the coils are driven, what a change of run state with its reply leaves, and the statements about the outputs and SUSPEND. -/
namespace Sys2Proof.Machine

/-! ## The outputs (R109, R141, R174, R181) -/

theorem State.running_iff {s : State} : s.running = true ↔ s.powered = true ∧ s.resetLow = false := by
  simp [State.running]

@[simp] theorem permitFor_some (x : RunState) : permitFor (some x) = !x.isStopped := by cases x <;> rfl

theorem permitFor_iff {r : Option RunState} : permitFor r = true ↔ ∀ x, r = some x → x.isStopped = false := by
  cases r with
  | none => simp [permitFor]
  | some x => simp

theorem State.permit_iff {s : State} :
    s.permit = true ↔ s.running = true ∧ ∀ x, s.runState? = some x → x.isStopped = false := by
  rw [State.permit, Bool.and_eq_true, permitFor_iff]

/-- The permit is withdrawn in SUSPENDED and HALTED (R109). -/
theorem State.permit_of_stopped {s : State} {x : RunState} (h : s.runState? = some x) (hx : x.isStopped = true) :
    s.permit = false := by
  rw [State.permit, h, permitFor_some, hx, Bool.not_true, Bool.and_false]

theorem PortState.unmasked_iff {q : PortState} : q.unmasked = true ↔ ∃ k ∈ q.events, k ∉ q.mask := by
  simp [PortState.unmasked]

theorem State.attention_iff {s : State} {p : Port} :
    s.attention p = true ↔ s.running = true ∧ ∃ k ∈ (s.port p).events, k ∉ (s.port p).mask := by
  rw [State.attention, Bool.and_eq_true, PortState.unmasked_iff]

theorem State.raisingCoil_of_pos {s : State} (hs : s.running = true) (hd : 0 < s.eval.drive) :
    s.raisingCoil = 1500 * s.eval.drive := by
  simp [State.raisingCoil, hs, hd]

theorem State.loweringCoil_of_neg {s : State} (hs : s.running = true) (hd : s.eval.drive < 0) :
    s.loweringCoil = -(1500 * s.eval.drive) := by
  simp [State.loweringCoil, hs, hd]

theorem State.raisingCoil_eq_zero {s : State} (h : ¬s.running = true ∨ s.eval.drive ≤ 0) : s.raisingCoil = 0 := by
  refine if_neg ?_
  rwa [Bool.and_eq_true, decide_eq_true_eq, not_and_or, not_lt]

theorem State.loweringCoil_eq_zero {s : State} (h : ¬s.running = true ∨ 0 ≤ s.eval.drive) : s.loweringCoil = 0 := by
  refine if_neg ?_
  rwa [Bool.and_eq_true, decide_eq_true_eq, not_and_or, not_lt]

/-- Settles O60: each output has its own law, and each coil is idle on the other's side of level 0. -/
theorem outputsFollowTheState : Obligations.OutputsFollowTheState := by
  intro s
  simp only [← State.running_iff]
  refine ⟨State.permit_iff, fun p => State.attention_iff, fun hs hd => ⟨?_, ?_⟩, fun hs hd => ⟨?_, ?_⟩, fun h => ⟨?_, ?_⟩⟩
  · exact State.raisingCoil_of_pos hs hd
  · exact State.loweringCoil_eq_zero (.inr hd.le)
  · exact State.loweringCoil_of_neg hs hd
  · exact State.raisingCoil_eq_zero (.inr hd.le)
  · exact State.raisingCoil_eq_zero (h.imp_right Eq.le)
  · exact State.loweringCoil_eq_zero (h.imp_right Eq.ge)

/-! ## A change of run state and its reply (R108, R140) -/

/-- A change of run state writes no hand of a port and a reply nothing else, so they commute. -/
theorem State.changeRun_ok (s : State) (r : RunState) (p : Port) (fs : List Field) :
    (s.changeRun r).ok p fs = (s.ok p fs).changeRun r := by
  cases p <;> cases r <;> rfl

theorem taken_changeRun_ok (s : State) (p : Port) (row : Instr) (r : RunState) (fs : List Field) :
    ((s.taken p row).changeRun r).ok p fs = (s.answered p row (.ok fs)).changeRun r := by
  rw [State.changeRun_ok, taken_ok]

/-- A suspension raises RUN alone: it has no entry event of its own (R108). -/
theorem State.changeRun_suspended (s : State) (x : SuspendReason) :
    s.changeRun (.suspended x) = ({ s.updRun (fun c => { c with state := .suspended x }) with
      run := { s.run with timer := none }
      eval := { s.eval with drive := 0 } } : State).raise .run := rfl

@[simp] theorem State.answered_run (s : State) (p : Port) (row : Instr) (r : Reply) : (s.answered p row r).run = s.run :=
  State.updPort_run s p _

@[simp] theorem State.answered_eval (s : State) (p : Port) (row : Instr) (r : Reply) : (s.answered p row r).eval = s.eval :=
  State.updPort_eval s p _

@[simp] theorem State.answered_context? (s : State) (p : Port) (row : Instr) (r : Reply) :
    (s.answered p row r).context? = s.context? := by
  rw [← taken_reply, State.context?, State.active?, State.reply_store, State.taken_store, State.context?, State.active?]

/-! ## SUSPEND (R116) -/

theorem State.context?_ne_none_of_digging {s : State} (h : s.digging = true) : s.context? ≠ none := by
  intro hnone
  rw [State.digging_iff] at h
  simp [State.runState?, hnone] at h

section Suspend
variable {p : Port} {args : List Text} {s : State}

theorem exec_suspend_ready (h : s.ready p (.suspend p args)) :
    exec (.suspend p args) s = .next (let t := s.taken p (.suspend p args)
      t.withNone p args (if t.digging then (t.suspendDigging .operator).ok p else t.no p .state)) :=
  congrArg _ (takeLine_ready _ h)

theorem exec_suspend_args (h : s.ready p (.suspend p args)) (ha : args ≠ []) :
    exec (.suspend p args) s = .next (s.answered p (.suspend p args) (noReply .syn)) := by
  rw [exec_suspend_ready h, State.withNone_of_ne_nil _ _ _ ha, taken_no]

theorem exec_suspend_not_digging (h : s.ready p (.suspend p [])) (hd : ¬s.digging = true) :
    exec (.suspend p []) s = .next (s.answered p (.suspend p []) (noReply .state)) := by
  rw [exec_suspend_ready h, State.withNone_nil, taken_digging, if_neg hd, taken_no]

theorem exec_suspend_digging (h : s.ready p (.suspend p [])) (hd : s.digging = true) :
    exec (.suspend p []) s = .next ((s.answered p (.suspend p []) okReply).changeRun (.suspended .operator)) := by
  rw [exec_suspend_ready h, State.withNone_nil, State.suspendDigging, taken_digging, if_pos hd, if_pos hd,
    taken_changeRun_ok, okReply]

end Suspend

/-- Settles O50: the tests in their order, then one change of run state, which the reply commutes with. -/
theorem suspendStopsTheRun : Obligations.SuspendStopsTheRun := by
  refine fun p args s h => ⟨exec_suspend_args h, ?refused, ?suspended⟩
  case refused =>
    rintro rfl hcut hcoast
    exact exec_suspend_not_digging h (fun hd => ((State.digging_iff s).mp hd).elim hcut hcoast)
  case suspended =>
    rintro rfl hdig
    have hd : s.digging = true := (State.digging_iff s).mpr hdig
    have hrun : ((s.answered p (.suspend p []) okReply).changeRun (.suspended .operator)).runState?
        = some (.suspended .operator) :=
      State.changeRun_runState? _ _ (by simpa using State.context?_ne_none_of_digging hd)
    refine ⟨_, exec_suspend_digging h hd, State.permit_of_stopped hrun rfl, hrun, ?_⟩
    rw [State.changeRun_suspended, State.answered_run, State.answered_eval]

end Sys2Proof.Machine
end

section
/-! PROOF. The step itself, the module clock, and the Port unit's own rows (10.1, 10.2; 04, 4.2): bytes, line ends that are no command of
a block, the end of a reply, the lapse of a claim. -/
namespace Sys2Proof.Machine

/-! ## The step -/

/-- Settles O1: it is the step's own equation for a queue that is not empty. -/
theorem stepRunsTheFrontRow : Obligations.StepRunsTheFrontRow := fun _ _ _ => rfl

/-! ## The clock (00, Module time; log 1) -/

theorem step_nil {s : State} (h : s.pending = []) : step s = .next (idle s) := by simp [step, h]

theorem idle_stopped {s : State} (h : s.running = false) : idle s = s := by simp [idle, h]

theorem State.expireTimer_of_not_due {s : State} (h : s.timerDue = false) : s.expireTimer = s := by simp [State.expireTimer, h]

theorem State.expireWait_of_not_due {s : State} (h : s.waitDue = false) : s.expireWait = s := by simp [State.expireWait, h]

theorem State.expireLapse_of_not_due {s : State} {p : Port} (h : s.lapseDue p = false) : s.expireLapse p = s := by
  simp [State.expireLapse, h]

theorem State.expireGap_of_not_due {s : State} (h : s.gapDue = false) : s.expireGap = s := by simp [State.expireGap, h]

/-- With no timer due the clock alone moves. -/
theorem idle_running {s : State} (h : s.running = true) (htimer : s.timerDue = false) (hwait : s.waitDue = false)
    (hcab : s.lapseDue .cab = false) (hplan : s.lapseDue .plan = false) (hgap : s.gapDue = false) :
    idle s = { s with time := s.time + 1 } := by
  simp [idle, h, State.expireAll, State.expireTimer_of_not_due htimer, State.expireWait_of_not_due hwait,
    State.expireLapse_of_not_due hcab, State.expireLapse_of_not_due hplan, State.expireGap_of_not_due hgap]

/-- Settles O3: an empty queue lets the clock run, and no timer that is due stands before it. -/
theorem emptyQueueTicksTheClock : Obligations.EmptyQueueTicksTheClock := fun s hp =>
  ⟨fun h => by rw [step_nil hp, idle_stopped h],
   fun h htimer hwait hcab hplan hgap => by rw [step_nil hp, idle_running h htimer hwait hcab hplan hgap]⟩

/-! ## Bytes (R163) -/

/-- What a byte other than LF does to the line. -/
theorem LineBuffer.add_eq (q : LineBuffer) (b : Byte) (framingError : Bool) (h : framingError = true ∨ b ≠ 10) :
    LineBuffer.add q b framingError =
      if framingError = true then { q with bad := true }
      else if b = 13 then q
      else if b.toNat < 32 ∨ 126 < b.toNat then { q with bad := true }
      else if q.chars.length < 160 then { q with chars := q.chars ++ [Char.ofNat b.toNat] }
      else { q with tooLong := true } := by
  cases framingError with
  | true => rfl
  | false =>
    have hlf : b ≠ 10 := h.resolve_left (by simp)
    by_cases hcr : b = 13
    · simp [LineBuffer.add, hcr]
    · have hend : ¬(b = 13 ∨ b = 10) := not_or.mpr ⟨hcr, hlf⟩
      rw [LineBuffer.add, if_neg Bool.false_ne_true, if_neg hend, if_neg Bool.false_ne_true, if_neg hcr]
      by_cases hvis : 32 ≤ b.toNat ∧ b.toNat ≤ 126
      · have hnot : ¬(b.toNat < 32 ∨ 126 < b.toNat) := by omega
        rw [if_pos hvis, if_neg hnot]
        rfl
      · rw [if_neg hvis, if_pos (by omega)]

/-- Settles O15: while the module runs the row is the buffer's taking of the byte. -/
theorem portByteBuildsTheLine : Obligations.PortByteBuildsTheLine := by
  intro p b framingError s hs hb
  show Host.Outcome.next _ = _
  rw [if_pos hs]
  simp only [LineBuffer.add_eq _ b framingError hb]

/-! ## Line ends (R163, R164, R166) -/

/-- Every command of a port, in whatever words, is a line taken on that port. -/
theorem exec_of_words {i : Instr} {p : Port} {ws : List Text} (h : i.words = some (p, ws)) :
    ∃ body : State → State, ∀ s, exec i s = .next (takeLine p i s body) := by
  cases i <;> cases h <;> exact ⟨_, fun _ => rfl⟩

theorem exec_commandLineBad (p : Port) (s : State) : exec (.commandLineBad p) s = .next (takeLine p (.commandLineBad p) s
    (fun s => s.updPort p (fun q => { q with hand := .sending none (.no .syn []) }))) := rfl

/-- The line in the buffer is over, and the overrun flag is set, in one update of the port. -/
theorem State.clearBuffer_setOverrun (s : State) (p : Port) :
    (s.clearBuffer p).setOverrun p = s.updPort p (fun q => { q with buffer := emptyBuffer, overrun := true }) := by
  cases p <;> rfl

theorem exec_lineWhileBusy {p : Port} {s : State} (hs : s.running = true) (hb : s.busy p = true)
    (h : (s.port p).buffer = emptyBuffer ∨ decodeLine p (s.port p).buffer ≠ .emptyLine p) :
    exec (.lineWhileBusy p) s = .next ((s.clearBuffer p).setOverrun p) := by
  show Host.Outcome.next _ = _
  rw [if_pos (by simpa [hs, hb] using h)]

/-- Settles O16: a line that ends is taken in hand, discarded or, on a busy port, counted as an overrun, by the rule of taking a line. -/
theorem linesNotTaken : Obligations.LinesNotTaken := by
  refine ⟨fun p s h => ?bad, fun p ws s h => ?unknown, fun p s hs hl => ?empty, fun p s hs hb => ⟨fun h => ?busy, fun i hi hl => ?line⟩⟩
  case bad =>
    rw [exec_commandLineBad, takeLine_ready _ h]
    cases p <;> rfl
  case unknown =>
    show Host.Outcome.next _ = _
    rw [takeLine_ready _ h, taken_no]
  case empty =>
    show Host.Outcome.next _ = _
    rw [if_pos (by simp [hs, hl]), State.clearBuffer]
  case busy => rw [exec_lineWhileBusy hs hb h, State.clearBuffer_setOverrun]
  case line =>
    rcases hi with rfl | ⟨ws, hws⟩
    · rw [exec_commandLineBad, takeLine_busy _ hs hl hb, State.clearBuffer_setOverrun]
    · obtain ⟨body, hbody⟩ := exec_of_words hws
      rw [hbody, takeLine_busy _ hs hl hb, State.clearBuffer_setOverrun]

/-! ## The end of a reply, and the lapse (R63, R165, R166) -/

/-- The end of a reply that no restart follows. -/
theorem exec_replySent {p : Port} {c : Option Instr} {r : Reply} {s : State} (hs : s.running = true)
    (hh : (s.port p).hand = .sending c r) (hr : restartsAfter c r = false) :
    exec (.replySent p) s = .next (s.endReply p) := by
  show Host.Outcome.next _ = _
  simp [hs, hh, hr]

theorem State.endReply_free {s : State} {p : Port} (h : (s.port p).overrun = false) : s.endReply p = s.updPort p (fun q =>
    { q with hand := .idle,
             lapse := if q.claim.isSome then some (s.time + (s.settings.claimLapse * 1000).toNat) else none }) := by
  cases p <;> simp only [State.endReply, h] <;> rfl

theorem State.endReply_overrun {s : State} {p : Port} (h : (s.port p).overrun = true) : s.endReply p = s.updPort p (fun q =>
    { q with hand := .sending none (noReply .overrun), overrun := false, lapse := none }) := by
  cases p <;> simp only [State.endReply, h] <;> rfl

theorem State.lapseDue_of_some {s : State} {p : Port} {d : Nat} (h : (s.port p).lapse = some d) :
    s.lapseDue p = decide (d ≤ s.time) := by
  simp [State.lapseDue, h]

/-- A claim that lapses is one update of its port (R63). -/
theorem State.expireLapse_of_due {s : State} {p : Port} (h : s.lapseDue p = true) : s.expireLapse p = s.updPort p (fun q =>
    { q with claim := none, draft := none, lapse := none, events := setKind .lapse q.events }) := by
  rw [State.expireLapse, if_pos h]
  cases p <;> rfl

theorem exec_claimLapseExpiry {p : Port} {s : State} (hs : s.running = true) :
    exec (.claimLapseExpiry p) s = .next (s.expireLapse p) := by
  show Host.Outcome.next _ = _
  rw [if_pos hs]

/-- Settles O17: the end of a reply by the overrun flag, the lapse by its deadline. -/
theorem replyEndsAndClaimLapses : Obligations.ReplyEndsAndClaimLapses := by
  refine ⟨fun p c r s hs hh hr => ⟨fun ho => ?_, fun ho => ?_⟩, fun p d s hs hl => ⟨fun hd => ?_, fun hd => ?_⟩⟩
  · rw [exec_replySent hs hh hr, State.endReply_free ho]
  · rw [exec_replySent hs hh hr, State.endReply_overrun ho]
  · rw [exec_claimLapseExpiry hs, State.expireLapse_of_due (by simp [State.lapseDue_of_some hl, hd])]
  · rw [exec_claimLapseExpiry hs, State.expireLapse_of_not_due (by simp [State.lapseDue_of_some hl, hd])]

end Sys2Proof.Machine
end

section
/-! PROOF. Command rows whose meaning is one guard or one write: the words and ports of the commands (10.6), CLAIM and OPEN (04), the
need of a claim and a draft, COMMIT taken, ACK and MASK, restart and store clear. -/
namespace Sys2Proof.Machine

/-! ## A port's answers on the taken state -/

@[simp] theorem State.answered_store (s : State) (p : Port) (row : Instr) (r : Reply) : (s.answered p row r).store = s.store :=
  State.updPort_store s p _

@[simp] theorem State.taken_settings (s : State) (p : Port) (row : Instr) : (s.taken p row).settings = s.settings := by
  cases p <;> rfl

theorem taken_furthest? (s : State) (p : Port) (row : Instr) : (s.taken p row).furthest? = s.furthest? := by
  rw [State.furthest?, taken_context?, State.furthest?]

theorem taken_staged? (s : State) (p : Port) (row : Instr) : (s.taken p row).staged? = s.staged? := by
  rw [State.staged?, taken_active?, State.staged?]

/-! ## Words and ports (10.6) -/

theorem State.cabOnly_plan (s : State) (k : State) : s.cabOnly .plan k = s.no .plan .port := rfl

theorem State.cabOnly_cab (s : State) (k : State) : s.cabOnly .cab k = k := rfl

/-- Numbers are read word by word. -/
theorem State.withNumber_of {s : State} {p : Port} {w : Text} {n : Int} (h : number? w = some n) (k : Int → State) :
    s.withNumber p [w] k = k n := by
  have hn : numbers? [w] = some [n] := numbers?_cons h rfl
  simp only [State.withNumber, hn]

/-- The row is of a command that takes no word. -/
def NoWords (p : Port) (args : List Text) (i : Instr) : Prop :=
  ∀ s, s.ready p i → ∃ k : State, exec i s = .next ((s.taken p i).withNone p args k)

theorem exec_noWords_args {p : Port} {args : List Text} {i : Instr} {s : State} (hi : NoWords p args i) (ha : args ≠ [])
    (h : s.ready p i) : exec i s = .next (s.answered p i (noReply .syn)) := by
  obtain ⟨k, hk⟩ := hi s h
  rw [hk, State.withNone_of_ne_nil _ _ _ ha, taken_no]

/-- The row is of a command of the CAB port on the PLAN port, with words that read. -/
def CabCommand (i : Instr) : Prop :=
  ∀ s, s.ready .plan i → ∃ k : State, exec i s = .next ((s.taken .plan i).cabOnly .plan k)

theorem exec_cabCommand_plan {i : Instr} {s : State} (hi : CabCommand i) (h : s.ready .plan i) :
    exec i s = .next (s.answered .plan i (noReply .port)) := by
  obtain ⟨k, hk⟩ := hi s h
  rw [hk, State.cabOnly_plan, taken_no]

theorem cabCommand_of_noWords {i : Instr} (hi : ∀ s, s.ready .plan i →
    ∃ k : State, exec i s = .next ((s.taken .plan i).withNone .plan [] ((s.taken .plan i).cabOnly .plan k))) : CabCommand i :=
  fun s h => (hi s h).imp (fun k hk => hk.trans (congrArg _ (State.withNone_nil _ _ _)))

theorem cabCommand_of_number {w : Text} (hw : (number? w).isSome) {i : Instr}
    (hi : i = .select .plan [w] ∨ i = .retie .plan [w] ∨ i = .trim .plan [w]) : CabCommand i := by
  obtain ⟨n, hn⟩ := Option.isSome_iff_exists.mp hw
  intro s h
  rcases hi with rfl | rfl | rfl <;>
    exact ⟨_, (congrArg _ (takeLine_ready _ h)).trans (congrArg _ (State.withNumber_of hn _))⟩

theorem cabCommand_of_mark {args : List Text} (h : (markForm? args).isSome) : CabCommand (.mark .plan args) := by
  obtain ⟨f, hf⟩ := Option.isSome_iff_exists.mp h
  intro s h
  refine ⟨(s.taken .plan (.mark .plan args)).setMark .plan f, (congrArg _ (takeLine_ready _ h)).trans ?_⟩
  simp only [hf]

/-- Settles O59: SYNTAX stands before PORT in each of the rows, and PORT before what the command does. -/
theorem wordsAndPorts : Obligations.WordsAndPorts := by
  refine ⟨fun i s hi h => exec_cabCommand_plan ?cab h, fun s h => ?clear, fun p args i s ha hi h => exec_noWords_args ?none ha h⟩
  case cab =>
    rcases hi with rfl | rfl | rfl | rfl | rfl | ⟨w, hw, hi⟩ | ⟨args, ha, rfl⟩
    · exact cabCommand_of_noWords (fun s h => ⟨_, congrArg _ (takeLine_ready _ h)⟩)
    · exact cabCommand_of_noWords (fun s h => ⟨_, congrArg _ (takeLine_ready _ h)⟩)
    · exact cabCommand_of_noWords (fun s h => ⟨_, congrArg _ (takeLine_ready _ h)⟩)
    · exact cabCommand_of_noWords (fun s h => ⟨_, congrArg _ (takeLine_ready _ h)⟩)
    · exact cabCommand_of_noWords (fun s h => ⟨_, congrArg _ (takeLine_ready _ h)⟩)
    · exact cabCommand_of_number hw hi
    · exact cabCommand_of_mark ha
  case clear =>
    show Host.Outcome.next _ = _
    rw [takeLine_ready _ h, State.withNone_nil, State.clearOn, taken_no]
  case none =>
    simp only [List.mem_cons, List.not_mem_nil, or_false] at hi
    rcases hi with rfl | rfl | rfl | rfl | rfl | rfl | rfl | rfl | rfl | rfl | rfl | rfl | rfl | rfl | rfl | rfl | rfl | rfl | rfl | rfl
      | rfl | rfl <;> exact fun s h => ⟨_, congrArg _ (takeLine_ready _ h)⟩

/-! ## CLAIM (R60) -/

theorem lineId?_of_range {n : Int} (h1 : 1 ≤ n) (h2 : n ≤ 999) : lineId? n = some n.toNat := if_pos (within_iff.mpr ⟨h1, h2⟩)

theorem State.withId_of {s : State} {p : Port} {w : Text} {n : Int} (hw : number? w = some n) (h1 : 1 ≤ n) (h2 : n ≤ 999)
    (k : Nat → State) : s.withId p [w] k = k n.toNat := by
  simp only [State.withId, hw, lineId?_of_range h1 h2]

theorem exec_claim_ready {p : Port} {w : Text} {n : Int} {s : State} (h : s.ready p (.claim p [w])) (hw : number? w = some n)
    (h1 : 1 ≤ n) (h2 : n ≤ 999) :
    exec (.claim p [w]) s = .next ((s.taken p (.claim p [w])).claimId p n.toNat) := by
  show Host.Outcome.next _ = _
  rw [takeLine_ready _ h, State.withId_of hw h1 h2]

/-- The reply to a new claim says whether a line has the id; the slot holds it, with an empty draft. -/
theorem taken_takeClaim (s : State) (p : Port) (row : Instr) (id : Nat) :
    (s.taken p row).takeClaim p id = (s.answered p row (if (s.line? id).isSome then okReply else .ok [.word "FREE"])).updPort p
      (fun q => { q with claim := some id, draft := none }) := by
  rw [State.takeClaim, taken_line?]
  cases (s.line? id).isSome <;> cases p <;> rfl

/-- Settles O18: the tests of R60 in their order. -/
theorem claimTakesTheId : Obligations.ClaimTakesTheId := by
  intro p w n s h hw h1 h2
  rw [exec_claim_ready h hw h1 h2]
  refine ⟨fun ho => ?_, fun ho k hk hne => ?_, fun ho hk => ?_, fun ho hk => ?_⟩
  · rw [State.claimId, State.port_taken_other, if_pos ho, taken_reply]
  · simp only [State.claimId, State.port_taken_other, if_neg ho, State.taken_claim, hk, if_neg hne, taken_no]
  · simp only [State.claimId, State.port_taken_other, if_neg ho, State.taken_claim, hk, if_true, taken_ok, okReply]
  · simp only [State.claimId, State.port_taken_other, if_neg ho, State.taken_claim, hk, taken_takeClaim]

/-! ## OPEN (R66) -/

theorem fillSlots_nil {α : Type} (n : Nat) : fillSlots n ([] : List α) = List.replicate n none := by
  simp [fillSlots]

theorem exec_openDraft_ready {p : Port} {s : State} (h : s.ready p (.openDraft p [])) :
    exec (.openDraft p []) s = .next (let t := s.taken p (.openDraft p [])
      t.withClaim p (fun id => let d := openedDraft t.store id
        (t.setDraft p d).ok p
          [natField (present d.points).length, natField (present d.spans).length, (d.base.map countField).getD noneField])) :=
  congrArg _ (takeLine_ready _ h)

/-- What OPEN answers of the draft it fills. -/
theorem openedDraft_fields (st : Store) (id : Nat) : let d := openedDraft st id
    [natField (present d.points).length, natField (present d.spans).length, (d.base.map countField).getD noneField]
      = match st.line? id with
        | none => [.num 0, .num 0, .word "NONE"]
        | some l => match l.staged? with
          | none => [natField (l.points.take 64).length, natField (l.spans.take 6).length, countField l.revision]
          | some g => [natField (g.profile.take 64).length, natField (g.spans.take 6).length, countField g.base] := by
  simp only [openedDraft]
  cases st.line? id with
  | none => rfl
  | some l =>
    cases hg : l.staged? with
    | none => simp only [draftFrom, hg, present_fillSlots]; rfl
    | some g => simp only [draftFrom, hg, present_fillSlots]; rfl

/-- Settles O20: the draft that OPEN fills is the one of the statement, and the reply counts its slots. -/
theorem openFillsTheDraft : Obligations.OpenFillsTheDraft := by
  intro p id s h hc
  rw [exec_openDraft_ready h]
  simp only [State.withClaim_of_some _ ((State.taken_claim ..).trans hc), openedDraft_fields, taken_setDraft_ok, State.taken_store]
  rw [openedDraft, show s.store.line? id = s.line? id from rfl]
  cases s.line? id with
  | none => simp only [draftFrom, fillSlots_nil]; rfl
  | some l =>
    cases hg : l.staged? with
    | none => simp only [draftFrom, hg]; rfl
    | some g => simp only [draftFrom, hg]; rfl

/-! ## The need of a claim and of a draft (R65) -/

/-- The row's body is one that needs an open draft. -/
def NeedsDraft (p : Port) (i : Instr) : Prop :=
  ∀ s, s.ready p i → ∃ k : Draft → State, exec i s = .next ((s.taken p i).withDraft p k)

theorem State.putFrom_of {s : State} {p : Port} {args : List Text} {ps : List Point} (h : putPairs? args = some ps)
    (start : Draft → Nat) : s.putFrom p args start = s.withDraft p (fun d =>
      if ps.all goodPair then (s.setDraft p (d.write (start d) ps)).ok p (writtenFields d (start d) ps) else s.no p .range) := by
  rw [State.putFrom, h]

theorem needsDraft_putFrom {p : Port} {args : List Text} {i : Instr} {start : Draft → Nat} (ha : (putPairs? args).isSome)
    (hi : ∀ s, s.ready p i → exec i s = .next ((s.taken p i).putFrom p args start)) : NeedsDraft p i := by
  obtain ⟨ps, hps⟩ := Option.isSome_iff_exists.mp ha
  exact fun s h => ⟨_, (hi s h).trans (congrArg _ (State.putFrom_of hps _))⟩

theorem needsDraft_span {p : Port} {args : List Text} (ha : (spanForm? args).isSome) : NeedsDraft p (.span p args) := by
  obtain ⟨f, hf⟩ := Option.isSome_iff_exists.mp ha
  cases f with
  | off k => exact fun s h => ⟨_, exec_span_ready_off h hf⟩
  | set k start station plane slope =>
    cases hx : spanOf? start station plane slope with
    | some x => exact fun s h => ⟨_, exec_span_ready_set h hf hx⟩
    | none => exact fun s h => ⟨_, exec_span_ready_no_span h hf hx⟩

theorem needsDraft_head {p : Port} {args : List Text} (ha : (headArg? args).isSome) :
    NeedsDraft p (.headParent p args) ∧ NeedsDraft p (.headJunction p args) := by
  obtain ⟨v, hv⟩ := Option.isSome_iff_exists.mp ha
  exact ⟨fun s h => ⟨_, exec_headParent_ready h hv⟩, fun s h => ⟨_, exec_headJunction_ready h hv⟩⟩

theorem needsDraft_label {p : Port} {args : List Text} (ha : labelArg args ≠ .bad) : NeedsDraft p (.headLabel p args) := by
  cases hl : labelArg args with
  | bad => exact absurd hl ha
  | remove => exact fun s h => ⟨_, exec_headLabel_ready_remove h hl⟩
  | set t => exact fun s h => ⟨_, exec_headLabel_ready_set h hl⟩

/-- COMMIT's own part stands behind the two guards. -/
theorem exec_commit_ready {p : Port} {s : State} (h : s.ready p (.commit p [])) :
    exec (.commit p []) s = .next (let t := s.taken p (.commit p [])
      t.withClaim p (fun id => t.withDraft p (fun d => match t.commitRefusal? id d with
        | some r => t.no p r
        | none => t.beginCommit p id))) :=
  congrArg _ (takeLine_ready _ h)

/-- A claim asked for twice is asked for once. -/
theorem State.withClaim_withDraft (s : State) (p : Port) (k : Nat → Draft → State) :
    s.withClaim p (fun id => s.withDraft p (k id)) = s.withDraft p (fun d => s.withClaim p (fun id => k id d)) := by
  cases hc : (s.port p).claim with
  | none => rw [State.withClaim_of_none _ hc, State.withDraft_of_no_claim _ hc]
  | some id =>
    rw [State.withClaim_of_some _ hc]
    simp only [State.withClaim_of_some _ hc]

theorem needsDraft_commit (p : Port) : NeedsDraft p (.commit p []) :=
  fun s h => ⟨_, (exec_commit_ready h).trans (congrArg _ (State.withClaim_withDraft ..))⟩

theorem exec_needsDraft {p : Port} {i : Instr} {s : State} (hi : NeedsDraft p i) (h : s.ready p i) :
    ((s.port p).claim = none → exec i s = .next (s.answered p i (noReply .noclaim)))
      ∧ ((s.port p).claim ≠ none → (s.port p).draft = none → exec i s = .next (s.answered p i (noReply .nodraft))) := by
  obtain ⟨k, hk⟩ := hi s h
  refine ⟨fun hc => ?_, fun hc hd => ?_⟩
  · rw [hk, State.withDraft_of_no_claim _ ((State.taken_claim ..).trans hc), taken_no]
  · rw [hk, State.withDraft_of_no_draft _ (by rwa [State.taken_claim]) ((State.taken_draft ..).trans hd), taken_no]

/-- Settles O21: each draft command's body stands behind the guard for a draft, OPEN's and RETIRE's behind the one for a claim. -/
theorem draftCommandsNeedADraft : Obligations.DraftCommandsNeedADraft := by
  refine ⟨fun p i s hi h => exec_needsDraft ?_ h, fun p i s hi h hc => ?_⟩
  · rcases hi with ⟨a, b, rfl, ha, hb⟩ | ⟨args, rfl, ha⟩ | ⟨args, rfl, ha⟩ | ⟨a, rfl, ha⟩ | ⟨args, rfl, ha⟩ | ⟨args, rfl, ha⟩
      | ⟨args, rfl, ha⟩ | ⟨args, rfl, ha⟩ | rfl | rfl
    · obtain ⟨x, hx⟩ := Option.isSome_iff_exists.mp ha
      obtain ⟨y, hy⟩ := Option.isSome_iff_exists.mp hb
      exact fun s h => ⟨_, exec_window_ready h (numbers?_cons hx (numbers?_cons hy rfl))⟩
    · exact needsDraft_putFrom ha (fun s h => exec_put_ready h)
    · exact needsDraft_putFrom ha (fun s h => exec_more_ready h)
    · obtain ⟨x, hx⟩ := Option.isSome_iff_exists.mp ha
      exact fun s h => ⟨_, exec_cut_ready h (numbers?_cons hx rfl)⟩
    · exact needsDraft_span ha
    · exact (needsDraft_head ha).1
    · exact (needsDraft_head ha).2
    · exact needsDraft_label ha
    · exact fun s h => ⟨_, exec_discard_ready h⟩
    · exact needsDraft_commit p
  · rcases hi with rfl | rfl
    · rw [exec_openDraft_ready h, State.withClaim_of_none _ ((State.taken_claim ..).trans hc), taken_no]
    · show Host.Outcome.next _ = _
      rw [takeLine_ready _ h, State.withNone_nil, State.withClaim_of_none _ ((State.taken_claim ..).trans hc), taken_no]

/-! ## COMMIT taken (R73) -/

/-- Test 4 of R73, read off the line (R12, R77). -/
theorem commitBarred_iff (l : Line) (d : Draft) : commitBarred l d = true ↔
    l.lifecycle.kind = .complete ∨ l.lifecycle.kind = .abandoned ∨ (l.lifecycle.kind = .active
      ∧ (d.parent ≠ l.parent? ∨ (d.parent ≠ none ∧ d.junction ≠ l.outlet.map (fun o => o.junction)))) := by
  unfold commitBarred
  cases l.lifecycle with
  | active r st => simp [Lifecycle.kind, ← Option.isSome_iff_ne_none]
  | planned => simp [Lifecycle.kind]
  | complete => simp [Lifecycle.kind]
  | abandoned => simp [Lifecycle.kind]

theorem taken_commitRefusal? (s : State) (p : Port) (row : Instr) (id : Nat) (d : Draft) :
    (s.taken p row).commitRefusal? id d = s.commitRefusal? id d := by
  simp only [State.commitRefusal?, taken_line?, State.taken_recheck, State.taken_store]

theorem any_line_iff {o : Option Line} {f : Line → Bool} : o.any f = true ↔ ∃ l, o = some l ∧ f l = true := by
  simp [Option.any_eq_true]

/-- A commit in flight with nothing but its port changed (R73). -/
theorem taken_beginCommit (s : State) (p : Port) (row : Instr) (id : Nat) :
    (s.taken p row).beginCommit p id = s.updPort p (fun q =>
      { q with buffer := emptyBuffer, lapse := none, hand := .waiting row
               commit := some { was := (s.line? id).map (fun l => l.lifecycle.kind), reached := false,
                                check := { made := 0, failure := none } } }) := by
  rw [State.beginCommit, taken_line?]
  cases p <;> rfl

/-- COMMIT of an open draft under a claim. -/
theorem exec_commit_draft {p : Port} {id : Nat} {d : Draft} {s : State} (h : s.ready p (.commit p [])) (hc : (s.port p).claim = some id)
    (hd : (s.port p).draft = some d) : exec (.commit p []) s = .next (match s.commitRefusal? id d with
      | some r => s.answered p (.commit p []) (noReply r)
      | none => (s.taken p (.commit p [])).beginCommit p id) := by
  rw [exec_commit_ready h]
  simp only [State.withClaim_of_some _ ((State.taken_claim ..).trans hc), taken_withDraft _ (hc ▸ Option.some_ne_none id) hd,
    taken_commitRefusal?]
  cases s.commitRefusal? id d with
  | none => rfl
  | some r => simp only [taken_no]

/-- Settles O29: the tests of R73 in their order, each read off the line. -/
theorem commitGoesInFlight : Obligations.CommitGoesInFlight := by
  intro p id d s h hc hd barred outdated full
  have hbar : (s.line? id).any (fun l => commitBarred l d) = true ↔ barred := by
    simp only [any_line_iff, commitBarred_iff]; exact Iff.rfl
  have hout : (s.line? id).any (fun l => d.base != some l.revision) = true ↔ outdated := by
    simp only [any_line_iff, bne_iff_ne]; exact Iff.rfl
  have hfull : ((s.line? id).isNone && decide (Config.maxLines ≤ s.store.lines.length)) = true ↔ full := by
    rw [Bool.and_eq_true, Option.isNone_iff_eq_none, decide_eq_true_eq]; exact Iff.rfl
  rw [exec_commit_draft h hc hd, State.commitRefusal?]
  refine ⟨fun h1 => ?_, fun h1 h2 => ?_, fun h1 h2 h3 => ?_, fun h1 h2 h3 h4 => ?_, fun h1 h2 h3 h4 => ?_⟩
  · rw [if_pos (hbar.mpr h1)]
  · rw [if_neg (mt hbar.mp h1), if_pos h2]
  · rw [if_neg (mt hbar.mp h1), if_neg (by simp [h2]), if_pos (hout.mpr h3)]
  · rw [if_neg (mt hbar.mp h1), if_neg (by simp [h2]), if_neg (mt hout.mp h3), if_pos (hfull.mpr h4)]
  · rw [if_neg (mt hbar.mp h1), if_neg (by simp [h2]), if_neg (mt hout.mp h3), if_neg (mt hfull.mp h4)]
    exact congrArg _ (taken_beginCommit ..)

end Sys2Proof.Machine
end

section
/-! PROOF. What the module's own operations leave: the operations of the Re-check unit, the Run controller, the Chainage unit and the
Depth evaluator alter lines in place, raise events and let commits in flight read on, and touch nothing else of the store, the ports and
the queue. Said once of each operation, and used by every law that a step keeps. -/
namespace Sys2Proof.Machine

/-! ## Lines altered in place -/

/-- A record altered in place: its id and outlet stand, it does not become ACTIVE, and of a line that is not ACTIVE the check status alone
may change. -/
def Line.altersTo (l m : Line) : Prop :=
  m.id = l.id ∧ m.outlet = l.outlet ∧ (m.isActive = true → l.isActive = true) ∧ (l.isActive = false → m = { l with status := m.status })

theorem Line.altersTo_refl (l : Line) : l.altersTo l := ⟨rfl, rfl, fun h => h, fun _ => rfl⟩

theorem Line.altersTo_trans {l m n : Line} (h : l.altersTo m) (h' : m.altersTo n) : l.altersTo n := by
  obtain ⟨hid, hout, hact, hst⟩ := h
  obtain ⟨hid', hout', hact', hst'⟩ := h'
  refine ⟨hid'.trans hid, hout'.trans hout, fun h => hact (hact' h), fun h => ?_⟩
  have hm := hst h
  have hmi : m.isActive = false := by rw [hm]; exact h
  have hn := hst' hmi
  rw [hm] at hn
  exact hn

/-- A record of which the ACTIVE one alone is changed, and its id and outlet are left. -/
theorem Line.altersTo_active {f : Line → Line} (hid : ∀ l, (f l).id = l.id) (hout : ∀ l, (f l).outlet = l.outlet) (l : Line) :
    l.altersTo (if l.isActive then f l else l) := by
  cases h : l.isActive with
  | true => exact ⟨hid l, hout l, fun _ => h, fun h' => nomatch h.symm.trans h'⟩
  | false => exact Line.altersTo_refl l

theorem Line.altersTo_status (l : Line) (x : CheckStatus) : l.altersTo { l with status := x } :=
  ⟨rfl, rfl, fun h => h, fun _ => rfl⟩

theorem Line.setStaged_of_not_active {l : Line} (h : l.isActive = false) (st : Option Staged) : l.setStaged st = l := by
  unfold Line.setStaged
  split
  · rename_i hl
    simp [Line.isActive, hl, Lifecycle.kind] at h
  · rfl

theorem Line.updRun_of_not_active {l : Line} (h : l.isActive = false) (f : RunContext → RunContext) : l.updRun f = l := by
  unfold Line.updRun
  split
  · rename_i hl
    simp [Line.isActive, hl, Lifecycle.kind] at h
  · rfl

theorem Line.updRun_outlet (l : Line) (f : RunContext → RunContext) : (l.updRun f).outlet = l.outlet := by
  unfold Line.updRun; split <;> rfl

theorem Line.altersTo_setStaged (l : Line) (st : Option Staged) : l.altersTo (l.setStaged st) :=
  ⟨l.setStaged_id st, l.setStaged_outlet st, fun h => by rwa [Line.setStaged_isActive] at h,
   fun h => by rw [Line.setStaged_of_not_active h]⟩

theorem Line.altersTo_updRun (l : Line) (f : RunContext → RunContext) : l.altersTo (l.updRun f) :=
  ⟨l.updRun_id f, l.updRun_outlet f, fun h => by rwa [Line.updRun_isActive] at h, fun h => by rw [Line.updRun_of_not_active h]⟩

theorem Line.altersTo_marked (l : Line) : l.altersTo l.marked :=
  Line.altersTo_trans (l.altersTo_setStaged none) (Line.altersTo_status _ _)

/-! ## Slots of the pool -/

theorem Line.slots_congr {l m : Line} (hp : m.profile.length = l.profile.length) (hs : m.staged? = l.staged?) : m.slots = l.slots := by
  rw [Line.slots, Line.slots, hp, hs]

theorem Line.slots_unstaged {l m : Line} (hp : m.profile.length = l.profile.length) (hs : m.staged? = none) : m.slots ≤ l.slots := by
  rw [Line.slots, Line.slots, hp, hs]
  exact Nat.le_add_right _ _

theorem Line.setStaged_none_staged? (l : Line) : (l.setStaged none).staged? = none := by
  unfold Line.setStaged Line.staged?
  rcases h : l.lifecycle <;> simp [h]

theorem Line.slots_setStaged_none (l : Line) : (l.setStaged none).slots ≤ l.slots :=
  Line.slots_unstaged (by rw [Line.setStaged_profile]) l.setStaged_none_staged?

theorem Line.slots_marked (l : Line) : l.marked.slots ≤ l.slots := l.slots_setStaged_none

theorem Line.slots_updRun (l : Line) (f : RunContext → RunContext) : (l.updRun f).slots = l.slots :=
  Line.slots_congr (by rw [Line.updRun_profile]) (l.updRun_staged? f)

/-! ## The store altered in place -/

/-- The store after records were altered in place: stations and settings stand, no record comes or goes, and with one ACTIVE line no
more slots of the pool are held. -/
def Store.altersTo (a b : Store) : Prop :=
  b.stations = a.stations ∧ b.settings = a.settings ∧ (∃ f : Line → Line, b.lines = a.lines.map f ∧ ∀ l : Line, l.altersTo (f l))
    ∧ (a.oneActive → b.heldSlots ≤ a.heldSlots)

/-- With one ACTIVE line, two ACTIVE records are the same. -/
theorem Store.oneActive_unique {a : Store} (h : a.oneActive) {l m : Line} (hl : l ∈ a.lines) (hla : l.isActive = true)
    (hm : m ∈ a.lines) (hma : m.isActive = true) : l = m := by
  have hl' : l ∈ a.lines.filter Line.isActive := List.mem_filter.mpr ⟨hl, hla⟩
  have hm' : m ∈ a.lines.filter Line.isActive := List.mem_filter.mpr ⟨hm, hma⟩
  rcases hf : a.lines.filter Line.isActive with _ | ⟨x, _ | ⟨y, ys⟩⟩
  · simp [hf] at hl'
  · rw [hf, List.mem_singleton] at hl' hm'
    rw [hl', hm']
  · have : (a.lines.filter Line.isActive).length ≤ 1 := h
    simp [hf] at this

theorem Store.oneActive_map {a : Store} {f : Line → Line} (hf : ∀ l, (f l).isActive = true → l.isActive = true) (h : a.oneActive) :
    ((a.lines.map f).filter Line.isActive).length ≤ 1 := by
  refine le_trans ?_ h
  rw [List.filter_map, List.length_map]
  exact (List.monotone_filter_right a.lines (fun l hl => hf l hl)).length_le

theorem Store.altersTo_refl (a : Store) : a.altersTo a :=
  ⟨rfl, rfl, ⟨id, (List.map_id _).symm, Line.altersTo_refl⟩, fun _ => le_rfl⟩

theorem Store.altersTo_oneActive {a b : Store} (h : a.altersTo b) (ha : a.oneActive) : b.oneActive := by
  obtain ⟨-, -, ⟨f, hf, hl⟩, -⟩ := h
  show (b.lines.filter Line.isActive).length ≤ 1
  rw [hf]
  exact Store.oneActive_map (fun l => (hl l).2.2.1) ha

theorem Store.altersTo.trans {a b c : Store} (h : a.altersTo b) (h' : b.altersTo c) : a.altersTo c := by
  have hone := Store.altersTo_oneActive h
  obtain ⟨hst, hset, ⟨f, hf, hl⟩, hs⟩ := h
  obtain ⟨hst', hset', ⟨g, hg, hl'⟩, hs'⟩ := h'
  refine ⟨hst'.trans hst, hset'.trans hset, ⟨g ∘ f, by rw [hg, hf, List.map_map], fun l => Line.altersTo_trans (hl l) (hl' _)⟩, fun h => ?_⟩
  exact (hs' (hone h)).trans (hs h)

theorem Store.altersTo_map {a : Store} {f : Line → Line} (hl : ∀ l : Line, l.altersTo (f l))
    (hs : a.oneActive → ∀ l ∈ a.lines, (f l).slots ≤ l.slots) : a.altersTo { a with lines := a.lines.map f } := by
  refine ⟨rfl, rfl, ⟨f, rfl, hl⟩, fun h => ?_⟩
  simp only [Store.heldSlots, List.map_map]
  exact List.sum_le_sum (fun l hm => hs h l hm)

/-! ## Ports at rest -/

/-- A port that the module's own work passes by: its event set is raised in, a commit in flight reads on or is reached; all else stands. -/
def PortState.altersTo (q r : PortState) : Prop :=
  r = { q with events := r.events, commit := r.commit } ∧ (kindsLaw q.events → kindsLaw r.events)
    ∧ r.commit.map (fun c => c.was) = q.commit.map (fun c => c.was) ∧ (q.passedLaw → r.passedLaw)

theorem PortState.altersTo_refl (q : PortState) : q.altersTo q := ⟨rfl, id, rfl, id⟩

theorem PortState.altersTo.trans {q r x : PortState} (h : q.altersTo r) (h' : r.altersTo x) : q.altersTo x := by
  obtain ⟨he, hk, hw, hp⟩ := h
  obtain ⟨he', hk', hw', hp'⟩ := h'
  refine ⟨?_, fun h => hk' (hk h), hw'.trans hw, fun h => hp' (hp h)⟩
  rw [he] at he'
  exact he'

theorem kindsLaw_setKind (e : EventKind) (es : List EventKind) : kindsLaw (setKind e es) := by
  show setKind e es = EventKind.all.filter (fun k => (setKind e es).contains k)
  conv_lhs => rw [setKind]
  refine List.filter_congr (fun k _ => ?_)
  rw [Bool.eq_iff_iff, List.contains_iff_mem, mem_setKind]
  simp

theorem PortState.altersTo_raise (q : PortState) (e : EventKind) : q.altersTo { q with events := setKind e q.events } :=
  ⟨rfl, fun _ => kindsLaw_setKind e _, rfl, id⟩

theorem PortState.altersTo_reach (q : PortState) (st : Store) (c : Change) : q.altersTo (q.reach st c) := by
  obtain ⟨he, hw⟩ := PortState.reach_eq q st c
  refine ⟨?_, fun h => ?_, hw, fun h => ?_⟩
  · conv_lhs => rw [he]
    rw [show (q.reach st c).events = q.events by rw [he]]
  · rw [he]; exact h
  · unfold PortState.reach
    split
    · intro k hk id hid d hd hf
      obtain ⟨k0, hk0, rfl⟩ := Option.map_eq_some_iff.mp hk
      exact h k0 hk0 id hid d hd hf
    · exact h

/-! ## A commit in flight that reads on (R43, R48, R50) -/

theorem firstDisorder_none {k : Nat} {ps : List Point} (h : firstDisorder k ps = none) :
    ps.Pairwise (fun a b => a.chainage < b.chainage) := by
  rw [← List.isChain_iff_pairwise]
  induction ps generalizing k with
  | nil => exact .nil
  | cons p ps ih =>
    cases ps with
    | nil => exact .singleton p
    | cons q rest =>
      unfold firstDisorder at h
      split at h
      · rename_i hlt
        exact .cons_cons hlt (ih h)
      · cases h

/-- ORDER passed: the chainages rise from 0. -/
theorem ascending_of_orderTest {u : Subject} (h : orderTest u = none) : ascending u.points := by
  unfold orderTest at h
  split at h
  · rename_i hp
    rw [hp]
    exact ⟨.nil, fun a ha => nomatch ha⟩
  · rename_i p rest hp
    split at h
    · cases h
    · rename_i h0
      split at h
      · cases h
      · rename_i hd
        have hpw := firstDisorder_none hd
        refine ⟨hpw, fun a ha => ?_⟩
        have h0 : p.chainage = 0 := not_not.mp h0
        rw [hp] at hpw ha
        rcases List.mem_cons.mp ha with rfl | ha
        · omega
        · have := List.rel_of_pairwise_cons hpw ha
          omega

theorem length_of_lengthTest {u : Subject} (h : lengthTest u = none) : 5000 ≤ lengthOf u.points := by
  unfold lengthTest at h
  split at h
  · rename_i hw
    exact (within_iff.mp hw).1
  · cases h

theorem firstFailure_none {st : Store} {u : Subject} {ts : List CheckTest} (h : firstFailure st u ts = none) :
    ∀ t ∈ ts, t.run st u = none := List.findSome?_eq_none_iff.mp h

/-- The law that a check in flight has of a subject's tests it has made and passed. -/
theorem CheckRun.proceed_passed {c : CheckRun} {st : Store} {u : Subject} {n : Nat} {t : CheckTest}
    (hf : (c.proceed st u n).failure = none) (ht : t ∈ u.tests.take (c.proceed st u n).made) :
    c.failure = none ∧ (t ∈ u.tests.take c.made ∨ t.run st u = none) := by
  unfold CheckRun.proceed at hf ht
  split at hf
  · rename_i f hc
    rw [hc] at hf
    cases hf
  · rename_i hc
    simp only [hc, List.take_add, List.mem_append] at ht
    exact ⟨hc, ht.imp_right (firstFailure_none hf t)⟩

theorem PortState.proceed_passedLaw {q : PortState} (st : Store) (n : Nat) (h : q.passedLaw) : (q.proceed st n).passedLaw := by
  unfold PortState.proceed
  split
  · rename_i c u hc hu
    intro k hk id hid d hd hf made
    obtain rfl := Option.some.inj hk
    have hid : q.claim = some id := hid
    have hd : q.draft = some d := hd
    have huu : d.subject id = u := by
      simp only [PortState.subject?, hid, hd, Option.some.injEq] at hu
      exact hu
    subst huu
    have hold : c.check.failure = none → (CheckTest.order ∈ (d.subject id).tests.take c.check.made → ascending (present d.points))
        ∧ (CheckTest.length ∈ (d.subject id).tests.take c.check.made → 5000 ≤ lengthOf (present d.points)) := h c hc id hid d hd
    refine ⟨fun ho => ?_, fun hl => ?_⟩
    · obtain ⟨h1, h2⟩ := CheckRun.proceed_passed (c := c.check) hf ho
      exact h2.elim (hold h1).1 (ascending_of_orderTest (u := d.subject id))
    · obtain ⟨h1, h2⟩ := CheckRun.proceed_passed (c := c.check) hf hl
      exact h2.elim (hold h1).2 (length_of_lengthTest (u := d.subject id))
  · exact h

theorem PortState.altersTo_proceed (q : PortState) (st : Store) (n : Nat) : q.altersTo (q.proceed st n) := by
  obtain ⟨he, hw, -⟩ := PortState.proceed_eq q st n
  refine ⟨?_, fun h => ?_, hw, PortState.proceed_passedLaw st n⟩
  · conv_lhs => rw [he]
    rw [show (q.proceed st n).events = q.events by rw [he]]
  · rw [he]; exact h

/-! ## The module altered in place -/

/-- What the module's own work leaves: the queue of rows; the store but for records altered in place; the ports but for their events and
how far commits in flight have got; and no tie wait is set up. -/
def State.altersTo (s t : State) : Prop :=
  t.pending = s.pending ∧ s.store.altersTo t.store ∧ s.cab.altersTo t.cab ∧ s.plan.altersTo t.plan ∧ ∀ w ∈ t.run.wait, w ∈ s.run.wait

theorem State.altersTo_refl (s : State) : s.altersTo s :=
  ⟨rfl, Store.altersTo_refl _, PortState.altersTo_refl _, PortState.altersTo_refl _, fun _ h => h⟩

theorem State.altersTo.trans {s t u : State} (h : s.altersTo t) (h' : t.altersTo u) : s.altersTo u := by
  obtain ⟨hp, hst, hc, hl, hw⟩ := h
  obtain ⟨hp', hst', hc', hl', hw'⟩ := h'
  exact ⟨hp'.trans hp, Store.altersTo.trans hst hst', PortState.altersTo.trans hc hc', PortState.altersTo.trans hl hl',
    fun w h => hw w (hw' w h)⟩

theorem State.altersTo_mapLines {s : State} {f : Line → Line} (hl : ∀ l : Line, l.altersTo (f l))
    (hs : s.store.oneActive → ∀ l ∈ s.store.lines, (f l).slots ≤ l.slots) : s.altersTo (s.mapLines f) :=
  ⟨rfl, Store.altersTo_map hl hs, PortState.altersTo_refl _, PortState.altersTo_refl _, fun _ h => h⟩

/-- The ACTIVE line changed, its id, outlet and number of slots left or fewer. -/
theorem State.altersTo_updActive {s : State} {f : Line → Line} (hid : ∀ l, (f l).id = l.id) (hout : ∀ l, (f l).outlet = l.outlet)
    (hs : ∀ l, (f l).slots ≤ l.slots) : s.altersTo (s.updActive f) :=
  State.altersTo_mapLines (Line.altersTo_active hid hout) (fun _ l _ => by split; exacts [hs l, le_rfl])

theorem State.altersTo_updRun (s : State) (f : RunContext → RunContext) : s.altersTo (s.updRun f) :=
  State.altersTo_updActive (fun l => l.updRun_id f) (fun l => l.updRun_outlet f) (fun l => (l.slots_updRun f).le)

theorem State.altersTo_status (s : State) (id : Nat) (x : CheckStatus) : s.altersTo (s.updLine id (fun l => { l with status := x })) :=
  State.altersTo_mapLines (fun l => by split; exacts [l.altersTo_status x, l.altersTo_refl]) (fun _ l _ => by split <;> exact le_rfl)

theorem State.altersTo_updRecheck (s : State) (f : Recheck → Recheck) : s.altersTo (s.updRecheck f) := State.altersTo_refl s
theorem State.altersTo_updLink (s : State) (f : Link → Link) : s.altersTo (s.updLink f) := State.altersTo_refl s
theorem State.altersTo_updChain (s : State) (f : Chain → Chain) : s.altersTo (s.updChain f) := State.altersTo_refl s
theorem State.altersTo_updEval (s : State) (f : Evaluator → Evaluator) : s.altersTo (s.updEval f) := State.altersTo_refl s
theorem State.altersTo_updRunUnit (s : State) {f : RunUnit → RunUnit} (hf : ∀ w ∈ (f s.run).wait, w ∈ s.run.wait) :
    s.altersTo (s.updRunUnit f) :=
  ⟨rfl, Store.altersTo_refl _, PortState.altersTo_refl _, PortState.altersTo_refl _, hf⟩

theorem State.altersTo_raise (s : State) (e : EventKind) : s.altersTo (s.raise e) :=
  ⟨rfl, Store.altersTo_refl _, PortState.altersTo_raise _ e, PortState.altersTo_raise _ e, fun _ h => h⟩

/-- Nothing but the Re-check unit and the event sets is touched by the unit at work. -/
theorem State.altersTo_ite (s : State) (c : Prop) [Decidable c] {t : State} (h : s.altersTo t) : s.altersTo (if c then t else s) := by
  split
  · exact h
  · exact State.altersTo_refl s

end Sys2Proof.Machine
end

section
/-! PROOF. Each operation of the Re-check unit, the Run controller, the Chainage unit and the Depth evaluator alters the module in place, in
the order of the model's files. -/
namespace Sys2Proof.Machine

/-! ## Checks in flight, marks and the Re-check unit -/

theorem State.altersTo_proceedChecks (s : State) : s.altersTo s.proceedChecks :=
  ⟨rfl, Store.altersTo_refl _, PortState.altersTo_proceed _ _ _, PortState.altersTo_proceed _ _ _, fun _ h => h⟩

theorem State.altersTo_reach (s : State) (c : Change) : s.altersTo (s.reach c) :=
  ⟨rfl, Store.altersTo_refl _, PortState.altersTo_reach _ _ _, PortState.altersTo_reach _ _ _, fun _ h => h⟩

theorem State.altersTo_evalBacklog (s : State) : s.altersTo s.evalBacklog := by
  unfold State.evalBacklog
  dsimp only
  split
  · exact (s.altersTo_updRecheck _).trans (State.altersTo_raise _ _)
  · exact State.altersTo_ite _ _ ((s.altersTo_updRecheck _).trans (State.altersTo_raise _ _))

theorem State.altersTo_sweptTest (s : State) : s.altersTo s.sweptTest := State.altersTo_ite _ _ (s.altersTo_raise _)

theorem State.altersTo_scanTo (s : State) (id : Nat) : s.altersTo (s.scanTo id) :=
  (s.altersTo_updRecheck _).trans (State.altersTo_updRecheck _ _)

theorem State.altersTo_endPass (s : State) : s.altersTo s.endPass :=
  ((s.altersTo_updRecheck _).trans (State.altersTo_evalBacklog _)).trans (State.altersTo_sweptTest _)

theorem State.altersTo_beginPass (s : State) : s.altersTo s.beginPass := by
  unfold State.beginPass
  dsimp only
  split
  · exact (s.altersTo_updRecheck _).trans (State.altersTo_scanTo _ _)
  · exact (s.altersTo_updRecheck _).trans (State.altersTo_endPass _)

theorem State.altersTo_firstWork (s : State) : s.altersTo s.firstWork := State.altersTo_ite _ _ s.altersTo_beginPass

theorem State.altersTo_discardCheck (s : State) (id : Nat) : s.altersTo (s.discardCheck id) := s.altersTo_updRecheck _

theorem State.altersTo_applyMark (s : State) (id : Nat) : s.altersTo (s.applyMark id) :=
  ((s.altersTo_updRecheck _).trans (State.altersTo_discardCheck _ _)).trans (State.altersTo_evalBacklog _)

theorem State.altersTo_noteDrop (s : State) (id : Nat) (r : DropReason) : s.altersTo (s.noteDrop id r) :=
  (s.altersTo_raise _).trans (State.altersTo_updRunUnit _ (fun _ h => h))

theorem State.altersTo_writeMarks (s : State) (target : Line → Bool) : s.altersTo (s.writeMarks target) :=
  State.altersTo_mapLines (fun l => by split; exacts [l.altersTo_marked, l.altersTo_refl])
    (fun _ l _ => by split; exacts [l.slots_marked, le_rfl])

theorem State.altersTo_noteMarkDrop (s : State) (before : List Line) (target : Line → Bool) :
    s.altersTo (s.noteMarkDrop before target) := by
  unfold State.noteMarkDrop
  split
  · exact s.altersTo_noteDrop _ _
  · exact s.altersTo_refl

theorem State.altersTo_marks (ids : List Nat) (s : State) : s.altersTo (ids.foldl State.applyMark s) := by
  induction ids generalizing s with
  | nil => exact s.altersTo_refl
  | cons id ids ih => exact (s.altersTo_applyMark id).trans (ih _)

theorem State.altersTo_markLines (s : State) (target : Line → Bool) : s.altersTo (s.markLines target) := by
  rw [State.markLines_eq, State.markBase]
  have h : s.altersTo (s.beforeMarks target) := by
    unfold State.beforeMarks
    split
    · exact s.altersTo_refl
    · exact s.altersTo_firstWork
  exact ((h.trans (State.altersTo_writeMarks _ _)).trans (State.altersTo_noteMarkDrop _ _ _)).trans (State.altersTo_marks _ _)

theorem State.altersTo_markingChange (s : State) (c : Change) : s.altersTo (s.markingChange c) :=
  (s.altersTo_reach c).trans (State.altersTo_markLines _ _)

theorem State.altersTo_unqueue (s : State) (id : Nat) : s.altersTo (s.unqueue id) :=
  State.altersTo_ite _ _ ((s.altersTo_updRecheck _).trans (State.altersTo_evalBacklog _))

theorem State.altersTo_carryPass (s : State) (pos : Nat) : s.altersTo (s.carryPass pos) := by
  unfold State.carryPass
  split
  · exact s.altersTo_scanTo _
  · split
    · exact s.altersTo_beginPass
    · exact s.altersTo_endPass

theorem State.altersTo_lookForWork (s : State) : s.altersTo s.lookForWork := by
  unfold State.lookForWork
  split
  · exact s.altersTo_refl
  · exact ((s.altersTo_updRecheck _).trans (State.altersTo_updRecheck _ _)).trans (State.altersTo_evalBacklog _)
  · split
    · split
      · exact s.altersTo_beginPass
      · exact s.altersTo_carryPass _
    · exact s.altersTo_refl

theorem State.altersTo_carryAfter (s : State) (o : Origin) : s.altersTo (s.carryAfter o) := by
  unfold State.carryAfter
  split
  · exact s.altersTo_carryPass _
  · exact s.altersTo_refl

theorem State.altersTo_writeResult (s : State) (id : Nat) (r : Option Failure) : s.altersTo (s.writeResult id r) := by
  cases r with
  | none => exact s.altersTo_status id _
  | some f => exact (s.altersTo_status id _).trans (State.altersTo_raise _ _)

/-- The write of a completed check, before the unit looks for work (R88). -/
def State.checkWritten (s : State) (f : InFlight) : State :=
  if f.discard then s
  else match s.line? f.id with
    | none => s
    | some l => s.writeResult f.id (f.check.result s.store l.subject)

theorem State.finishRecheck_eq (s : State) (f : InFlight) : s.finishRecheck f =
    ((((s.checkWritten f).updRecheck (fun r => { r with inFlight := none })).carryAfter f.origin).sweptTest).lookForWork := rfl

theorem State.altersTo_checkWritten (s : State) (f : InFlight) : s.altersTo (s.checkWritten f) := by
  unfold State.checkWritten
  split
  · exact s.altersTo_refl
  · split
    · exact s.altersTo_refl
    · exact s.altersTo_writeResult _ _

theorem State.altersTo_finishRecheck (s : State) (f : InFlight) : s.altersTo (s.finishRecheck f) := by
  rw [State.finishRecheck_eq]
  exact ((((s.altersTo_checkWritten f).trans (State.altersTo_updRecheck _ _)).trans (State.altersTo_carryAfter _ _)).trans
    (State.altersTo_sweptTest _)).trans (State.altersTo_lookForWork _)

/-! ## The Run controller -/

theorem State.altersTo_raiseEntry (s : State) (r : RunState) : s.altersTo (s.raiseEntry r) := by
  cases r <;> first | exact s.altersTo_refl | exact s.altersTo_raise _

theorem State.altersTo_changeRun (s : State) (r : RunState) : s.altersTo (s.changeRun r) :=
  ((((s.altersTo_updRun _).trans (State.altersTo_updRunUnit _ (fun _ h => h))).trans (State.altersTo_updEval _ _)).trans
    (State.altersTo_raise _ _)).trans (State.altersTo_raiseEntry _ _)

theorem State.altersTo_haltDigging (s : State) (h : HaltReason) : s.altersTo (s.haltDigging h) :=
  State.altersTo_ite _ _ (s.altersTo_changeRun _)

theorem State.altersTo_haltGrade (s : State) : s.altersTo s.haltGrade := State.altersTo_ite _ _ (s.altersTo_changeRun _)

theorem State.altersTo_suspendDigging (s : State) (r : SuspendReason) : s.altersTo (s.suspendDigging r) :=
  State.altersTo_ite _ _ (s.altersTo_changeRun _)

theorem State.altersTo_enterCoasting (s : State) : s.altersTo s.enterCoasting :=
  ((State.altersTo_updRunUnit s (fun _ h => h)).trans (State.altersTo_changeRun _ _)).trans
    (State.altersTo_ite _ _ (State.altersTo_changeRun _ _))

theorem State.altersTo_startTimer (s : State) (d : Nat) : s.altersTo (s.startTimer d) := State.altersTo_updRunUnit s (fun _ h => h)

theorem State.altersTo_setServing (s : State) (k : Option Nat) : s.altersTo (s.setServing k) := s.altersTo_updEval _

theorem State.altersTo_afterSwitch (s : State) : s.altersTo s.afterSwitch := by
  unfold State.afterSwitch
  split
  · split
    · exact s.altersTo_startTimer _
    · exact s.altersTo_enterCoasting
  · exact s.altersTo_refl

theorem State.altersTo_moveServing (s : State) (held : Option StationId) : s.altersTo (s.moveServing held) := by
  unfold State.moveServing
  split
  · dsimp only
    split
    · exact s.altersTo_refl
    · exact (s.altersTo_setServing _).trans (State.altersTo_afterSwitch _)
  · exact State.altersTo_ite _ _ (s.altersTo_setServing _)

theorem length_updNth (k : Nat) (f : Breakpoint → Breakpoint) (bs : List Breakpoint) : (updNth k f bs).length = bs.length := by
  simp [updNth]

/-- The profile of the ACTIVE line changed, no breakpoint coming or going. -/
theorem State.altersTo_profile (s : State) {g : Line → List Breakpoint} (hg : ∀ l, (g l).length = l.profile.length) :
    s.altersTo (s.updActive (fun l => { l with profile := g l })) :=
  State.altersTo_updActive (fun _ => rfl) (fun _ => rfl) 
    (fun l => (Line.slots_congr (l := l) (m := { l with profile := g l }) (hg l) rfl).le)

theorem State.altersTo_enterSegment (s : State) (k : Nat) : s.altersTo (s.enterSegment k) :=
  s.altersTo_profile (fun l => length_updNth k _ l.profile)

theorem length_closeEnded (bs : List Breakpoint) (backup f : Int) : (closeEnded bs backup f).length = bs.length := by
  simp [closeEnded]

theorem State.altersTo_closePassed (s : State) (f : Int) : s.altersTo (s.closePassed f) := by
  unfold State.closePassed
  split
  · exact s.altersTo_refl
  · exact State.altersTo_ite _ _ ((s.altersTo_profile (fun l => length_closeEnded l.profile _ f)).trans (State.altersTo_raise _ _))

theorem State.altersTo_closeAll (s : State) : s.altersTo (s.updActive Line.closeAll) :=
  s.altersTo_profile (fun l => List.length_map _)

/-- The ACTIVE line leaves ACTIVE (R12). -/
theorem State.altersTo_leaveActive (s : State) {x : Lifecycle} (hx : x.kind ≠ .active) : s.altersTo (s.leaveActive x) := by
  have hstaged : ∀ l : Line, ({ l with lifecycle := x } : Line).staged? = none := by
    intro l
    cases x with
    | active r st => exact absurd rfl hx
    | planned => rfl
    | complete => rfl
    | abandoned => rfl
  have hline : s.altersTo (s.updActive (fun l => { l with lifecycle := x })) :=
    State.altersTo_updActive (fun _ => rfl) (fun _ => rfl)
      (fun l => Line.slots_unstaged (m := { l with lifecycle := x }) rfl (hstaged l))
  have hwait : ∀ u : State, u.altersTo (u.updRunUnit (fun r => { r with coast := 0, timer := none, wait := none })) :=
    fun u => State.altersTo_updRunUnit u (by simp)
  exact (((hline.trans (State.altersTo_updChain _ _)).trans (hwait _)).trans (State.altersTo_updEval _ _)).trans
    (State.altersTo_raise _ _)

theorem State.altersTo_noteDropIf (s : State) (l : Line) (r : DropReason) : s.altersTo (s.noteDropIf l r) :=
  State.altersTo_ite _ _ (s.altersTo_noteDrop _ _)

theorem State.altersTo_dropStaged (s : State) (l : Line) (r : DropReason) : s.altersTo (s.dropStaged l r) :=
  (State.altersTo_updActive (fun l => l.setStaged_id none) (fun l => l.setStaged_outlet none) Line.slots_setStaged_none).trans
    (State.altersTo_noteDrop _ _ _)

theorem State.altersTo_fitToLength (s : State) (old : Line) : s.altersTo (s.fitToLength old) := by
  unfold State.fitToLength
  split
  · exact s.altersTo_refl
  · dsimp only
    split
    · exact (s.altersTo_updRun _).trans (State.altersTo_updChain _ _)
    · exact s.altersTo_updRun _

theorem Line.applied_id (l : Line) (st : Staged) : (l.applied st).id = l.id := l.setStaged_id none

theorem Line.applied_outlet (l : Line) (st : Staged) : (l.applied st).outlet = l.outlet := l.setStaged_outlet none

theorem Line.slots_applied {l : Line} {st : Staged} (h : l.staged? = some st) : (l.applied st).slots ≤ l.slots := by
  have hs : (l.applied st).staged? = none := l.setStaged_none_staged?
  have hp : (l.applied st).profile.length = st.profile.length := by simp [Line.applied]
  rw [Line.slots, Line.slots, hs, hp, h]
  simp

/-- The lists of the one ACTIVE line replaced by its staged ones hold no more slots than both did (R157). -/
theorem State.altersTo_applied {s : State} {l : Line} {st : Staged} (hl : s.active? = some l) (hst : l.staged? = some st) :
    s.altersTo (s.updActive (fun l => l.applied st)) := by
  refine State.altersTo_mapLines (Line.altersTo_active (fun l => l.applied_id st) (fun l => l.applied_outlet st)) (fun hone m hm => ?_)
  split
  · rename_i hma
    obtain ⟨hlm, hla⟩ := State.active?_mem hl
    rw [Store.oneActive_unique hone hm hma hlm hla]
    exact Line.slots_applied hst
  · exact le_rfl

theorem State.altersTo_applyStaged {s : State} {l : Line} {st : Staged} (hl : s.active? = some l) (hst : l.staged? = some st) :
    s.altersTo (s.applyStaged l st) := by
  have hl' : s.proceedChecks.active? = some l := hl
  exact ((((((s.altersTo_proceedChecks.trans (State.altersTo_applied hl' hst)).trans (State.altersTo_reach _ _)).trans
    (State.altersTo_discardCheck _ _)).trans (State.altersTo_markLines _ _)).trans (State.altersTo_fitToLength _ _)).trans
    (State.altersTo_moveServing _ _)).trans (State.altersTo_raise _ _)

theorem State.altersTo_applyOrDrop {s : State} {l : Line} {st : Staged} (hl : s.active? = some l) (hst : l.staged? = some st) :
    s.altersTo (s.applyOrDrop l st) := by
  unfold State.applyOrDrop
  split
  · exact State.altersTo_applyStaged hl hst
  · exact s.altersTo_dropStaged l _

/-- The staged revision is the ACTIVE line's. -/
theorem State.staged?_of {s : State} {l : Line} (h : s.active? = some l) : s.staged? = l.staged? := by simp [State.staged?, h]

/-! ## The walk -/

theorem State.altersTo_setFurthest (s : State) (f : Int) : s.altersTo (s.setFurthest f) := s.altersTo_updRun _

theorem State.altersTo_cross (s : State) (k : Nat) (c : Int) : s.altersTo (s.cross k c) := by
  refine ((s.altersTo_setFurthest c).trans (State.altersTo_enterSegment _ k)).trans ?_
  unfold State.cross
  dsimp only
  split
  · rename_i l st hl hst
    split
    · exact State.altersTo_applyOrDrop hl ((State.staged?_of hl).symm.trans hst)
    · exact State.altersTo_raise _ _
  · exact State.altersTo_refl _

theorem State.altersTo_actMark (s : State) (m : Option Mark) : s.altersTo (s.actMark m) :=
  (s.altersTo_raise _).trans (State.altersTo_ite _ _ (State.altersTo_suspendDigging _ _))

theorem State.altersTo_meetMark1 (s : State) (c : Int) : s.altersTo (s.meetMark1 c) :=
  ((s.altersTo_setFurthest c).trans (State.altersTo_actMark _ _)).trans (State.altersTo_updRun _ _)

theorem State.altersTo_meetMark2 (s : State) (c : Int) : s.altersTo (s.meetMark2 c) :=
  ((s.altersTo_setFurthest c).trans (State.altersTo_actMark _ _)).trans (State.altersTo_updRun _ _)

theorem State.altersTo_warnEnd (s : State) : s.altersTo s.warnEnd := (s.altersTo_updChain _).trans (State.altersTo_raise _ _)

theorem State.altersTo_complete (s : State) (l : Line) : s.altersTo (s.complete l) :=
  ((((s.altersTo_closeAll).trans (State.altersTo_ite _ _ (State.altersTo_raise _ _))).trans
    (State.altersTo_leaveActive _ (by simp [Lifecycle.kind]))).trans (State.altersTo_raise _ _)).trans (State.altersTo_noteDropIf _ _ _)

theorem State.altersTo_meet (s : State) (m : Meeting) : s.altersTo (s.meet m) := by
  unfold State.meet
  split
  · exact s.altersTo_cross _ _
  · exact s.altersTo_meetMark1 _
  · exact s.altersTo_meetMark2 _
  · exact s.altersTo_warnEnd
  · split
    · exact s.altersTo_complete _
    · exact s.altersTo_refl

theorem State.altersTo_walk (n : Nat) (s : State) (last : Meeting) (changedAt : Option Int) (new : Int) :
    s.altersTo (s.walk n last changedAt new) := by
  induction n generalizing s last changedAt with
  | zero => exact s.altersTo_refl
  | succ n ih =>
    unfold State.walk
    split
    · exact s.altersTo_refl
    · exact (s.altersTo_meet _).trans (ih _ _ _)

theorem State.altersTo_warnLate (s : State) (old : Int) : s.altersTo (s.warnLate old) := by
  unfold State.warnLate
  split
  · exact s.altersTo_refl
  · exact State.altersTo_ite _ _ s.altersTo_warnEnd

theorem State.altersTo_accrueCoast (s : State) (old new : Int) : s.altersTo (s.accrueCoast old new) :=
  s.altersTo_profile (fun l => by simp)

theorem State.altersTo_addCoast (s : State) (d : Int) : s.altersTo (s.addCoast d) :=
  (State.altersTo_updRunUnit s (fun _ h => h)).trans (State.altersTo_ite _ _ (State.altersTo_changeRun _ _))

theorem State.altersTo_handOn (s : State) (old new : Int) (coasting : Bool) : s.altersTo (s.handOn old new coasting) := by
  unfold State.handOn
  split
  · exact s.altersTo_refl
  · exact ((s.altersTo_setFurthest new).trans (State.altersTo_ite _ _ ((State.altersTo_accrueCoast _ _ _).trans
      (State.altersTo_addCoast _ _)))).trans (State.altersTo_closePassed _ _)

theorem State.altersTo_advance (s : State) (new : Int) (coasting : Bool) : s.altersTo (s.advance new coasting) := by
  unfold State.advance
  split
  · exact s.altersTo_refl
  · exact ((s.altersTo_warnLate _).trans (State.altersTo_walk _ _ _ _ _)).trans (State.altersTo_handOn _ _ _ _)

theorem State.altersTo_backtrackTest (s : State) : s.altersTo s.backtrackTest := by
  unfold State.backtrackTest
  split
  · exact s.altersTo_refl
  · exact State.altersTo_ite _ _ (s.altersTo_haltDigging _)

theorem State.altersTo_handChainage (s : State) (wasDigging wasCoasting : Bool) : s.altersTo (s.handChainage wasDigging wasCoasting) := by
  refine (s.altersTo_backtrackTest.trans (State.altersTo_moveServing _ s.servingStation?)).trans ?_
  unfold State.handChainage
  dsimp only
  split
  · exact State.altersTo_refl _
  · exact State.altersTo_ite _ _ (State.altersTo_advance _ _ _)

theorem State.altersTo_count (s : State) (forward : Bool) : s.altersTo (s.count forward) := by
  unfold State.count
  dsimp only
  split
  · split
    · exact s.altersTo_updChain _
    · exact (s.altersTo_updChain _).trans (State.altersTo_handChainage _ _ _)
  · exact s.altersTo_refl

theorem State.altersTo_validTransition (s : State) (ch : Channel) : s.altersTo (s.validTransition ch) := by
  have hlevels : s.altersTo (s.takeLevels (changeChannel s.chain.levels ch)) := s.altersTo_updChain _
  refine hlevels.trans ?_
  unfold State.validTransition State.applyCount
  dsimp only
  split
  · exact State.altersTo_count _ _
  · exact State.altersTo_count _ _
  · exact State.altersTo_refl _

/-! ## Strikes -/

theorem State.altersTo_updateGrade (s : State) (out : Bool) : s.altersTo (s.updateGrade out) := by
  unfold State.updateGrade
  extract_lets n flag
  split
  · exact (s.altersTo_updEval _).trans (State.altersTo_raise _ _)
  · exact s.altersTo_updEval _

theorem State.altersTo_accrue (s : State) (err : Option Int) : s.altersTo (s.accrue err) :=
  s.altersTo_profile (g := fun l => updNth (segmentIndex l.points s.chainage)
    (fun b => b.updOpen (fun k => k.accrue err s.eval.gradeFlag)) l.profile) (fun l => length_updNth _ _ l.profile)

theorem State.altersTo_setReference (s : State) (rd : Reading) : s.altersTo (s.setReference rd) := by
  unfold State.setReference
  split
  · exact s.altersTo_updEval _
  · exact s.altersTo_refl

theorem State.altersTo_drive (s : State) (rd : Reading) (err : Option Int) : s.altersTo (s.drive rd err) :=
  (s.altersTo_updEval _).trans (State.altersTo_setReference _ _)

theorem State.altersTo_evaluate (s : State) (rd : Reading) : s.altersTo (s.evaluate rd) := by
  refine ((s.altersTo_updateGrade (outOfTolerance s.settings (s.errorOf? rd))).trans (State.altersTo_accrue _ (s.errorOf? rd))).trans ?_
  unfold State.evaluate
  dsimp only
  split
  · exact State.altersTo_haltGrade _
  · exact State.altersTo_drive _ _ _

theorem State.altersTo_compareHandoff (s : State) (rd : Reading) : s.altersTo (s.compareHandoff rd) := by
  unfold State.compareHandoff
  split
  · exact State.altersTo_ite _ _ (s.altersTo_haltDigging _)
  · exact s.altersTo_refl

theorem State.altersTo_endCoast (s : State) : s.altersTo s.endCoast := (s.altersTo_changeRun _).trans (State.altersTo_startTimer _ _)

theorem State.altersTo_handEvaluator (s : State) (r : EvalRoute) (rd : Reading) : s.altersTo (s.handEvaluator r rd) := by
  cases r with
  | evaluation => exact (s.altersTo_startTimer _).trans (State.altersTo_evaluate _ _)
  | coastEnd => exact s.altersTo_endCoast.trans (State.altersTo_evaluate _ _)
  | reference => exact s.altersTo_setReference rd
  | comparison => exact s.altersTo_compareHandoff rd
  | nothing => exact s.altersTo_refl

theorem State.altersTo_endWait (s : State) : s.altersTo s.endWait := State.altersTo_updRunUnit s (fun _ h => nomatch h)

theorem State.altersTo_warnAtTie (s : State) (l : Line) : s.altersTo (s.warnAtTie l) :=
  (s.altersTo_updChain _).trans (State.altersTo_ite _ _ (State.altersTo_warnEnd _))

theorem State.altersTo_tieSucceeds (s : State) (l : Line) : s.altersTo (s.tieSucceeds l) :=
  ((((((s.altersTo_updChain _).trans (State.altersTo_warnAtTie _ l)).trans (State.altersTo_setFurthest _ 0)).trans
    (State.altersTo_enterSegment _ 0)).trans (State.altersTo_changeRun _ _)).trans (State.altersTo_updEval _ _)).trans
    (State.altersTo_startTimer _ _)

theorem State.altersTo_retieSucceeds (s : State) (c : Int) : s.altersTo (s.retieSucceeds c) :=
  ((s.altersTo_updChain _).trans (State.altersTo_updRun _ _)).trans (State.altersTo_moveServing _ _)

/-! ## Rows that act within the module -/

theorem State.altersTo_expireTimer (s : State) : s.altersTo s.expireTimer := State.altersTo_ite _ _ s.altersTo_enterCoasting

theorem State.altersTo_expireGap (s : State) : s.altersTo s.expireGap := State.altersTo_ite _ _ (s.altersTo_updLink _)

theorem State.altersTo_deselectLine (s : State) : s.altersTo s.deselectLine := by
  unfold State.deselectLine
  split
  · exact (s.altersTo_leaveActive (by simp [Lifecycle.kind])).trans (State.altersTo_noteDropIf _ _ _)
  · exact s.altersTo_refl

theorem State.altersTo_abandonLine (s : State) : s.altersTo s.abandonLine := by
  unfold State.abandonLine
  split
  · exact (((s.altersTo_proceedChecks.trans (State.altersTo_closeAll _)).trans
      (State.altersTo_leaveActive _ (by simp [Lifecycle.kind]))).trans (State.altersTo_noteDropIf _ _ _)).trans
      (State.altersTo_markingChange _ _)
  · exact s.altersTo_refl

theorem State.altersTo_enterCutting (s : State) (k : Strike) : s.altersTo (s.enterCutting k) :=
  (((s.altersTo_changeRun _).trans (State.altersTo_updRunUnit _ (fun _ h => h))).trans (State.altersTo_updEval _ _)).trans
    (State.altersTo_startTimer _ _)

theorem State.altersTo_resumeDig (s : State) (k : Strike) : s.altersTo (s.resumeDig k) :=
  (s.altersTo_enterCutting k).trans (State.altersTo_ite _ _ (State.altersTo_advance _ _ _))

theorem Line.setSettled_slots (l : Line) (b : Bool) :
    (l.setStaged (l.staged?.map (fun st => { st with settled := b }))).slots = l.slots := by
  unfold Line.slots Line.setStaged Line.staged?
  rcases h : l.lifecycle with _ | ⟨r, st⟩ | _ | _ <;> simp [h]
  cases st <;> rfl

theorem State.altersTo_setSettled (s : State) (b : Bool) : s.altersTo (s.setSettled b) :=
  State.altersTo_updActive (fun l => l.setStaged_id _) (fun l => l.setStaged_outlet _) (fun l => (l.setSettled_slots b).le)

theorem State.altersTo_zeroCounters (s : State) : s.altersTo s.zeroCounters := (s.altersTo_updLink _).trans (State.altersTo_updChain _ _)

end Sys2Proof.Machine
end

section
/-! PROOF. What a step can do, said once: every row leads to a move, and an empty queue to the moves of the timers that are due. The laws
that every step keeps are proved move by move. -/
namespace Sys2Proof.Machine

/-! ## The moves -/

/-- What a row can make of one port, nothing else changing. The command rows come to a port that is not busy. -/
inductive State.PortMoves (s : State) (p : Port) : PortState → Prop
  | byte (b : Byte) (framingError : Bool) :
    PortMoves s p { s.port p with buffer := LineBuffer.add (s.port p).buffer b framingError }
  | cleared : PortMoves s p { s.port p with buffer := emptyBuffer }
  | overran : PortMoves s p { s.port p with buffer := emptyBuffer, overrun := true }
  | bad (hb : s.busy p = false) :
    PortMoves s p { s.port p with buffer := emptyBuffer, lapse := none, hand := .sending none (noReply .syn) }
  | answered (hb : s.busy p = false) (row : Instr) (r : Reply) :
    PortMoves s p { s.port p with buffer := emptyBuffer, lapse := none, hand := .sending (some row) r }
  | replied (c : Option Instr) (r : Reply) (hh : (s.port p).hand = .sending c r) :
    PortMoves s p { s.port p with
      hand := .idle
      lapse := if (s.port p).claim.isSome then some (s.time + (s.settings.claimLapse * 1000).toNat) else none }
  | overrunReplied (c : Option Instr) (r : Reply) (hh : (s.port p).hand = .sending c r) :
    PortMoves s p { s.port p with hand := .sending none (noReply .overrun), overrun := false, lapse := none }
  | released (hb : s.busy p = false) (row : Instr) (r : Reply) :
    PortMoves s p { s.port p with
      buffer := emptyBuffer, lapse := none, hand := .sending (some row) r, claim := none, draft := none }
  | lapsed (hd : s.lapseDue p = true) :
    PortMoves s p { s.port p with claim := none, draft := none, lapse := none, events := setKind .lapse (s.port p).events }
  | claimed (hb : s.busy p = false) (row : Instr) (r : Reply) (id : Nat) (hlow : 1 ≤ id) (hhigh : id ≤ 999)
      (hother : (s.port (otherPort p)).claim ≠ some id) (hfree : (s.port p).claim = none) :
    PortMoves s p { s.port p with
      buffer := emptyBuffer, lapse := none, hand := .sending (some row) r, claim := some id, draft := none }
  | drafted (hb : s.busy p = false) (row : Instr) (r : Reply) (d : Draft) (hclaim : (s.port p).claim ≠ none)
      (hlaw : (∀ d ∈ (s.port p).draft, d.law) → d.law) :
    PortMoves s p { s.port p with buffer := emptyBuffer, lapse := none, hand := .sending (some row) r, draft := some d }
  | discarded (hb : s.busy p = false) (row : Instr) (r : Reply) :
    PortMoves s p { s.port p with buffer := emptyBuffer, lapse := none, hand := .sending (some row) r, draft := none }
  | committed (hb : s.busy p = false) (args : List Text) (id : Nat) (d : Draft) (hclaim : (s.port p).claim = some id)
      (hdraft : (s.port p).draft = some d) (hpass : s.commitRefusal? id d = none) :
    PortMoves s p { s.port p with
      buffer := emptyBuffer, lapse := none, hand := .waiting (.commit p args)
      commit := some { was := (s.line? id).map (fun l => l.lifecycle.kind), reached := false,
                       check := { made := 0, failure := none } } }
  | acked (hb : s.busy p = false) (row : Instr) (r : Reply) (gone : List EventKind) :
    PortMoves s p { s.port p with
      buffer := emptyBuffer, lapse := none, hand := .sending (some row) r, events := clearKinds gone (s.port p).events }
  | masked (hb : s.busy p = false) (row : Instr) (r : Reply) (e : EventKind) (on : Bool) :
    PortMoves s p { s.port p with
      buffer := emptyBuffer, lapse := none, hand := .sending (some row) r, mask := maskWith e on (s.port p).mask }

/-- What a command that passes its tests does, before its reply, to the state that has taken it. -/
inductive State.Acts (u : State) (p : Port) : State → Prop
  | retire (id : Nat) (hclaim : (u.port p).claim = some id) (hpass : u.retireRefusal? id = none) :
    Acts u p ((u.retireLine id).emptyClaim p)
  | recheck (id : Nat) (l : Line) (hl : u.line? id = some l) (hm : l.takesMarks = true) : Acts u p (u.markingChange (.line id))
  | define (n : StationId) (sig : Byte) (label : Option Text) (hn : u.store.stations.get n = .undefined)
      (hc : u.store.collides n sig = false) :
    Acts u p ((u.writeStation n (.inService { signature := sig, label := label, correction := 0 })).updLive n (fun _ => StationLive.reset))
  | plane (n : StationId) (d : StationData) (state : StationData → Station) (mm : Int)
      (hstate : state = Station.inService ∨ state = Station.withdrawn) (hn : u.store.stations.get n = state d)
      (huse : u.stationInUse n = false) :
    Acts u p ((u.writeStation n (state { d with correction := mm })).markingChange (.station n))
  | withdraw (n : StationId) (d : StationData) (hn : u.store.stations.get n = .inService d) (huse : u.stationInUse n = false) :
    Acts u p (((u.writeStation n (.withdrawn d)).updLive n (fun v => { v with last := none })).markingChange (.station n))
  | restore (n : StationId) (d : StationData) (hn : u.store.stations.get n = .withdrawn d)
      (hc : u.store.collides n d.signature = false) :
    Acts u p ((u.writeStation n (.inService d)).markingChange (.station n))
  | forget (n : StationId) (d : StationData) (hn : u.store.stations.get n = .withdrawn d) (huse : u.stationNamed n = false) :
    Acts u p ((u.writeStation n .undefined).updLive n (fun _ => StationLive.reset))
  | zeroCounters : Acts u p u.zeroCounters
  | select (id : Nat) (l : Line) (hidle : u.isIdle = true) (hl : u.line? id = some l) (hs : u.selectable l = true) :
    Acts u p (u.selectLine id)
  | deselect (ha : u.isArmed = true) : Acts u p u.deselectLine
  | suspend (hd : u.digging = true) : Acts u p (u.suspendDigging .operator)
  | resume (k : Strike) (hp : p = .cab) (hpass : u.resumeRefusal? = none) (hk : u.servingStrike? = some k) : Acts u p (u.resumeDig k)
  | abandon (ha : u.abandonable = true) : Acts u p u.abandonLine
  | mark (f : MarkForm) (hr : u.markInRange f.mark = true) : Acts u p (u.updRun (fun r => r.setMark f.number f.mark))
  | setSettled (b : Bool) : Acts u p (u.setSettled b)
  | settle (l : Line) (st : Staged) (hl : u.active? = some l) (hst : u.staged? = some st) (hd : u.digging = false) :
    Acts u p (u.applyOrDrop l st)
  | unstage (l : Line) (hl : u.active? = some l) : Acts u p (u.dropStaged l .unstage)
  | trim (fromTrim toTrim start : Int) : Acts u p (u.updRun (fun r => r.ramp fromTrim toTrim start))
  | set (name : SettingName) (v : SettingValue) (word : Text) (hv : settingValue? name word = .good v)
      (hpass : u.setRefusal? name v = none) : Acts u p (u.changeSetting name v)

/-- What a row that is no command, or one whose reply waits, does. -/
inductive State.Happens (s : State) : State → Prop
  | completeCommit (p : Port) (c : CommitRun) (id : Nat) (d : Draft) (hc : (s.port p).commit = some c) (hclaim : (s.port p).claim = some id)
      (hdraft : (s.port p).draft = some d) : Happens s (s.completeCommit p c id d)
  | lookForWork : Happens s s.lookForWork
  | finishRecheck (f : InFlight) (hf : s.recheck.inFlight = some f) : Happens s (s.finishRecheck f)
  | link (f : Link → Link) (hf : (f s.link).live = s.link.live) : Happens s (s.updLink f)
  | frame (f : Frame) : Happens s (s.finishFrame f)
  | transition (ch : Channel) : Happens s (s.validTransition ch)
  | invalid : Happens s (s.updChain Chain.invalid)
  | timer : Happens s s.expireTimer
  | waitOver (hd : s.waitDue = true) : Happens s (s.endWait.no .cab .nostrike)
  | tie (hr : s.ready .cab (.tie .cab [])) (ha : s.isArmed = true) :
    Happens s ((s.taken .cab (.tie .cab [])).startWait .tie (stationAt s.spanList 0) 0)
  | retie (args : List Text) (mm : Int) (hr : s.ready .cab (.retie .cab args)) (hs : s.stopped = true)
      (hlow : s.reachedF - s.settings.backup ≤ mm) (hhigh : mm ≤ s.reachedF) :
    Happens s ((s.taken .cab (.retie .cab args)).startWait .retie (stationAt s.spanList (spanIndex s.spanList mm)) mm)
  | restart : Happens s s.restart
  | clear (row : Instr) (hi : s.isIdle = true) : Happens s (s.clearStore row)
  | power (powered resetLow : Bool) : Happens s { s with powered := powered, resetLow := resetLow }
  | powerRestart (powered resetLow : Bool) : Happens s ({ s with powered := powered, resetLow := resetLow } : State).restart

/-- What one row can lead to. -/
inductive State.Moves (s : State) : State → Prop
  | stays : Moves s s
  | port (p : Port) {q : PortState} (h : s.PortMoves p q) : Moves s (s.updPort p (fun _ => q))
  | act (p : Port) (row : Instr) (r : Reply) {w : State} (hr : s.ready p row) (h : (s.taken p row).Acts p w) : Moves s (w.reply p r)
  | event {t : State} (h : s.Happens t) : Moves s t

end Sys2Proof.Machine
end

section
/-! PROOF. Every row leads to a move: the rows of the ports and the blocks, one by one, and with them the step. -/
namespace Sys2Proof.Machine

/-! ## Tests before an effect -/

/-! A property of states that every reply has passes through each of the tests that stand before a command's effect. -/
section Tests
variable {P : State → Prop} {u : State} {p : Port}

theorem State.withNone_keeps (hno : ∀ r, P (u.reply p r)) {args : List Text} {k : State} (hk : args = [] → P k) :
    P (u.withNone p args k) := by
  unfold State.withNone
  split
  · rename_i h
    exact hk (List.isEmpty_iff.mp h)
  · exact hno _

theorem State.withClaim_keeps (hno : ∀ r, P (u.reply p r)) {k : Nat → State} (hk : ∀ id, (u.port p).claim = some id → P (k id)) :
    P (u.withClaim p k) := by
  unfold State.withClaim
  split
  · exact hno _
  · rename_i id h
    exact hk id h

theorem State.withDraft_keeps (hno : ∀ r, P (u.reply p r)) {k : Draft → State}
    (hk : ∀ d, (u.port p).claim ≠ none → (u.port p).draft = some d → P (k d)) : P (u.withDraft p k) := by
  refine State.withClaim_keeps hno (fun id hid => ?_)
  split
  · exact hno _
  · rename_i d h
    exact hk d (by simp [hid]) h

theorem State.withId_keeps (hno : ∀ r, P (u.reply p r)) {args : List Text} {k : Nat → State}
    (hk : ∀ id, 1 ≤ id → id ≤ 999 → P (k id)) : P (u.withId p args k) := by
  unfold State.withId
  split
  · split
    · exact hno _
    · split
      · exact hno _
      · rename_i n _ id h
        unfold lineId? at h
        split at h
        · rename_i hw
          obtain ⟨h1, h2⟩ := within_iff.mp hw
          cases h
          exact hk _ (by omega) (by omega)
        · cases h
  · exact hno _

theorem State.withNumber_keeps (hno : ∀ r, P (u.reply p r)) {args : List Text} {k : Int → State} (hk : ∀ n, P (k n)) :
    P (u.withNumber p args k) := by
  unfold State.withNumber
  split
  · exact hk _
  · exact hno _

theorem State.withStation_keeps (hno : ∀ r, P (u.reply p r)) {args : List Text} {k : StationId → State} (hk : ∀ n, P (k n)) :
    P (u.withStation p args k) := by
  unfold State.withStation
  split
  · split
    · exact hk _
    · exact hno _
  · exact hno _

theorem State.cabOnly_keeps (hno : ∀ r, P (u.reply p r)) {k : State} (hk : p = .cab → P k) : P (u.cabOnly p k) := by
  cases p with
  | cab => exact hk rfl
  | plan => exact hno _

theorem State.stationTests_keeps (hno : ∀ r, P (u.reply p r)) {fails : Bool} {r : Reason} {k : State} (hk : fails = false → P k) :
    P (u.stationTests p fails r k) := by
  unfold State.stationTests
  split
  · exact hno _
  · split
    · exact hno _
    · rename_i h
      exact hk (Bool.not_eq_true _ ▸ h)

theorem State.withLineId_keeps (hno : ∀ r, P (u.reply p r)) {n : Int} {k : Nat → State} (hk : ∀ id, P (k id)) :
    P (u.withLineId p n k) := by
  unfold State.withLineId
  split
  · exact hno _
  · exact hk _

theorem State.withLine_keeps (hno : ∀ r, P (u.reply p r)) {id : Nat} {k : Line → State} (hk : ∀ l, P (k l)) : P (u.withLine p id k) := by
  unfold State.withLine
  split
  · exact hno _
  · exact hk _

theorem State.withOwnDraft_keeps (hno : ∀ r, P (u.reply p r)) {id : Nat} {k : Draft → State} (hk : ∀ d, P (k d)) :
    P (u.withOwnDraft p id k) := by
  unfold State.withOwnDraft
  split
  · exact hno _
  · split
    · exact hk _
    · exact hno _

end Tests

/-! ## A line taken -/

theorem State.updPort_const (s : State) (p : Port) (f : PortState → PortState) : s.updPort p f = s.updPort p (fun _ => f (s.port p)) := by
  cases p <;> rfl

theorem State.moves_updPort {s : State} {p : Port} {f : PortState → PortState} (h : s.PortMoves p (f (s.port p))) :
    s.Moves (s.updPort p f) := by
  rw [State.updPort_const]
  exact .port p h

theorem State.ready_busy {s : State} {p : Port} {row : Instr} (h : s.ready p row) : s.busy p = false := h.2.2

theorem takeLine_moves {s : State} {p : Port} {row : Instr} {body : State → State}
    (h : s.ready p row → s.Moves (body (s.taken p row))) : s.Moves (takeLine p row s body) := by
  unfold takeLine
  split
  · rename_i hrun
    obtain ⟨hrun, hline⟩ := Bool.and_eq_true_iff.mp hrun
    split
    · rw [State.clearBuffer_setOverrun]
      exact State.moves_updPort .overran
    · rename_i hb
      exact h ⟨hrun, hline, Bool.not_eq_true _ ▸ hb⟩
  · exact .stays

/-- A line taken and answered, nothing else done. -/
theorem State.moves_reply {s : State} {p : Port} {row : Instr} (h : s.ready p row) (r : Reply) :
    s.Moves ((s.taken p row).reply p r) := by
  rw [taken_reply]
  exact State.moves_updPort (.answered h.2.2 row r)

/-! ## Drafts keep their law -/

theorem length_fillSlots {α : Type} (n : Nat) (xs : List α) : (fillSlots n xs).length = n := by
  simp [fillSlots]
  omega

theorem Draft.law_openedDraft (st : Store) (id : Nat) : (openedDraft st id).law := by
  have hfrom : ∀ b o t ps ss, (draftFrom b o t ps ss).law := fun b o t ps ss =>
    ⟨length_fillSlots _ _, length_fillSlots _ _, Nat.zero_le _, Nat.le_refl 63, Nat.zero_le _⟩
  unfold openedDraft
  split
  · exact hfrom _ _ _ _ _
  · split <;> exact hfrom _ _ _ _ _

theorem Draft.law_write {d : Draft} (h : d.law) (start : Nat) (ps : List Point) : (d.write start ps).law := by
  obtain ⟨hp, hs, hfl, hl, hc⟩ := h
  unfold Draft.write
  dsimp only
  split
  · exact ⟨hp, hs, hfl, hl, hc⟩
  · rename_i hne
    have hlen : (fitting d start ps).length ≤ d.last + 1 - start := List.length_take_le _ _
    have hpos : (fitting d start ps).length ≠ 0 := fun h0 => hne (by rw [List.isEmpty_iff]; exact List.length_eq_zero_iff.mp h0)
    refine ⟨((writeSlots_spec start (fitting d start ps) d.points).1).trans hp, hs, hfl, hl, ?_⟩
    show start + _ ≤ 64
    omega

theorem Draft.law_cut {d : Draft} (h : d.law) (k : Nat) : (d.cut k).law := by
  obtain ⟨hp, hrest⟩ := h
  refine ⟨?_, hrest⟩
  rw [← hp]
  simp [Draft.cut]
  omega

theorem Draft.law_spans {d : Draft} (h : d.law) (k : Nat) (x : Option Span) : Draft.law { d with spans := d.spans.set k x } :=
  ⟨h.1, (List.length_set ..).trans h.2.1, h.2.2⟩

theorem Draft.law_window {d : Draft} (h : d.law) {a b : Int} (ha : within 0 63 a = true) (hb : within 0 63 b = true) (hab : a ≤ b) :
    Draft.law { d with first := a.toNat, last := b.toNat, cursor := a.toNat } := by
  obtain ⟨ha0, ha1⟩ := within_iff.mp ha
  obtain ⟨hb0, hb1⟩ := within_iff.mp hb
  refine ⟨h.1, h.2.1, ?_, ?_, ?_⟩ <;> dsimp only <;> omega

/-! ## The rows of claims and drafts -/

section
variable {s : State} {p : Port} {row : Instr}

/-- The draft of the taken line's port replaced, and OK. -/
theorem State.moves_setDraft (h : s.ready p row) {d : Draft} {fs : List Field} (hc : ((s.taken p row).port p).claim ≠ none)
    (hd : (∀ e ∈ (s.port p).draft, e.law) → d.law) : s.Moves (((s.taken p row).setDraft p d).ok p fs) := by
  have heq : ((s.taken p row).setDraft p d).ok p fs = s.updPort p (fun q =>
      { q with buffer := emptyBuffer, lapse := none, hand := .sending (some row) (.ok fs), draft := some d }) := by
    cases p <;> rfl
  rw [heq]
  refine State.moves_updPort (.drafted h.2.2 row _ d ?_ hd)
  simpa using hc

/-- A command on the open draft: one that keeps the draft's law. -/
theorem State.moves_withDraft (h : s.ready p row) {k : Draft → State}
    (hk : ∀ d, ((s.taken p row).port p).claim ≠ none → ((∀ e ∈ (s.port p).draft, e.law) → d.law) → s.Moves (k d)) :
    s.Moves ((s.taken p row).withDraft p k) := by
  refine State.withDraft_keeps (State.moves_reply h) (fun d hc hd => hk d hc (fun hlaw => hlaw d ?_))
  simpa using hd

theorem State.moves_claimId (h : s.ready p row) {id : Nat} (h1 : 1 ≤ id) (h2 : id ≤ 999) :
    s.Moves ((s.taken p row).claimId p id) := by
  unfold State.claimId
  split
  · exact State.moves_reply h _
  · rename_i hother
    rw [State.port_taken_other] at hother
    split
    · split <;> exact State.moves_reply h _
    · rename_i hfree
      have heq : (s.taken p row).takeClaim p id = s.updPort p (fun q => { q with
          buffer := emptyBuffer, lapse := none,
          hand := .sending (some row) (if (s.line? id).isSome then okReply else .ok [.word "FREE"]), claim := some id,
          draft := none }) := by
        rw [taken_takeClaim]
        cases p <;> rfl
      rw [heq]
      refine State.moves_updPort (.claimed h.2.2 row _ id h1 h2 hother ?_)
      simpa using hfree

theorem State.moves_release (h : s.ready p row) : s.Moves (((s.taken p row).emptyClaim p).ok p) := by
  have heq : ((s.taken p row).emptyClaim p).ok p = s.updPort p (fun q =>
      { q with buffer := emptyBuffer, lapse := none, hand := .sending (some row) (.ok []), claim := none, draft := none }) := by
    cases p <;> rfl
  rw [heq]
  exact State.moves_updPort (.released h.2.2 row _)

theorem State.moves_discard (h : s.ready p row) : s.Moves (((s.taken p row).updPort p (fun q => { q with draft := none })).ok p) := by
  have heq : ((s.taken p row).updPort p (fun q => { q with draft := none })).ok p = s.updPort p (fun q =>
      { q with buffer := emptyBuffer, lapse := none, hand := .sending (some row) (.ok []), draft := none }) := by
    cases p <;> rfl
  rw [heq]
  exact State.moves_updPort (.discarded h.2.2 row _)

theorem State.moves_openDraft (h : s.ready p row) {args : List Text} : s.Moves ((s.taken p row).withNone p args
    ((s.taken p row).withClaim p (fun id =>
      let d := openedDraft (s.taken p row).store id
      ((s.taken p row).setDraft p d).ok p
        [natField (present d.points).length, natField (present d.spans).length, (d.base.map countField).getD noneField]))) := by
  refine State.withNone_keeps (State.moves_reply h) (fun _ => State.withClaim_keeps (State.moves_reply h) (fun id hid => ?_))
  exact State.moves_setDraft h (hid ▸ Option.some_ne_none id) (fun _ => Draft.law_openedDraft _ _)

theorem State.moves_setWindow (h : s.ready p row) (a b : Int) : s.Moves ((s.taken p row).setWindow p a b) := by
  refine State.moves_withDraft h (fun d hc hlaw => ?_)
  split
  · rename_i hw
    obtain ⟨hab, hle⟩ := Bool.and_eq_true_iff.mp hw
    obtain ⟨ha, hb⟩ := Bool.and_eq_true_iff.mp hab
    exact State.moves_setDraft h hc (fun hl => Draft.law_window (hlaw hl) ha hb (of_decide_eq_true hle))
  · exact State.moves_reply h _

theorem State.moves_putFrom (h : s.ready p row) (args : List Text) (start : Draft → Nat) :
    s.Moves ((s.taken p row).putFrom p args start) := by
  unfold State.putFrom
  split
  · exact State.moves_reply h _
  · refine State.moves_withDraft h (fun d hc hlaw => ?_)
    split
    · exact State.moves_setDraft h hc (fun hl => Draft.law_write (hlaw hl) _ _)
    · exact State.moves_reply h _

theorem State.moves_cutAt (h : s.ready p row) (n : Int) : s.Moves ((s.taken p row).cutAt p n) := by
  refine State.moves_withDraft h (fun d hc hlaw => ?_)
  split
  · exact State.moves_setDraft h hc (fun hl => Draft.law_cut (hlaw hl) _)
  · exact State.moves_reply h _

theorem State.moves_setSpan (h : s.ready p row) (k : Int) (x : Option Span) : s.Moves ((s.taken p row).setSpan p k x) := by
  refine State.moves_withDraft h (fun d hc hlaw => ?_)
  split
  · exact State.moves_setDraft h hc (fun hl => Draft.law_spans (hlaw hl) _ _)
  · exact State.moves_reply h _

theorem State.moves_setParent (h : s.ready p row) (v : NumberOr) : s.Moves ((s.taken p row).setParent p v) := by
  refine State.moves_withDraft h (fun d hc hlaw => ?_)
  split
  · exact State.moves_setDraft h hc hlaw
  · split
    · exact State.moves_setDraft h hc hlaw
    · exact State.moves_reply h _

theorem State.moves_setJunction (h : s.ready p row) (v : NumberOr) : s.Moves ((s.taken p row).setJunction p v) := by
  refine State.moves_withDraft h (fun d hc hlaw => ?_)
  split
  · exact State.moves_setDraft h hc hlaw
  · split
    · exact State.moves_setDraft h hc hlaw
    · exact State.moves_reply h _

theorem State.moves_label (h : s.ready p row) (t : Option Text) :
    s.Moves ((s.taken p row).withDraft p (fun d => ((s.taken p row).setDraft p { d with label := t }).ok p)) :=
  State.moves_withDraft h (fun _ hc hlaw => State.moves_setDraft h hc hlaw)

/-- COMMIT taken: it is refused, or goes in flight (R73). -/
theorem State.moves_commit {args : List Text} (h : s.ready p (.commit p args)) :
    s.Moves ((s.taken p (.commit p args)).withNone p args ((s.taken p (.commit p args)).withClaim p (fun id =>
      (s.taken p (.commit p args)).withDraft p (fun d =>
        match (s.taken p (.commit p args)).commitRefusal? id d with
        | some r => (s.taken p (.commit p args)).no p r
        | none => (s.taken p (.commit p args)).beginCommit p id)))) := by
  refine State.withNone_keeps (State.moves_reply h) (fun _ => State.withClaim_keeps (State.moves_reply h) (fun id hid => ?_))
  refine State.withDraft_keeps (State.moves_reply h) (fun d _ hd => ?_)
  split
  · exact State.moves_reply h _
  · rename_i hpass
    rw [taken_beginCommit]
    rw [taken_commitRefusal?] at hpass
    exact State.moves_updPort (.committed h.2.2 args id d (by simpa using hid) (by simpa using hd) hpass)

end

end Sys2Proof.Machine
end

section
/-! PROOF. Every row leads to a move (continued): the rows of commands that act, the rows that are no command, and the step. -/
namespace Sys2Proof.Machine

/-! ## The rows of commands that act -/

section
variable {s : State} {p : Port} {row : Instr}

theorem State.moves_act (h : s.ready p row) {w : State} (hw : (s.taken p row).Acts p w) (r : Reply) : s.Moves (w.reply p r) :=
  .act p row r h hw

theorem State.moves_retire (h : s.ready p row) (id : Nat) (hid : ((s.taken p row).port p).claim = some id) :
    s.Moves (match (s.taken p row).retireRefusal? id with
      | some r => (s.taken p row).no p r
      | none => (((s.taken p row).retireLine id).emptyClaim p).ok p) := by
  split
  · exact State.moves_reply h _
  · rename_i hpass
    exact State.moves_act h (.retire id hid hpass) _

theorem State.moves_recheckId (h : s.ready p row) (id : Nat) : s.Moves ((s.taken p row).recheckId p id) := by
  unfold State.recheckId
  split
  · exact State.moves_reply h _
  · rename_i l hl
    split
    · rename_i hm
      exact State.moves_act h (.recheck id l hl hm) _
    · exact State.moves_reply h _

theorem State.moves_defineStation (h : s.ready p row) (n : StationId) (sig : Byte) (label : Option Text) :
    s.Moves ((s.taken p row).defineStation p n sig label) := by
  unfold State.defineStation
  split
  · rename_i hn
    exact State.stationTests_keeps (State.moves_reply h) (fun hc => State.moves_act h (.define n sig label hn hc) _)
  · exact State.moves_reply h _

/-- A correction that is not changed is answered; a changed one is written. -/
theorem State.moves_setCorrection (h : s.ready p row) {n : StationId} {d : StationData} {state : StationData → Station} (mm : Int)
    (hstate : state = Station.inService ∨ state = Station.withdrawn) (hn : (s.taken p row).store.stations.get n = state d)
    (huse : (s.taken p row).stationInUse n = false) :
    s.Moves (((s.taken p row).setCorrection n d (state { d with correction := mm }) mm).ok p) := by
  unfold State.setCorrection
  split
  · exact State.moves_reply h _
  · exact State.moves_act h (.plane n d state mm hstate hn huse) _

theorem State.moves_planeStation (h : s.ready p row) (n : StationId) (mm : Int) :
    s.Moves ((s.taken p row).planeStation p n mm) := by
  unfold State.planeStation
  split
  · exact State.moves_reply h _
  · rename_i d hn
    exact State.stationTests_keeps (State.moves_reply h) (fun hu => State.moves_setCorrection h mm (.inl rfl) hn hu)
  · rename_i d hn
    exact State.stationTests_keeps (State.moves_reply h) (fun hu => State.moves_setCorrection h mm (.inr rfl) hn hu)

theorem State.moves_withdrawStation (h : s.ready p row) (n : StationId) : s.Moves ((s.taken p row).withdrawStation p n) := by
  unfold State.withdrawStation
  split
  · rename_i d hn
    exact State.stationTests_keeps (State.moves_reply h) (fun hu => State.moves_act h (.withdraw n d hn hu) _)
  · exact State.moves_reply h _

theorem State.moves_restoreStation (h : s.ready p row) (n : StationId) : s.Moves ((s.taken p row).restoreStation p n) := by
  unfold State.restoreStation
  split
  · rename_i d hn
    exact State.stationTests_keeps (State.moves_reply h) (fun hc => State.moves_act h (.restore n d hn hc) _)
  · exact State.moves_reply h _

theorem State.moves_forgetStation (h : s.ready p row) (n : StationId) : s.Moves ((s.taken p row).forgetStation p n) := by
  unfold State.forgetStation
  split
  · rename_i d hn
    exact State.stationTests_keeps (State.moves_reply h) (fun hu => State.moves_act h (.forget n d hn hu) _)
  · exact State.moves_reply h _

theorem State.moves_selectNumber (h : s.ready p row) (n : Int) : s.Moves ((s.taken p row).selectNumber p n) := by
  unfold State.selectNumber
  split
  · rename_i hidle
    split
    · exact State.moves_reply h _
    · rename_i id _
      unfold State.selectId
      split
      · exact State.moves_reply h _
      · rename_i l hl
        split
        · rename_i hsel
          split
          · exact State.moves_reply h _
          · exact State.moves_act h (.select id l hidle hl hsel) _
        · exact State.moves_reply h _
  · exact State.moves_reply h _

theorem State.moves_resumeRun (h : s.ready p row) (hp : p = .cab) : s.Moves ((s.taken p row).resumeRun p) := by
  unfold State.resumeRun
  split
  · exact State.moves_reply h _
  · rename_i hpass
    split
    · exact State.moves_reply h _
    · rename_i k hk
      exact State.moves_act h (.resume k hp hpass hk) _

theorem State.moves_setMark (h : s.ready p row) (f : MarkForm) : s.Moves ((s.taken p row).setMark p f) := by
  unfold State.setMark
  split
  · exact State.moves_reply h _
  · split
    · rename_i hr
      exact State.moves_act h (.mark f (Bool.and_eq_true_iff.mp hr).2) _
    · exact State.moves_reply h _

theorem State.moves_settle (h : s.ready p row) : s.Moves ((s.taken p row).settle p) := by
  unfold State.settle
  split
  · rename_i l st hl hst
    split
    · exact State.moves_act h (.setSettled true) _
    · rename_i hd
      unfold State.settleNow
      dsimp only
      split <;> exact State.moves_act h (.settle l st hl hst (Bool.not_eq_true _ ▸ hd)) _
  · exact State.moves_reply h _

theorem State.moves_unsettle (h : s.ready p row) : s.Moves ((s.taken p row).unsettle p) := by
  unfold State.unsettle
  split
  · exact State.moves_act h (.setSettled false) _
  · exact State.moves_reply h _

theorem State.moves_unstage (h : s.ready p row) : s.Moves ((s.taken p row).unstage p) := by
  unfold State.unstage
  split
  · exact State.moves_reply h _
  · rename_i l hl
    split
    · split
      · exact State.moves_act h (.unstage l hl) _
      · exact State.moves_reply h _
    · exact State.moves_reply h _

theorem State.moves_trim (h : s.ready p row) (mm : Int) : s.Moves ((s.taken p row).trim p mm) := by
  unfold State.trim
  split
  · exact State.moves_reply h _
  · split
    · unfold State.trimTo
      split
      · exact State.moves_act h (.trim _ _ _) _
      · unfold State.trimAtF
        split
        · exact State.moves_reply h _
        · exact State.moves_act h (.trim _ _ _) _
    · exact State.moves_reply h _

theorem State.moves_setValue (h : s.ready p row) {name : SettingName} {v : SettingValue} {word : Text}
    (hv : settingValue? name word = .good v) : s.Moves ((s.taken p row).setValue p name v) := by
  unfold State.setValue
  split
  · exact State.moves_reply h _
  · rename_i hpass
    split
    · exact State.moves_reply h _
    · exact State.moves_act h (.set name v word hv hpass) _

theorem State.moves_clearEvents (h : s.ready p row) (es : List EventKind) : s.Moves (((s.taken p row).clearEvents p es).ok p) := by
  have heq : ((s.taken p row).clearEvents p es).ok p = s.updPort p (fun q => { q with
      buffer := emptyBuffer, lapse := none, hand := .sending (some row) (.ok []), events := clearKinds es q.events }) := by
    cases p <;> rfl
  rw [heq]
  exact State.moves_updPort (.acked h.2.2 row _ es)

theorem State.moves_setMask (h : s.ready p row) (e : EventKind) (on : Bool) : s.Moves (((s.taken p row).setMask p e on).ok p) := by
  have heq : ((s.taken p row).setMask p e on).ok p = s.updPort p (fun q => { q with
      buffer := emptyBuffer, lapse := none, hand := .sending (some row) (.ok []), mask := maskWith e on q.mask }) := by
    cases p <;> rfl
  rw [heq]
  exact State.moves_updPort (.masked h.2.2 row _ e on)

theorem State.moves_readLine (h : s.ready p row) (c : Copy) (id : Nat) : s.Moves ((s.taken p row).readLine p c id) := by
  unfold State.readLine
  split
  · exact State.withOwnDraft_keeps (State.moves_reply h) (fun _ => State.moves_reply h _)
  · exact State.withLine_keeps (State.moves_reply h) (fun _ => State.moves_reply h _)

theorem State.moves_readSpans (h : s.ready p row) (c : Copy) (id : Nat) : s.Moves ((s.taken p row).readSpans p c id) := by
  cases c with
  | draft => exact State.withOwnDraft_keeps (State.moves_reply h) (fun _ => State.moves_reply h _)
  | staged => exact State.withLine_keeps (State.moves_reply h) (fun _ => State.moves_reply h _)
  | current => exact State.withLine_keeps (State.moves_reply h) (fun _ => State.moves_reply h _)

theorem State.moves_readProfile (h : s.ready p row) (c : Copy) (a b id : Nat) :
    s.Moves ((s.taken p row).readProfile p c a b id) := by
  cases c with
  | draft => exact State.withOwnDraft_keeps (State.moves_reply h) (fun _ => State.moves_reply h _)
  | staged => exact State.withLine_keeps (State.moves_reply h) (fun _ => State.moves_reply h _)
  | current => exact State.withLine_keeps (State.moves_reply h) (fun _ => State.moves_reply h _)

end

/-! ## TIE, RETIE and CLEARSTORE -/

theorem State.moves_tie {s : State} {p : Port} {args : List Text} (h : s.ready p (.tie p args)) :
    s.Moves ((s.taken p (.tie p args)).withNone p args ((s.taken p (.tie p args)).cabOnly p
      (if (s.taken p (.tie p args)).isArmed && (s.taken p (.tie p args)).activeChecked then
        (s.taken p (.tie p args)).startWait .tie (stationAt (s.taken p (.tie p args)).spanList 0) 0
      else (s.taken p (.tie p args)).no p .state))) := by
  refine State.withNone_keeps (State.moves_reply h) (fun ha => State.cabOnly_keeps (State.moves_reply h) (fun hp => ?_))
  subst ha hp
  split
  · rename_i hb
    exact .event (.tie h ((taken_isArmed ..).symm.trans (Bool.and_eq_true_iff.mp hb).1))
  · exact State.moves_reply h _

theorem State.moves_retieTo {s : State} {args : List Text} (h : s.ready .cab (.retie .cab args)) (mm : Int) :
    s.Moves ((s.taken .cab (.retie .cab args)).retieTo .cab mm) := by
  unfold State.retieTo
  split
  · rename_i hs
    split
    · rename_i hw
      obtain ⟨hlow, hhigh⟩ := within_iff.mp hw
      exact .event (.retie args mm h ((taken_stopped ..).symm.trans hs) hlow hhigh)
    · exact State.moves_reply h _
  · exact State.moves_reply h _

theorem clearStore_taken (s : State) (p : Port) (row row' : Instr) : (s.taken p row).clearStore row' = s.clearStore row' := by
  cases p <;> rfl

theorem State.moves_clearOn {s : State} {p : Port} {row : Instr} (h : s.ready p row) :
    s.Moves ((s.taken p row).clearOn p row) := by
  cases p with
  | cab => exact State.moves_reply h _
  | plan =>
    show s.Moves (if (s.taken .plan row).isIdle then (s.taken .plan row).clearStore row else (s.taken .plan row).no .plan .state)
    split
    · rename_i hi
      rw [clearStore_taken]
      exact .event (.clear row (by rw [← hi, State.isIdle, State.isIdle, taken_context?]))
    · exact State.moves_reply h _

/-! ## Rows that are no command -/

theorem State.moves_endReply {s : State} {p : Port} {c : Option Instr} {r : Reply} (hh : (s.port p).hand = .sending c r) :
    s.Moves (s.endReply p) := by
  cases ho : (s.port p).overrun with
  | false => rw [State.endReply_free ho]; exact State.moves_updPort (.replied c r hh)
  | true => rw [State.endReply_overrun ho]; exact State.moves_updPort (.overrunReplied c r hh)

theorem State.moves_replySent (p : Port) (s : State) : s.Moves (if s.running then
      match (s.port p).hand with
      | .sending c r => if restartsAfter c r then s.restart else s.endReply p
      | _ => s
    else s) := by
  split
  · split
    · rename_i c r hh
      split
      · exact .event .restart
      · exact State.moves_endReply hh
    · exact .stays
  · exact .stays

theorem State.moves_expireLapse (s : State) (p : Port) : s.Moves (s.expireLapse p) := by
  cases hd : s.lapseDue p with
  | true => rw [State.expireLapse_of_due hd]; exact State.moves_updPort (.lapsed hd)
  | false => rw [State.expireLapse_of_not_due hd]; exact .stays

theorem State.moves_commitCompletion (p : Port) (s : State) : s.Moves (if s.running then
      match (s.port p).commit, (s.port p).claim, (s.port p).draft with
      | some c, some id, some d => s.completeCommit p c id d
      | _, _, _ => s
    else s) := by
  split
  · split
    · rename_i c id d hc hid hd
      exact .event (.completeCommit p c id d hc hid hd)
    · exact .stays
  · exact .stays

theorem State.moves_recheckCompletion (s : State) : s.Moves (if s.running then
      match s.recheck.inFlight with
      | some f => s.finishRecheck f
      | none => s
    else s) := by
  split
  · split
    · rename_i f hf
      exact .event (.finishRecheck f hf)
    · exact .stays
  · exact .stays

theorem State.moves_linkByte (s : State) (b : Byte) : s.Moves (s.linkByte b) := by
  unfold State.linkByte
  split
  · split
    · exact .event (.link (fun k => { k with framing := .collecting [b] s.time }) rfl)
    · exact .stays
  · rename_i bytes at' _
    unfold State.collectByte
    split
    · exact .event (.frame _)
    · exact .event (.link (fun k => { k with framing := .collecting (bytes ++ [b]) s.time }) rfl)

theorem State.moves_abandonFrame (s : State) : s.Moves s.abandonFrame :=
  .event (.link (fun k => { k with framing := .hunting, bad := bump k.bad }) rfl)

theorem State.moves_expireGap (s : State) : s.Moves s.expireGap := by
  unfold State.expireGap
  split
  · exact State.moves_abandonFrame s
  · exact .stays

theorem State.moves_expireWait (s : State) : s.Moves s.expireWait := by
  unfold State.expireWait
  split
  · rename_i hd
    exact .event (.waitOver hd)
  · exact .stays

theorem State.moves_restartIfRunning (s : State) (powered resetLow : Bool) :
    s.Moves (({ s with powered := powered, resetLow := resetLow } : State).restartIfRunning) := by
  unfold State.restartIfRunning
  split
  · exact .event (.powerRestart powered resetLow)
  · exact .event (.power powered resetLow)

theorem State.moves_if {s t : State} {c : Bool} (h : s.Moves t) : s.Moves (if c then t else s) := by
  split
  · exact h
  · exact .stays

/-! ## Every row -/

/-- Every row answers a next state, and what leads there is a move. -/
theorem exec_moves (i : Instr) (s : State) : ∃ t, exec i s = .next t ∧ s.Moves t := by
  cases i with
  | commandLineBad p =>
    refine ⟨_, rfl, takeLine_moves (fun h => ?_)⟩
    have heq : (s.taken p (.commandLineBad p)).updPort p (fun q => { q with hand := .sending none (.no .syn []) })
        = s.updPort p (fun q => { q with buffer := emptyBuffer, lapse := none, hand := .sending none (noReply .syn) }) := by
      cases p <;> rfl
    rw [heq]
    exact State.moves_updPort (.bad h.2.2)
  | emptyLine p => exact ⟨_, rfl, State.moves_if (State.moves_updPort .cleared)⟩
  | unknownCommand p ws => exact ⟨_, rfl, takeLine_moves (fun h => State.moves_reply h _)⟩
  | lineWhileBusy p =>
    refine ⟨_, rfl, State.moves_if ?_⟩
    rw [State.clearBuffer_setOverrun]
    exact State.moves_updPort .overran
  | replySent p => exact ⟨_, rfl, State.moves_replySent p s⟩
  | claim p args =>
    exact ⟨_, rfl, takeLine_moves (fun h => State.withId_keeps (State.moves_reply h) (fun _ => State.moves_claimId h))⟩
  | release p args =>
    exact ⟨_, rfl, takeLine_moves (fun h => State.withNone_keeps (State.moves_reply h)
      (fun _ => State.withClaim_keeps (State.moves_reply h) (fun _ _ => State.moves_release h)))⟩
  | claimLapseExpiry p => exact ⟨_, rfl, State.moves_if (State.moves_expireLapse s p)⟩
  | openDraft p args => exact ⟨_, rfl, takeLine_moves (fun h => State.moves_openDraft h)⟩
  | window p args =>
    refine ⟨_, rfl, takeLine_moves (fun h => ?_)⟩
    split
    · exact State.moves_setWindow h _ _
    · exact State.moves_reply h _
  | put p args => exact ⟨_, rfl, takeLine_moves (fun h => State.moves_putFrom h _ _)⟩
  | more p args => exact ⟨_, rfl, takeLine_moves (fun h => State.moves_putFrom h _ _)⟩
  | cut p args =>
    refine ⟨_, rfl, takeLine_moves (fun h => ?_)⟩
    split
    · exact State.moves_cutAt h _
    · exact State.moves_reply h _
  | span p args =>
    refine ⟨_, rfl, takeLine_moves (fun h => ?_)⟩
    split
    · exact State.moves_reply h _
    · exact State.moves_setSpan h _ _
    · split
      · exact State.moves_setSpan h _ _
      · exact State.withDraft_keeps (State.moves_reply h) (fun _ _ _ => State.moves_reply h _)
  | headParent p args =>
    refine ⟨_, rfl, takeLine_moves (fun h => ?_)⟩
    split
    · exact State.moves_reply h _
    · exact State.moves_setParent h _
  | headJunction p args =>
    refine ⟨_, rfl, takeLine_moves (fun h => ?_)⟩
    split
    · exact State.moves_reply h _
    · exact State.moves_setJunction h _
  | headLabel p args =>
    refine ⟨_, rfl, takeLine_moves (fun h => ?_)⟩
    split
    · exact State.moves_reply h _
    · exact State.moves_label h none
    · exact State.moves_label h (some _)
  | discard p args =>
    exact ⟨_, rfl, takeLine_moves (fun h => State.withNone_keeps (State.moves_reply h)
      (fun _ => State.withDraft_keeps (State.moves_reply h) (fun _ _ _ => State.moves_discard h)))⟩
  | commit p args => exact ⟨_, rfl, takeLine_moves State.moves_commit⟩
  | commitCompletion p => exact ⟨_, rfl, State.moves_commitCompletion p s⟩
  | retire p args =>
    exact ⟨_, rfl, takeLine_moves (fun h => State.withNone_keeps (State.moves_reply h)
      (fun _ => State.withClaim_keeps (State.moves_reply h) (State.moves_retire h)))⟩
  | recheck p args =>
    exact ⟨_, rfl, takeLine_moves (fun h => State.withId_keeps (State.moves_reply h) (fun id _ _ => State.moves_recheckId h id))⟩
  | checkStart => exact ⟨_, rfl, State.moves_if (.event .lookForWork)⟩
  | recheckCompletion => exact ⟨_, rfl, State.moves_recheckCompletion s⟩
  | stationDefine p args =>
    refine ⟨_, rfl, takeLine_moves (fun h => ?_)⟩
    split
    · exact State.moves_reply h _
    · split
      · exact State.moves_reply h _
      · split
        · exact State.moves_defineStation h _ _ _
        · exact State.moves_reply h _
  | stationPlane p args =>
    refine ⟨_, rfl, takeLine_moves (fun h => ?_)⟩
    split
    · split
      · exact State.moves_reply h _
      · split
        · exact State.moves_planeStation h _ _
        · exact State.moves_reply h _
    · exact State.moves_reply h _
  | stationWithdraw p args =>
    exact ⟨_, rfl, takeLine_moves (fun h => State.withStation_keeps (State.moves_reply h) (State.moves_withdrawStation h))⟩
  | stationRestore p args =>
    exact ⟨_, rfl, takeLine_moves (fun h => State.withStation_keeps (State.moves_reply h) (State.moves_restoreStation h))⟩
  | stationForget p args =>
    exact ⟨_, rfl, takeLine_moves (fun h => State.withStation_keeps (State.moves_reply h) (State.moves_forgetStation h))⟩
  | stationRead p args =>
    exact ⟨_, rfl, takeLine_moves (fun h => State.withStation_keeps (State.moves_reply h) (fun _ => State.moves_reply h _))⟩
  | counters p args =>
    exact ⟨_, rfl, takeLine_moves (fun h => State.withNone_keeps (State.moves_reply h) (fun _ => State.moves_reply h _))⟩
  | zeroCounters p args =>
    exact ⟨_, rfl, takeLine_moves (fun h => State.withNone_keeps (State.moves_reply h) (fun _ => State.moves_act h .zeroCounters _))⟩
  | frameComplete signature flags offsetHigh offsetLow check => exact ⟨_, rfl, State.moves_if (.event (.frame _))⟩
  | frameFramingError => exact ⟨_, rfl, State.moves_if (State.moves_abandonFrame s)⟩
  | frameGapTimeout => exact ⟨_, rfl, State.moves_if (State.moves_expireGap s)⟩
  | odoValidTransition ch => exact ⟨_, rfl, State.moves_if (.event (.transition ch))⟩
  | odoInvalidTransition => exact ⟨_, rfl, State.moves_if (.event .invalid)⟩
  | strikeTimerExpiry => exact ⟨_, rfl, State.moves_if (.event .timer)⟩
  | select p args =>
    exact ⟨_, rfl, takeLine_moves (fun h => State.withNumber_keeps (State.moves_reply h)
      (fun n => State.cabOnly_keeps (State.moves_reply h) (fun _ => State.moves_selectNumber h n)))⟩
  | deselect p args =>
    refine ⟨_, rfl, takeLine_moves (fun h => State.withNone_keeps (State.moves_reply h)
      (fun _ => State.cabOnly_keeps (State.moves_reply h) (fun _ => ?_)))⟩
    split
    · rename_i ha
      exact State.moves_act h (.deselect ha) _
    · exact State.moves_reply h _
  | tie p args => exact ⟨_, rfl, takeLine_moves State.moves_tie⟩
  | tieWaitDeadline => exact ⟨_, rfl, State.moves_if (State.moves_expireWait s)⟩
  | suspend p args =>
    refine ⟨_, rfl, takeLine_moves (fun h => State.withNone_keeps (State.moves_reply h) (fun _ => ?_))⟩
    split
    · rename_i hd
      exact State.moves_act h (.suspend hd) _
    · exact State.moves_reply h _
  | resume p args =>
    exact ⟨_, rfl, takeLine_moves (fun h => State.withNone_keeps (State.moves_reply h)
      (fun _ => State.cabOnly_keeps (State.moves_reply h) (State.moves_resumeRun h)))⟩
  | retie p args =>
    refine ⟨_, rfl, takeLine_moves (fun h => State.withNumber_keeps (State.moves_reply h)
      (fun n => State.cabOnly_keeps (State.moves_reply h) (fun hp => ?_)))⟩
    subst hp
    exact State.moves_retieTo h n
  | abandon p args =>
    refine ⟨_, rfl, takeLine_moves (fun h => State.withNone_keeps (State.moves_reply h)
      (fun _ => State.cabOnly_keeps (State.moves_reply h) (fun _ => ?_)))⟩
    split
    · rename_i ha
      exact State.moves_act h (.abandon ha) _
    · exact State.moves_reply h _
  | mark p args =>
    refine ⟨_, rfl, takeLine_moves (fun h => ?_)⟩
    split
    · exact State.moves_reply h _
    · exact State.cabOnly_keeps (State.moves_reply h) (fun _ => State.moves_setMark h _)
  | settle p args =>
    exact ⟨_, rfl, takeLine_moves (fun h => State.withNone_keeps (State.moves_reply h)
      (fun _ => State.cabOnly_keeps (State.moves_reply h) (fun _ => State.moves_settle h)))⟩
  | unsettle p args =>
    exact ⟨_, rfl, takeLine_moves (fun h => State.withNone_keeps (State.moves_reply h) (fun _ => State.moves_unsettle h))⟩
  | unstage p args =>
    exact ⟨_, rfl, takeLine_moves (fun h => State.withNone_keeps (State.moves_reply h) (fun _ => State.moves_unstage h))⟩
  | trim p args =>
    exact ⟨_, rfl, takeLine_moves (fun h => State.withNumber_keeps (State.moves_reply h)
      (fun n => State.cabOnly_keeps (State.moves_reply h) (fun _ => State.moves_trim h n)))⟩
  | ident p args =>
    exact ⟨_, rfl, takeLine_moves (fun h => State.withNone_keeps (State.moves_reply h) (fun _ => State.moves_reply h _))⟩
  | lines p args =>
    refine ⟨_, rfl, takeLine_moves (fun h => ?_)⟩
    split
    · exact State.moves_reply h _
    · split <;> exact State.moves_reply h _
    · exact State.moves_reply h _
  | line p args =>
    refine ⟨_, rfl, takeLine_moves (fun h => ?_)⟩
    split
    · exact State.moves_reply h _
    · split
      · exact State.withLineId_keeps (State.moves_reply h) (State.moves_readLine h _)
      · exact State.moves_reply h _
  | profile p args =>
    refine ⟨_, rfl, takeLine_moves (fun h => ?_)⟩
    split
    · split
      · refine State.withLineId_keeps (State.moves_reply h) (fun id => ?_)
        split
        · exact State.moves_readProfile h _ _ _ _
        · exact State.moves_reply h _
      · exact State.moves_reply h _
    · exact State.moves_reply h _
  | spans p args =>
    refine ⟨_, rfl, takeLine_moves (fun h => ?_)⟩
    split
    · exact State.moves_reply h _
    · split
      · exact State.withLineId_keeps (State.moves_reply h) (State.moves_readSpans h _)
      · exact State.moves_reply h _
  | run p args =>
    exact ⟨_, rfl, takeLine_moves (fun h => State.withNone_keeps (State.moves_reply h) (fun _ => State.moves_reply h _))⟩
  | queue p args =>
    exact ⟨_, rfl, takeLine_moves (fun h => State.withNone_keeps (State.moves_reply h) (fun _ => State.moves_reply h _))⟩
  | settings p args =>
    exact ⟨_, rfl, takeLine_moves (fun h => State.withNone_keeps (State.moves_reply h) (fun _ => State.moves_reply h _))⟩
  | events p args =>
    exact ⟨_, rfl, takeLine_moves (fun h => State.withNone_keeps (State.moves_reply h) (fun _ => State.moves_reply h _))⟩
  | ack p args =>
    refine ⟨_, rfl, takeLine_moves (fun h => ?_)⟩
    split
    · exact State.moves_reply h _
    · exact State.moves_clearEvents h _
  | mask p args =>
    refine ⟨_, rfl, takeLine_moves (fun h => ?_)⟩
    split
    · exact State.moves_reply h _
    · exact State.moves_setMask h _ _
  | set p args =>
    refine ⟨_, rfl, takeLine_moves (fun h => ?_)⟩
    split
    · split
      · exact State.moves_reply h _
      · split
        · exact State.moves_reply h _
        · exact State.moves_reply h _
        · rename_i hv
          exact State.moves_setValue h hv
    · exact State.moves_reply h _
  | restart p args =>
    exact ⟨_, rfl, takeLine_moves (fun h => State.withNone_keeps (State.moves_reply h) (fun _ => State.moves_reply h _))⟩
  | clearstore p args =>
    exact ⟨_, rfl, takeLine_moves (fun h => State.withNone_keeps (State.moves_reply h) (fun _ => State.moves_clearOn h))⟩
  | powerOn =>
    refine ⟨_, rfl, ?_⟩
    split
    · exact .stays
    · exact State.moves_restartIfRunning s true s.resetLow
  | supplyLoss => exact ⟨_, rfl, .event (.power false s.resetLow)⟩
  | resetInput =>
    refine ⟨_, rfl, ?_⟩
    split
    · exact State.moves_restartIfRunning s s.powered false
    · exact .event (.power s.powered true)
  | receiverLinkByte b => exact ⟨_, rfl, State.moves_if (State.moves_linkByte s b)⟩
  | commandPortByte p b framingError => exact ⟨_, rfl, State.moves_if (State.moves_updPort (.byte b framingError))⟩

/-! ## The step -/

/-- A law of a state: the clock and the queue of rows apart, and kept by every move. -/
structure KeptByMoves (P : State → Prop) : Prop where
  frame : ∀ (s : State) (time : Nat) (pending : List Instr), P s → P { s with time := time, pending := pending }
  moves : ∀ s t : State, s.Moves t → P s → P t

theorem KeptByMoves.idle {P : State → Prop} (h : KeptByMoves P) {s : State} (hs : P s) : P (idle s) := by
  unfold Machine.idle
  split
  · have h1 := h.moves _ _ (.event .timer) hs
    have h2 := h.moves _ _ (State.moves_expireWait _) h1
    have h3 := h.moves _ _ (State.moves_expireLapse _ .cab) h2
    have h4 := h.moves _ _ (State.moves_expireLapse _ .plan) h3
    have h5 := h.moves _ _ (State.moves_expireGap _) h4
    exact h.frame _ _ s.expireAll.pending h5
  · exact hs

/-- A law that every move keeps, every step keeps. -/
theorem KeptByMoves.step {P : State → Prop} (h : KeptByMoves P) {s t : State} (ht : step s = .next t) (hs : P s) : P t := by
  cases hp : s.pending with
  | nil =>
    rw [step_nil hp] at ht
    cases ht
    exact h.idle hs
  | cons c rest =>
    rw [step_cons s c rest hp] at ht
    obtain ⟨u, hu, hm⟩ := exec_moves c { s with pending := rest }
    rw [hu] at ht
    cases ht
    exact h.moves _ _ hm (h.frame s s.time rest hs)

end Sys2Proof.Machine
end

section
/-! PROOF. What a move makes of the store: one write of a few kinds, after which the module's own work alters lines in place. -/
namespace Sys2Proof.Machine

/-! ## The writes -/

/-- The commit in flight of a port completes and its draft is written (R74). -/
structure State.Completes (s : State) (p : Port) (c : CommitRun) (id : Nat) (d : Draft) : Prop where
  commit : (s.port p).commit = some c
  claim : (s.port p).claim = some id
  draft : (s.port p).draft = some d
  check : c.check.result s.store (d.subject id) = none
  pass : s.completionRefusal? c (d.subject id) d = none

/-- The record of the ACTIVE line `l` after a commit of it: the revision staged, unless the commit was reached, and the label (R77, R78). -/
def Draft.stagedOn (d : Draft) (l : Line) (reached : Bool) (k : Line) : Line :=
  { k.setStaged (if reached then none else some (d.stagedFor l)) with label := d.label }

/-- The stores that one write can make, before the module's own work alters lines in place. -/
inductive State.Writes (s : State) : Store → Prop
  | nothing : Writes s s.store
  | create (p : Port) (c : CommitRun) (id : Nat) (d : Draft) (h : s.Completes p c id d) (hl : s.line? id = none) :
    Writes s { s.store with lines := insertLine (d.newLine id) s.store.lines }
  | replace (p : Port) (c : CommitRun) (id : Nat) (d : Draft) (l : Line) (h : s.Completes p c id d) (hl : s.line? id = some l)
      (ha : l.isActive = false) :
    Writes s { s.store with lines := s.store.lines.map (fun k => if k.id = id then d.replaced k else k) }
  | stage (p : Port) (c : CommitRun) (id : Nat) (d : Draft) (l : Line) (h : s.Completes p c id d) (hl : s.line? id = some l)
      (ha : l.isActive = true) :
    Writes s { s.store with lines := s.store.lines.map (fun k => if k.id = l.id then d.stagedOn l c.reached k else k) }
  | retire (id : Nat) (hpass : s.retireRefusal? id = none) :
    Writes s { s.store with lines := s.store.lines.filter (fun l => l.id != id) }
  | station (n : StationId) (x : Station) (h : ∀ d, x = .inService d → s.store.collides n d.signature = false
      ∨ ∃ e, s.store.stations.get n = .inService e ∧ e.signature = d.signature) :
    Writes s { s.store with stations := s.store.stations.set n x }
  | settings (name : SettingName) (v : SettingValue) (word : Text) (hv : settingValue? name word = .good v)
      (hpass : s.setRefusal? name v = none) : Writes s { s.store with settings := s.settings.put name v }
  | select (id : Nat) (l : Line) (hidle : s.isIdle = true) (hl : s.line? id = some l) (hs : s.selectable l = true) :
    Writes s { s.store with lines := s.store.lines.map (fun k => if k.id = id then
      { k with lifecycle := .active RunContext.selected none } else k) }
  | clear : Writes s Store.reset

theorem State.Writes.of_taken {s : State} {p : Port} {row : Instr} {b : Store} (h : (s.taken p row).Writes b) : s.Writes b := by
  cases h with
  | nothing => rw [State.taken_store]; exact .nothing
  | create q c id d h hl =>
    rw [State.taken_store]
    refine .create q c id d ?_ (by rwa [taken_line?] at hl)
    obtain ⟨h1, h2, h3, h4, h5⟩ := h
    cases p <;> cases q <;> exact ⟨h1, h2, h3, h4, h5⟩
  | replace q c id d l h hl ha =>
    rw [State.taken_store]
    refine .replace q c id d l ?_ (by rwa [taken_line?] at hl) ha
    obtain ⟨h1, h2, h3, h4, h5⟩ := h
    cases p <;> cases q <;> exact ⟨h1, h2, h3, h4, h5⟩
  | stage q c id d l h hl ha =>
    rw [State.taken_store]
    refine .stage q c id d l ?_ (by rwa [taken_line?] at hl) ha
    obtain ⟨h1, h2, h3, h4, h5⟩ := h
    cases p <;> cases q <;> exact ⟨h1, h2, h3, h4, h5⟩
  | retire id hpass => rw [State.taken_store]; exact .retire id (by cases p <;> exact hpass)
  | station n x h => rw [State.taken_store] at h ⊢; exact .station n x h
  | settings name v word hv hpass =>
    rw [State.taken_store, State.taken_settings]
    exact .settings name v word hv (by cases p <;> exact hpass)
  | select id l hidle hl hs =>
    rw [State.taken_store]
    exact .select id l (by cases p <;> exact hidle) (by rwa [taken_line?] at hl) (by cases p <;> exact hs)
  | clear => exact .clear

/-! ## Around a write -/

/-- The module altered in place while its store is written. -/
theorem State.altersTo_store {s t : State} (h : s.altersTo t) (b : Store) : ({ s with store := b } : State).altersTo { t with store := b } :=
  ⟨h.1, Store.altersTo_refl b, h.2.2⟩

theorem State.altersTo_markingChange_of {s t : State} (h : s.altersTo t) (c : Change) : s.altersTo (t.markingChange c) :=
  h.trans (State.altersTo_markingChange t c)

/-- A station record written, and then what is done in place. -/
theorem State.altersTo_writeStation (s : State) (n : StationId) (x : Station) :
    ({ s with store := { s.store with stations := s.store.stations.set n x } } : State).altersTo (s.writeStation n x) :=
  State.altersTo_store (State.altersTo_proceedChecks s) { s.store with stations := s.store.stations.set n x }

theorem State.altersTo_retireLine (s : State) (id : Nat) :
    ({ s with store := { s.store with lines := s.store.lines.filter (fun l => l.id != id) } } : State).altersTo (s.retireLine id) := by
  have h0 : s.altersTo (s.proceedChecks.reach (.parent id)) := (State.altersTo_proceedChecks s).trans (State.altersTo_reach _ _)
  have h1 := State.altersTo_store h0 { s.store with lines := s.store.lines.filter (fun l => l.id != id) }
  have h2 := h1.trans (State.altersTo_unqueue _ id)
  have h3 := h2.trans (State.altersTo_discardCheck _ id)
  exact h3.trans (State.altersTo_updRunUnit _ (fun _ h => h))

theorem State.altersTo_selectLine (s : State) (id : Nat) :
    ({ s with store := { s.store with lines := s.store.lines.map (fun k => if k.id = id then
      { k with lifecycle := .active RunContext.selected none } else k) } } : State).altersTo (s.selectLine id) := by
  have h1 : ({ s with store := { s.store with lines := s.store.lines.map (fun k => if k.id = id then
      { k with lifecycle := .active RunContext.selected none } else k) } } : State).altersTo
      (((s.updLine id (fun l => { l with lifecycle := .active RunContext.selected none })).updChain
        (fun k => { k with known := false, position := 0, endWarned := false })).updRunUnit
          (fun u => { u with coast := 0, timer := none, wait := none })) :=
    ⟨rfl, Store.altersTo_refl _, PortState.altersTo_refl _, PortState.altersTo_refl _, fun _ h => nomatch h⟩
  exact h1.trans ((State.altersTo_updEval _ _).trans (State.altersTo_raise _ _))

theorem RunContext.settings_store (s : State) (t : Settings) (f : RunContext → RunContext) :
    ({ s with store := { s.store with settings := t } } : State).altersTo ((s.updRun f).setSettings t) :=
  State.altersTo_updRun ({ s with store := { s.store with settings := t } } : State) f

theorem State.altersTo_changeSetting (s : State) (name : SettingName) (v : SettingValue) :
    ({ s with store := { s.store with settings := s.settings.put name v } } : State).altersTo (s.changeSetting name v) := by
  unfold State.changeSetting
  dsimp only
  split
  · exact (State.altersTo_store (State.altersTo_proceedChecks s) _).trans (State.altersTo_markingChange _ _)
  · split
    · exact RunContext.settings_store s _ _
    · exact State.altersTo_refl _

/-! ## What a command that acts leaves -/

/-- A command that acts makes one write and then works in place; RETIRE empties its port's claim. -/
theorem State.Acts.effect {u w : State} {p : Port} (h : u.Acts p w) :
    ∃ (b : Store) (x : State), u.Writes b ∧ ({ u with store := b } : State).altersTo x ∧ (w = x ∨ w = x.emptyClaim p) := by
  cases h with
  | retire id hclaim hpass => exact ⟨_, _, .retire id hpass, State.altersTo_retireLine u id, .inr rfl⟩
  | recheck id l hl hm => exact ⟨_, _, .nothing, State.altersTo_markingChange u _, .inl rfl⟩
  | define n sig label hn hc =>
    refine ⟨_, _, .station n _ (fun d hd => .inl ?_), (State.altersTo_writeStation u n _).trans (State.altersTo_updLink _ _), .inl rfl⟩
    cases hd
    exact hc
  | plane n d state mm hstate hn huse =>
    refine ⟨_, _, .station n _ (fun e he => .inr ⟨d, ?_⟩), (State.altersTo_writeStation u n _).trans (State.altersTo_markingChange _ _),
      .inl rfl⟩
    rcases hstate with rfl | rfl
    · cases he
      exact ⟨hn, rfl⟩
    · cases he
  | withdraw n d hn huse =>
    exact ⟨_, _, .station n _ (fun e he => by cases he), ((State.altersTo_writeStation u n _).trans (State.altersTo_updLink _ _)).trans
      (State.altersTo_markingChange _ _), .inl rfl⟩
  | restore n d hn hc =>
    refine ⟨_, _, .station n _ (fun e he => .inl ?_), (State.altersTo_writeStation u n _).trans (State.altersTo_markingChange _ _), .inl rfl⟩
    cases he
    exact hc
  | forget n d hn huse =>
    exact ⟨_, _, .station n _ (fun e he => by cases he), (State.altersTo_writeStation u n _).trans (State.altersTo_updLink _ _), .inl rfl⟩
  | zeroCounters => exact ⟨_, _, .nothing, State.altersTo_zeroCounters u, .inl rfl⟩
  | select id l hidle hl hs => exact ⟨_, _, .select id l hidle hl hs, State.altersTo_selectLine u id, .inl rfl⟩
  | deselect ha => exact ⟨_, _, .nothing, State.altersTo_deselectLine u, .inl rfl⟩
  | suspend hd => exact ⟨_, _, .nothing, State.altersTo_suspendDigging u _, .inl rfl⟩
  | resume k hp hpass hk => exact ⟨_, _, .nothing, State.altersTo_resumeDig u k, .inl rfl⟩
  | abandon ha => exact ⟨_, _, .nothing, State.altersTo_abandonLine u, .inl rfl⟩
  | mark f hr => exact ⟨_, _, .nothing, State.altersTo_updRun u _, .inl rfl⟩
  | setSettled b => exact ⟨_, _, .nothing, State.altersTo_setSettled u b, .inl rfl⟩
  | settle l st hl hst hd =>
    rw [State.staged?_of hl] at hst
    exact ⟨_, _, .nothing, State.altersTo_applyOrDrop hl hst, .inl rfl⟩
  | unstage l hl => exact ⟨_, _, .nothing, State.altersTo_dropStaged u l _, .inl rfl⟩
  | trim a b c => exact ⟨_, _, .nothing, State.altersTo_updRun u _, .inl rfl⟩
  | set name v word hv hpass => exact ⟨_, _, .settings name v word hv hpass, State.altersTo_changeSetting u name v, .inl rfl⟩

/-! ## A commit's completion -/

/-- The state in which the port's commit is no longer in flight. -/
def State.commitOver (s : State) (p : Port) : State := s.updPort p (fun q => { q with commit := none })

@[simp] theorem State.commitOver_store (s : State) (p : Port) : (s.commitOver p).store = s.store := State.updPort_store ..

theorem State.altersTo_writeNew (s : State) (id : Nat) (d : Draft) (reached : Bool) :
    ({ s with store := { s.store with lines := insertLine (d.newLine id) s.store.lines } } : State).altersTo (s.writeNew id d reached) := by
  have h1 : ({ s with store := { s.store with lines := insertLine (d.newLine id) s.store.lines } } : State).altersTo
    ((s.setLines (insertLine (d.newLine id) s.store.lines)).reach (.parent id)) := State.altersTo_reach _ _
  unfold State.writeNew
  dsimp only
  split
  · exact h1.trans (State.altersTo_markLines _ _)
  · exact h1

theorem State.altersTo_writePlanned (s : State) (id : Nat) (d : Draft) (reached : Bool) :
    ({ s with store := { s.store with lines := s.store.lines.map (fun k => if k.id = id then d.replaced k else k) } } : State).altersTo
      (s.writePlanned id d reached) := by
  have h1 : ({ s with store := { s.store with lines := s.store.lines.map (fun k => if k.id = id then d.replaced k else k) } } :
    State).altersTo ((s.updLine id d.replaced).reach (.parent id)) := State.altersTo_reach _ _
  unfold State.writePlanned
  dsimp only
  split
  · exact (h1.trans (State.altersTo_discardCheck _ _)).trans (State.altersTo_markLines _ _)
  · exact ((h1.trans (State.altersTo_unqueue _ _)).trans (State.altersTo_discardCheck _ _)).trans (State.altersTo_markLines _ _)

theorem State.altersTo_writeActive (s : State) (l : Line) (d : Draft) (reached : Bool) :
    ({ s with store := { s.store with lines := s.store.lines.map (fun k => if k.id = l.id then d.stagedOn l reached k else k) } } :
      State).altersTo (s.writeActive l d reached) := by
  cases reached with
  | true =>
    have h1 : ({ s with store := { s.store with lines := s.store.lines.map (fun k => if k.id = l.id then d.stagedOn l true k else k) } } :
      State).altersTo ((s.updLine l.id (d.stagedOn l true)).noteDrop l.id .stale) := State.altersTo_noteDrop _ _ _
    exact h1.trans (State.altersTo_markLines _ (fun k => k.id == l.id))
  | false => exact State.altersTo_refl (s.updLine l.id (d.stagedOn l false))

theorem State.line?_proceedChecks (s : State) (id : Nat) : s.proceedChecks.line? id = s.line? id := rfl

/-- The write of a commit is one of the writes. -/
theorem State.writeCommit_effect {s : State} {p : Port} {c : CommitRun} {id : Nat} {d : Draft} (h : s.Completes p c id d) :
    ∃ b : Store, s.Writes b ∧ ({ s.commitOver p with store := b } : State).altersTo ((s.commitOver p).writeCommit id d c.reached) := by
  have h0 := State.altersTo_proceedChecks (s.commitOver p)
  have hline : (s.commitOver p).proceedChecks.line? id = s.line? id := by cases p <;> rfl
  have hlines : (s.commitOver p).proceedChecks.store = s.store := by cases p <;> rfl
  unfold State.writeCommit
  dsimp only
  rw [hline]
  split
  · rename_i hl
    refine ⟨_, .create p c id d h hl, (State.altersTo_store h0 _).trans ?_⟩
    rw [← hlines]
    exact State.altersTo_writeNew _ id d c.reached
  · rename_i l hl
    split
    · rename_i hlc
      refine ⟨_, .stage p c id d l h hl (by simp [Line.isActive, hlc, Lifecycle.kind]), (State.altersTo_store h0 _).trans ?_⟩
      rw [← hlines]
      exact State.altersTo_writeActive _ l d c.reached
    · rename_i hlc
      have hna : l.isActive = false := by
        rw [← Bool.not_eq_true, Line.isActive_iff]
        rintro ⟨r, st, hr⟩
        exact hlc r st hr
      refine ⟨_, .replace p c id d l h hl hna, (State.altersTo_store h0 _).trans ?_⟩
      rw [← hlines]
      exact State.altersTo_writePlanned _ id d c.reached

/-- A commit that completes is answered with a refusal, or written and answered. -/
theorem State.completeCommit_effect {s : State} {p : Port} {c : CommitRun} {id : Nat} {d : Draft} (hc : (s.port p).commit = some c)
    (hclaim : (s.port p).claim = some id) (hdraft : (s.port p).draft = some d) :
    (∃ r, s.completeCommit p c id d = (s.commitOver p).reply p r)
      ∨ ∃ (b : Store) (x : State), s.Writes b ∧ ({ s.commitOver p with store := b } : State).altersTo x
          ∧ s.completeCommit p c id d = x.commitDone p c.reached := by
  unfold State.completeCommit
  dsimp only
  split
  · exact .inl ⟨_, rfl⟩
  · rename_i hcheck
    split
    · exact .inl ⟨_, rfl⟩
    · rename_i hpass
      obtain ⟨b, hb, hx⟩ := State.writeCommit_effect ⟨hc, hclaim, hdraft, hcheck, hpass⟩
      exact .inr ⟨b, _, hb, hx, rfl⟩

/-! ## A frame -/

/-- A strike passed on alters the module in place; a strike that ends a wait is answered on the CAB port. -/
def State.Judges (s t : State) : Prop :=
  s.altersTo t ∨ ∃ (x : State) (r : Reply), s.altersTo x ∧ s.run.wait ≠ none ∧ x.run.wait = none ∧ t = x.reply .cab r

theorem State.altersTo_noWait {s t : State} (h : s.altersTo t) (hs : s.run.wait = none) : t.run.wait = none := by
  obtain ⟨-, -, -, -, hw⟩ := h
  cases ht : t.run.wait with
  | none => rfl
  | some w =>
    have := hw w (by simp [ht])
    simp [hs] at this

theorem State.judgeTie_reply (s : State) (rd : Reading) (hs : s.run.wait = none) :
    ∃ (x : State) (r : Reply), s.altersTo x ∧ x.run.wait = none ∧ s.judgeTie rd = x.reply .cab r := by
  have hno : ∀ r, ∃ (x : State) (r' : Reply), s.altersTo x ∧ x.run.wait = none ∧ s.reply .cab r = x.reply .cab r' :=
    fun r => ⟨s, r, State.altersTo_refl s, hs, rfl⟩
  unfold State.judgeTie
  split
  · rename_i l r _ _
    split
    · exact hno _
    · split
      · dsimp only
        split
        · exact hno _
        · have h := State.altersTo_tieSucceeds s l
          exact ⟨_, _, h, State.altersTo_noWait h hs, rfl⟩
      · exact hno _
  · exact hno _

theorem State.judgeRetie_reply (s : State) (c : Int) (rd : Reading) (hs : s.run.wait = none) :
    ∃ (x : State) (r : Reply), s.altersTo x ∧ x.run.wait = none ∧ s.judgeRetie c rd = x.reply .cab r := by
  have hno : ∀ r, ∃ (x : State) (r' : Reply), s.altersTo x ∧ x.run.wait = none ∧ s.reply .cab r = x.reply .cab r' :=
    fun r => ⟨s, r, State.altersTo_refl s, hs, rfl⟩
  unfold State.judgeRetie
  split
  · split
    · dsimp only
      split
      · exact hno _
      · have h := State.altersTo_retieSucceeds s c
        exact ⟨_, _, h, State.altersTo_noWait h hs, rfl⟩
    · exact hno _
  · exact hno _

theorem State.judgeWait_reply (s : State) (w : TieWait) (rd : Reading) :
    ∃ (x : State) (r : Reply), s.altersTo x ∧ x.run.wait = none ∧ s.judgeWait w rd = x.reply .cab r := by
  have he := State.altersTo_endWait s
  unfold State.judgeWait
  split
  · obtain ⟨x, r, h, hw, hx⟩ := State.judgeTie_reply s.endWait rd rfl
    exact ⟨x, r, he.trans h, hw, hx⟩
  · obtain ⟨x, r, h, hw, hx⟩ := State.judgeRetie_reply s.endWait w.chainage rd rfl
    exact ⟨x, r, he.trans h, hw, hx⟩

theorem State.waitFor?_wait {s : State} {n : StationId} {w : TieWait} (h : s.waitFor? n = some w) : s.run.wait = some w := by
  obtain ⟨v, hv, hw⟩ := Option.bind_eq_some_iff.mp h
  split at hw
  · cases hw
    exact hv
  · cases hw

theorem State.route_judges (s : State) (n : StationId) (rd : Reading) : s.Judges (s.route n rd) := by
  have h1 := State.altersTo_handEvaluator s (s.evalRoute n) rd
  unfold State.route
  dsimp only
  split
  · rename_i w hw
    obtain ⟨x, r, hx, hnone, heq⟩ := State.judgeWait_reply (s.handEvaluator (s.evalRoute n) rd) w rd
    exact .inr ⟨x, r, h1.trans hx, by simp [State.waitFor?_wait hw], hnone, heq⟩
  · split
    · exact .inl (h1.trans (State.altersTo_updLink _ _))
    · exact .inl h1

theorem State.finishFrame_judges (s : State) (f : Frame) : s.Judges (s.finishFrame f) := by
  have hunt : s.altersTo s.hunt := State.altersTo_updLink _ _
  unfold State.finishFrame State.judgeFrame
  split
  · exact .inl (hunt.trans (State.altersTo_updLink _ _))
  · split
    · exact .inl (hunt.trans (State.altersTo_updLink _ _))
    · split
      · exact .inl (hunt.trans (State.altersTo_updLink _ _))
      · rename_i n _
        have hacc : s.altersTo (s.hunt.updLive n
            (fun v => { last := some { time := s.hunt.time, reading := f.reading }, accepted := bump v.accepted })) :=
          hunt.trans (State.altersTo_updLink _ _)
        rcases State.route_judges _ n f.reading with h | ⟨x, r, hx, hw, hnone, heq⟩
        · exact .inl (hacc.trans h)
        · exact .inr ⟨x, r, hacc.trans hx, hw, hnone, heq⟩

/-! ## Every move -/

theorem Store.altersTo_restart (s : State) : s.store.altersTo s.restart.store := by
  have h : ∀ l : Line, l.altersTo l.afterRestart := fun l =>
    Line.altersTo_trans (l.altersTo_setStaged none) (Line.altersTo_updRun _ _)
  refine Store.altersTo_map h (fun _ l _ => ?_)
  exact ((l.setStaged none).slots_updRun _).le.trans l.slots_setStaged_none

/-- What a row that is no command, or one whose reply waits, makes of the queue and the store. -/
theorem State.Happens.writes {s t : State} (h : s.Happens t) : t.pending = s.pending ∧ ∃ b, s.Writes b ∧ b.altersTo t.store := by
  have halter : s.altersTo t → t.pending = s.pending ∧ ∃ b, s.Writes b ∧ b.altersTo t.store := fun h => ⟨h.1, _, .nothing, h.2.1⟩
  cases h with
  | completeCommit p c id d hc hclaim hdraft =>
    rcases State.completeCommit_effect hc hclaim hdraft with ⟨r, heq⟩ | ⟨b, x, hb, hx, heq⟩
    · rw [heq]
      refine ⟨by simp [State.commitOver], _, .nothing, ?_⟩
      simpa using Store.altersTo_refl _
    · rw [heq]
      obtain ⟨hp, hst, -⟩ := hx
      refine ⟨?_, b, hb, by rw [(commitDone_store x p c.reached).1]; exact hst⟩
      rw [State.commitDone]
      simpa [State.commitOver] using hp
  | lookForWork => exact halter (State.altersTo_lookForWork s)
  | finishRecheck f hf => exact halter (State.altersTo_finishRecheck s f)
  | link f hf => exact halter (State.altersTo_updLink s f)
  | frame f =>
    rcases State.finishFrame_judges s f with h | ⟨x, r, hx, -, -, heq⟩
    · exact halter h
    · rw [heq]
      exact ⟨by simpa using hx.1, _, .nothing, by simpa using hx.2.1⟩
  | transition ch => exact halter (State.altersTo_validTransition s ch)
  | invalid => exact halter (State.altersTo_updChain s _)
  | timer => exact halter (State.altersTo_expireTimer s)
  | waitOver hd => exact ⟨rfl, _, .nothing, Store.altersTo_refl _⟩
  | tie hr ha => exact ⟨rfl, _, .nothing, Store.altersTo_refl _⟩
  | retie args mm hr hs hlow hhigh => exact ⟨rfl, _, .nothing, Store.altersTo_refl _⟩
  | restart => exact ⟨rfl, _, .nothing, Store.altersTo_restart s⟩
  | clear row hi => exact ⟨rfl, _, .clear, Store.altersTo_refl _⟩
  | power powered resetLow => exact ⟨rfl, _, .nothing, Store.altersTo_refl _⟩
  | powerRestart powered resetLow => exact ⟨rfl, _, .nothing, Store.altersTo_restart { s with powered := powered, resetLow := resetLow }⟩

/-- A move leaves the queue of rows, and makes one write of the store with work in place after it. -/
theorem State.Moves.writes {s t : State} (h : s.Moves t) : t.pending = s.pending ∧ ∃ b, s.Writes b ∧ b.altersTo t.store := by
  cases h with
  | stays => exact ⟨rfl, _, .nothing, Store.altersTo_refl _⟩
  | port p hq => exact ⟨by simp, _, .nothing, by simpa using Store.altersTo_refl _⟩
  | act p row r hr hw =>
    obtain ⟨b, x, hb, hx, hw⟩ := hw.effect
    obtain ⟨hp, hst, -⟩ := hx
    have hp : x.pending = s.pending := hp.trans (State.taken_pending ..)
    refine ⟨?_, b, hb.of_taken, ?_⟩ <;> rcases hw with rfl | rfl
    · simpa using hp
    · simpa [State.emptyClaim] using hp
    · simpa using hst
    · simpa [State.emptyClaim] using hst
  | event h => exact h.writes

/-- Settles O2: every row leads to a move, and no move touches the queue. -/
theorem everyRowAnswersANextState : Obligations.EveryRowAnswersANextState := by
  intro c s
  obtain ⟨t, ht, hm⟩ := exec_moves c s
  exact ⟨t, ht, hm.writes.1⟩

end Sys2Proof.Machine
end

section
/-! PROOF. The laws of the line table, the breakpoint pool and the station signatures, which each write of the store keeps (R1, R13, R21,
R34). -/
namespace Sys2Proof.Machine

/-! ## A record put in its place -/

theorem mem_insertLine {l m : Line} {ls : List Line} : m ∈ insertLine l ls ↔ m = l ∨ m ∈ ls := by
  induction ls with
  | nil => simp [insertLine]
  | cons x xs ih =>
    unfold insertLine
    split
    · simp
    · rw [List.mem_cons, List.mem_cons, ih]
      exact or_left_comm

theorem insertLine_ascending {l : Line} {ls : List Line} (h : (ls.map (fun l => l.id)).Pairwise (fun a b => a < b))
    (hnew : ∀ m ∈ ls, m.id ≠ l.id) : ((insertLine l ls).map (fun l => l.id)).Pairwise (fun a b => a < b) := by
  induction ls with
  | nil => exact List.pairwise_singleton _ _
  | cons x xs ih =>
    obtain ⟨hx, hxs⟩ := List.pairwise_cons.mp h
    unfold insertLine
    split
    · rename_i hlt
      refine List.pairwise_cons.mpr ⟨fun a ha => ?_, h⟩
      rcases List.mem_cons.mp ha with rfl | ha
      · exact hlt
      · exact hlt.trans (hx a ha)
    · rename_i hge
      refine List.pairwise_cons.mpr ⟨fun a ha => ?_, ih hxs (fun m hm => hnew m (List.mem_cons_of_mem x hm))⟩
      obtain ⟨m, hm, rfl⟩ := List.mem_map.mp ha
      rcases mem_insertLine.mp hm with rfl | hm
      · exact lt_of_le_of_ne (Nat.not_lt.mp hge) (hnew x List.mem_cons_self)
      · exact hx _ (List.mem_map_of_mem hm)

theorem insertLine_perm (l : Line) (ls : List Line) : (insertLine l ls).Perm (l :: ls) := by
  induction ls with
  | nil => exact .refl _
  | cons x xs ih =>
    unfold insertLine
    split
    · exact .refl _
    · exact (ih.cons x).trans (.swap l x xs)

theorem length_insertLine (l : Line) (ls : List Line) : (insertLine l ls).length = ls.length + 1 := (insertLine_perm l ls).length_eq

/-! ## Records by their ids -/

theorem Store.line?_eq_none {st : Store} {id : Nat} : st.line? id = none ↔ ∀ l ∈ st.lines, l.id ≠ id := by
  simp [Store.line?]

theorem Store.line?_eq_some {st : Store} (h : st.idsAscending) {id : Nat} {l : Line} :
    st.line? id = some l ↔ l ∈ st.lines ∧ l.id = id := by
  constructor
  · intro hl
    have h1 := List.mem_of_find?_eq_some hl
    have h2 := List.find?_some hl
    exact ⟨h1, by simpa using h2⟩
  · rintro ⟨hl, rfl⟩
    have hne : st.line? l.id ≠ none := fun hn => Store.line?_eq_none.mp hn l hl rfl
    obtain ⟨m, hm⟩ := Option.ne_none_iff_exists'.mp hne
    have hmem := List.mem_of_find?_eq_some hm
    have hid : m.id = l.id := by simpa using List.find?_some hm
    have hnd : (st.lines.map (fun l => l.id)).Nodup := h.imp (fun hlt => Nat.ne_of_lt hlt)
    rw [hm, List.inj_on_of_nodup_map hnd hmem hl hid]

/-- Two records with one id are the same. -/
theorem Store.eq_of_id {st : Store} (h : st.idsAscending) {l m : Line} (hl : l ∈ st.lines) (hm : m ∈ st.lines) (hid : l.id = m.id) :
    l = m := by
  have h1 := (Store.line?_eq_some h).mpr ⟨hl, rfl⟩
  have h2 := (Store.line?_eq_some h).mpr ⟨hm, hid.symm⟩
  exact Option.some.inj (h1.symm.trans h2)

/-! ## What a commit's completion has tested -/

/-- The completion tests passed, each read off (R74). -/
theorem State.completionRefusal?_none {s : State} {c : CommitRun} {u : Subject} {d : Draft} (h : s.completionRefusal? c u d = none) :
    (s.line? u.id).map (fun l => l.lifecycle.kind) = c.was ∧ (∀ l, s.line? u.id = some l → d.base = some l.revision)
      ∧ (s.line? u.id = none → s.store.lines.length < Config.maxLines) ∧ forestFailure s.store u = none
      ∧ frozenOut s.store (s.line? u.id) u = false ∧ u.points.length - slotsReturned (s.line? u.id) ≤ s.store.freeSlots := by
  unfold State.completionRefusal? at h
  dsimp only at h
  split at h
  · cases h
  · rename_i hwas
    split at h
    · cases h
    · rename_i hbase
      split at h
      · cases h
      · rename_i hfull
        split at h
        · cases h
        · rename_i hforest
          split at h
          · cases h
          · rename_i hfrozen
            split at h
            · cases h
            · rename_i hpool
              refine ⟨not_not.mp hwas, fun l hl => ?_, fun hn => ?_, hforest, Bool.not_eq_true _ ▸ hfrozen, Nat.not_lt.mp hpool⟩
              · simpa [hl] using hbase
              · simpa [hn] using hfull

/-! ## One ACTIVE line (R13) -/

/-- With no run there is no ACTIVE line. -/
theorem State.isIdle_iff {s : State} : s.isIdle = true ↔ ∀ l ∈ s.store.lines, l.isActive = false := by
  unfold State.isIdle State.context? State.active?
  rw [Option.isNone_iff_eq_none]
  constructor
  · intro h l hl
    by_contra hne
    cases hf : s.store.lines.find? Line.isActive with
    | none => simp [List.find?_eq_none.mp hf l hl] at hne
    | some m =>
      have hm := List.find?_some hf
      rw [Line.isActive_run] at hm
      rw [hf, Option.bind_some] at h
      simp [h] at hm
  · intro h
    have hf : s.store.lines.find? Line.isActive = none := List.find?_eq_none.mpr (fun l hl => by simp [h l hl])
    rw [hf]
    rfl

/-- At most one record has an id. -/
theorem Store.length_filter_id {st : Store} (h : st.idsAscending) (id : Nat) : (st.lines.filter (fun l => l.id == id)).length ≤ 1 := by
  have hp : (st.lines.filter (fun l => l.id == id)).Pairwise (fun a b => a.id < b.id) := (List.pairwise_map.mp h).filter _
  rcases hf : st.lines.filter (fun l => l.id == id) with _ | ⟨x, _ | ⟨y, ys⟩⟩
  · simp [hf]
  · simp [hf]
  · have hx : x ∈ st.lines.filter (fun l => l.id == id) := by simp [hf]
    have hy : y ∈ st.lines.filter (fun l => l.id == id) := by simp [hf]
    have hxi : x.id = id := by simpa using (List.mem_filter.mp hx).2
    have hyi : y.id = id := by simpa using (List.mem_filter.mp hy).2
    rw [hf] at hp
    have := (List.pairwise_cons.mp hp).1 y List.mem_cons_self
    omega

theorem Draft.replaced_id (d : Draft) (l : Line) : (d.replaced l).id = l.id := rfl

theorem Draft.replaced_isActive (d : Draft) (l : Line) : (d.replaced l).isActive = l.isActive := rfl

/-- One record at most has its lifecycle made ACTIVE, of those that are not. -/
theorem Store.oneActive_select {st : Store} (h : st.idsAscending) (hidle : ∀ l ∈ st.lines, l.isActive = false) (id : Nat) (x : Lifecycle) :
    ((st.lines.map (fun k => if k.id = id then { k with lifecycle := x } else k)).filter Line.isActive).length ≤ 1 := by
  refine le_trans ?_ (Store.length_filter_id h id)
  rw [List.filter_map, List.length_map]
  have hsub : st.lines.filter (Line.isActive ∘ fun k => if k.id = id then { k with lifecycle := x } else k)
      = (st.lines.filter (fun l => l.id == id)).filter
        (Line.isActive ∘ fun k => if k.id = id then { k with lifecycle := x } else k) := by
    rw [List.filter_filter]
    refine List.filter_congr (fun l hl => ?_)
    by_cases hid : l.id = id
    · simp [hid]
    · simp [hid, hidle l hl]
  rw [hsub]
  exact List.length_filter_le _ _

theorem Draft.stagedOn_id (d : Draft) (l : Line) (reached : Bool) (k : Line) : (d.stagedOn l reached k).id = k.id := k.setStaged_id _

theorem Draft.stagedOn_isActive (d : Draft) (l : Line) (reached : Bool) (k : Line) :
    (d.stagedOn l reached k).isActive = k.isActive := k.setStaged_isActive _

theorem updLine_ids {f : Line → Line} (hf : ∀ l, (f l).id = l.id) (ls : List Line) (id : Nat) :
    (ls.map (fun k => if k.id = id then f k else k)).map (fun l => l.id) = ls.map (fun l => l.id) := by
  rw [List.map_map]
  refine List.map_congr_left (fun l _ => ?_)
  simp only [Function.comp]
  split
  · exact hf l
  · rfl

theorem oneActive_updLine {f : Line → Line} (hf : ∀ l, (f l).isActive = l.isActive) {st : Store} (id : Nat) (h : st.oneActive) :
    ((st.lines.map (fun k => if k.id = id then f k else k)).filter Line.isActive).length ≤ 1 := by
  refine Store.oneActive_map (fun l hl => ?_) h
  split at hl
  · rwa [hf] at hl
  · exact hl

/-! ## The table under a write -/

/-- The law of the table less the claims. -/
def Store.tableLaw (st : Store) : Prop :=
  st.idsAscending ∧ st.idsInRange ∧ st.lines.length ≤ Config.maxLines ∧ st.oneActive

/-- Every write keeps one record for an id. -/
theorem State.Writes.idsAscending {s : State} {b : Store} (h : s.Writes b) (hs : s.store.idsAscending) : b.idsAscending := by
  cases h with
  | create p c id d h hl => exact insertLine_ascending hs (Store.line?_eq_none.mp hl)
  | replace p c id d l h hl ha => rw [Store.idsAscending, updLine_ids (d.replaced_id)]; exact hs
  | stage p c id d l h hl ha =>
    rw [Store.idsAscending, updLine_ids (d.stagedOn_id l c.reached)]
    exact hs
  | retire id hpass => exact hs.sublist (List.filter_sublist.map _)
  | select id l hidle hl hsel =>
    rw [Store.idsAscending, updLine_ids (f := fun k => { k with lifecycle := .active RunContext.selected none }) (fun _ => rfl)]
    exact hs
  | clear => exact List.Pairwise.nil
  | nothing | station | settings => exact hs

/-- Every write keeps one ACTIVE line. -/
theorem State.Writes.oneActive {s : State} {b : Store} (h : s.Writes b) (hids : s.store.idsAscending) (hs : s.store.oneActive) :
    b.oneActive := by
  cases h with
  | create p c id d h hl =>
    have hp := (insertLine_perm (d.newLine id) s.store.lines).filter Line.isActive
    exact hp.length_eq.trans_le hs
  | replace p c id d l h hl ha => exact oneActive_updLine d.replaced_isActive id hs
  | stage p c id d l h hl ha => exact oneActive_updLine (d.stagedOn_isActive l c.reached) l.id hs
  | retire id hpass => exact ((List.filter_sublist.filter _).length_le).trans hs
  | select id l hidle hl hsel => exact Store.oneActive_select hids (State.isIdle_iff.mp hidle) id _
  | clear => exact Nat.zero_le 1
  | nothing | station | settings => exact hs

theorem State.Writes.tableLaw {s : State} {b : Store} (h : s.Writes b) (hs : s.tableLaw) : b.tableLaw := by
  obtain ⟨hids, hrange, hlen, hone, hcab, hplan⟩ := hs
  refine ⟨h.idsAscending hids, ?_, ?_, h.oneActive hids hone⟩
  · cases h with
    | create p c id d h hl =>
      intro m hm
      rcases mem_insertLine.mp hm with rfl | hm
      · have hcl := h.claim
        cases p
        · exact hcab id (by simpa using hcl)
        · exact hplan id (by simpa using hcl)
      · exact hrange m hm
    | replace p c id d l h hl ha =>
      intro m hm
      obtain ⟨k, hk, rfl⟩ := List.mem_map.mp hm
      have := hrange k hk
      split <;> exact this
    | stage p c id d l h hl ha =>
      intro m hm
      obtain ⟨k, hk, rfl⟩ := List.mem_map.mp hm
      have := hrange k hk
      split
      · rw [d.stagedOn_id]
        exact this
      · exact this
    | retire id hpass => exact fun m hm => hrange m (List.mem_of_mem_filter hm)
    | select id l hidle hl hsel =>
      intro m hm
      obtain ⟨k, hk, rfl⟩ := List.mem_map.mp hm
      have := hrange k hk
      split <;> exact this
    | clear => exact fun m hm => nomatch hm
    | nothing | station | settings => exact hrange
  · cases h with
    | create p c id d h hl =>
      obtain ⟨-, -, hfull, -⟩ := State.completionRefusal?_none h.pass
      exact (length_insertLine _ _).trans_le (hfull hl)
    | replace p c id d l h hl ha => simpa using hlen
    | stage p c id d l h hl ha => simpa using hlen
    | retire id hpass => exact (List.length_filter_le _ _).trans hlen
    | select id l hidle hl hsel => simpa using hlen
    | clear => exact Nat.zero_le _
    | nothing | station | settings => exact hlen

theorem Store.altersTo_ids {a b : Store} (h : a.altersTo b) : b.lines.map (fun l => l.id) = a.lines.map (fun l => l.id) := by
  obtain ⟨-, -, ⟨f, hf, hl⟩, -⟩ := h
  rw [hf, List.map_map]
  exact List.map_congr_left (fun l _ => (hl l).1)

theorem Store.altersTo_idsAscending {a b : Store} (h : a.altersTo b) (ha : a.idsAscending) : b.idsAscending := by
  rw [Store.idsAscending, Store.altersTo_ids h]
  exact ha

theorem Store.altersTo_tableLaw {a b : Store} (h : a.altersTo b) (ha : a.tableLaw) : b.tableLaw := by
  obtain ⟨hids, hrange, hlen, hone⟩ := ha
  have hmap := Store.altersTo_ids h
  refine ⟨Store.altersTo_idsAscending h hids, fun m hm => ?_, ?_, Store.altersTo_oneActive h hone⟩
  · have hm' : m.id ∈ a.lines.map (fun l => l.id) := hmap ▸ List.mem_map_of_mem hm
    obtain ⟨l, hl, heq⟩ := List.mem_map.mp hm'
    rw [← heq]
    exact hrange l hl
  · have := congrArg List.length hmap
    rw [List.length_map, List.length_map] at this
    rw [this]
    exact hlen

/-! ## Claims and commits in flight -/

theorem State.altersTo.port {s t : State} (h : s.altersTo t) (p : Port) : (s.port p).altersTo (t.port p) := by
  obtain ⟨-, -, hc, hl, -⟩ := h
  cases p
  · exact hc
  · exact hl

theorem PortState.altersTo.claim {q r : PortState} (h : q.altersTo r) : r.claim = q.claim := by rw [h.1]

/-- A port after a change of one port. -/
theorem State.port_updPort_cases (s : State) (p q : Port) (f : PortState → PortState) :
    (s.updPort p f).port q = if q = p then f (s.port p) else s.port q := by
  cases p <;> cases q <;> rfl

/-- The port's claim stands or is empty, and a commit in flight stands, as far as what it was taken of goes, or is over. -/
def PortState.restsIn (q r : PortState) : Prop :=
  (r.claim = q.claim ∨ r.claim = none) ∧ (r.commit.map (fun c => c.was) = q.commit.map (fun c => c.was) ∨ r.commit = none)

theorem PortState.restsIn_refl (q : PortState) : q.restsIn q := ⟨.inl rfl, .inl rfl⟩

theorem PortState.restsIn.trans {q r x : PortState} (h : q.restsIn r) (h' : r.restsIn x) : q.restsIn x := by
  obtain ⟨hc, hw⟩ := h
  obtain ⟨hc', hw'⟩ := h'
  refine ⟨?_, ?_⟩
  · rcases hc' with h | h
    · rw [h]
      exact hc
    · exact .inr h
  · rcases hw' with h | h
    · rw [h]
      exact hw.imp_right (fun hn => by
        rw [hn] at h
        exact Option.map_eq_none_iff.mp h)
    · exact .inr h

theorem PortState.altersTo.restsIn {q r : PortState} (h : q.altersTo r) : q.restsIn r := ⟨.inl h.claim, .inl h.2.2.1⟩

/-- A row that is no command leaves claims and commits in flight, or ends them. -/
theorem State.Happens.rests {s t : State} (h : s.Happens t) (q : Port) : (s.port q).restsIn (t.port q) := by
  have halter : s.altersTo t → (s.port q).restsIn (t.port q) := fun h => (h.port q).restsIn
  cases h with
  | completeCommit p c id d hc hclaim hdraft =>
    rcases State.completeCommit_effect hc hclaim hdraft with ⟨r, heq⟩ | ⟨b, x, -, hx, heq⟩
    · rw [heq]
      cases p <;> cases q <;> exact ⟨.inl rfl, by simp [State.commitOver, State.reply]⟩
    · have hwrite : ((s.commitOver p).port q).restsIn (x.port q) := by
        have := (hx.port q).restsIn
        cases p <;> cases q <;> exact this
      have hover : (s.port q).restsIn ((s.commitOver p).port q) := by
        cases p <;> cases q <;> exact ⟨.inl rfl, by simp [State.commitOver]⟩
      have hdone : (x.port q).restsIn ((x.commitDone p c.reached).port q) := by
        cases p <;> cases q <;> exact ⟨.inl rfl, .inl rfl⟩
      rw [heq]
      exact (hover.trans hwrite).trans hdone
  | lookForWork => exact halter (State.altersTo_lookForWork s)
  | finishRecheck f hf => exact halter (State.altersTo_finishRecheck s f)
  | link f hf => exact halter (State.altersTo_updLink s f)
  | frame f =>
    rcases State.finishFrame_judges s f with h | ⟨x, r, hx, -, -, heq⟩
    · exact halter h
    · rw [heq]
      refine (hx.port q).restsIn.trans ?_
      cases q <;> exact ⟨.inl rfl, .inl rfl⟩
  | transition ch => exact halter (State.altersTo_validTransition s ch)
  | invalid => exact halter (State.altersTo_updChain s _)
  | timer => exact halter (State.altersTo_expireTimer s)
  | waitOver hd => cases q <;> exact ⟨.inl rfl, .inl rfl⟩
  | tie hr ha => cases q <;> exact ⟨.inl rfl, .inl rfl⟩
  | retie args mm hr hs hlow hhigh => cases q <;> exact ⟨.inl rfl, .inl rfl⟩
  | restart => cases q <;> exact ⟨.inr rfl, .inr rfl⟩
  | clear row hi => cases q <;> exact ⟨.inr rfl, .inr rfl⟩
  | power powered resetLow => cases q <;> exact ⟨.inl rfl, .inl rfl⟩
  | powerRestart powered resetLow => cases q <;> exact ⟨.inr rfl, .inr rfl⟩

/-- A command that acts leaves claims and commits in flight, or empties its port's claim. -/
theorem State.Acts.rests {u w : State} {p : Port} (h : u.Acts p w) (q : Port) : (u.port q).restsIn (w.port q) := by
  obtain ⟨b, x, -, hx, hw⟩ := h.effect
  have hux : (u.port q).restsIn (x.port q) := by
    have := (hx.port q).restsIn
    cases q <;> exact this
  rcases hw with rfl | rfl
  · exact hux
  · refine hux.trans ?_
    cases p <;> cases q <;> exact ⟨by simp [State.emptyClaim], .inl (by simp [State.emptyClaim])⟩

/-- A line taken, and its reply, leave the claims and the commits in flight. -/
theorem State.taken_rests (s : State) (p q : Port) (row : Instr) : (s.port q).restsIn ((s.taken p row).port q) := by
  cases p <;> cases q <;> exact ⟨.inl rfl, .inl rfl⟩

theorem State.reply_rests (s : State) (p q : Port) (r : Reply) : (s.port q).restsIn ((s.reply p r).port q) := by
  cases p <;> cases q <;> exact ⟨.inl rfl, .inl rfl⟩

/-- A port's own rows leave its claim, empty it, or take an id from 1 to 999 that the other port does not hold. -/
theorem State.PortMoves.claim {s : State} {p : Port} {q : PortState} (h : s.PortMoves p q) :
    q.claim = (s.port p).claim ∨ q.claim = none
      ∨ ∃ id, q.claim = some id ∧ 1 ≤ id ∧ id ≤ 999 ∧ (s.port (otherPort p)).claim ≠ some id := by
  cases h with
  | released | lapsed => exact .inr (.inl rfl)
  | claimed hb row r id hlow hhigh hother hfree => exact .inr (.inr ⟨id, rfl, hlow, hhigh, hother⟩)
  | _ => exact .inl rfl

/-- A move leaves a claim, or takes an id from 1 to 999. -/
theorem State.Moves.claim {s t : State} (h : s.Moves t) (q : Port) :
    ∀ id, (t.port q).claim = some id → (s.port q).claim = some id ∨ (1 ≤ id ∧ id ≤ 999) := by
  intro id hid
  have hrest : (s.port q).restsIn (t.port q) → (s.port q).claim = some id ∨ (1 ≤ id ∧ id ≤ 999) := by
    rintro ⟨h | h, -⟩
    · exact .inl (h ▸ hid)
    · rw [h] at hid
      cases hid
  cases h with
  | stays => exact .inl hid
  | port p hq =>
    rw [State.port_updPort_cases] at hid
    split at hid
    · subst q
      rcases hq.claim with h | h | ⟨k, hk, h1, h2, -⟩
      · exact .inl (h ▸ hid)
      · rw [h] at hid
        cases hid
      · rw [hk] at hid
        cases hid
        exact .inr ⟨h1, h2⟩
    · exact .inl hid
  | act p row r hr hw => exact hrest (((State.taken_rests s p q row).trans (hw.rests q)).trans (State.reply_rests _ p q r))
  | event h => exact hrest (h.rests q)

/-! ## The line table (O5) -/

theorem tableLaw_iff {s : State} : s.tableLaw ↔ s.store.tableLaw ∧ ∀ p, (s.port p).claimInRange := by
  constructor
  · rintro ⟨h1, h2, h3, h4, h5, h6⟩
    exact ⟨⟨h1, h2, h3, h4⟩, fun p => by cases p; exacts [h5, h6]⟩
  · rintro ⟨⟨h1, h2, h3, h4⟩, h5⟩
    exact ⟨h1, h2, h3, h4, h5 .cab, h5 .plan⟩

theorem State.Moves.tableLaw {s t : State} (h : s.Moves t) (hs : s.tableLaw) : t.tableLaw := by
  obtain ⟨-, b, hb, hbt⟩ := h.writes
  refine tableLaw_iff.mpr ⟨Store.altersTo_tableLaw hbt (hb.tableLaw hs), fun p id hid => ?_⟩
  exact (h.claim p id hid).elim ((tableLaw_iff.mp hs).2 p id) (fun h => h)

theorem keptByMoves_tableLaw : KeptByMoves State.tableLaw := ⟨fun _ _ _ h => h, fun _ _ h hs => h.tableLaw hs⟩

/-- Settles O5: each write of the store keeps the table, and new ids come from claims in range. -/
theorem stepKeepsTheLineTable : Obligations.StepKeepsTheLineTable := fun _ _ hs ht => keptByMoves_tableLaw.step ht hs

/-! ## The pool (R21, O6) -/

/-- The sum over the records when the one with an id is replaced. -/
theorem sum_updLine {f : Line → Line} {g : Line → Nat} {ls : List Line} (h : (ls.map (fun l => l.id)).Pairwise (fun a b => a < b))
    {l : Line} (hl : l ∈ ls) :
    ((ls.map (fun k => if k.id = l.id then f k else k)).map g).sum + g l = (ls.map g).sum + g (f l) := by
  induction ls with
  | nil => simp at hl
  | cons x xs ih =>
    obtain ⟨hx, hxs⟩ := List.pairwise_cons.mp h
    simp only [List.map_cons, List.sum_cons]
    rcases List.mem_cons.mp hl with rfl | hl
    · have hrest : xs.map (fun k => if k.id = l.id then f k else k) = xs := by
        conv_rhs => rw [← List.map_id xs]
        refine List.map_congr_left (fun k hk => ?_)
        have := hx k.id (List.mem_map_of_mem (f := fun l : Line => l.id) hk)
        simp [Nat.ne_of_gt this]
      rw [hrest, if_pos rfl]
      omega
    · have hne : x.id ≠ l.id := Nat.ne_of_lt (hx l.id (List.mem_map_of_mem (f := fun l : Line => l.id) hl))
      rw [if_neg hne]
      have := ih hxs hl
      omega

theorem Line.slots_of_not_active {l : Line} (h : l.isActive = false) : l.slots = l.profile.length := by
  unfold Line.slots Line.staged?
  rcases hl : l.lifecycle with _ | ⟨r, st⟩ | _ | _
  · rfl
  · simp [Line.isActive, hl, Lifecycle.kind] at h
  · rfl
  · rfl

theorem length_plainProfile (ps : List Point) : (plainProfile ps).length = ps.length := List.length_map ..

theorem slotsReturned_of_not_active {l : Line} (h : l.isActive = false) : slotsReturned (some l) = l.profile.length := by
  unfold slotsReturned
  rcases hl : l.lifecycle with _ | ⟨r, st⟩ | _ | _ <;> simp [hl]
  simp [Line.isActive, hl, Lifecycle.kind] at h

theorem Line.slots_of_active {l : Line} (h : l.isActive = true) : l.slots = l.profile.length + slotsReturned (some l) := by
  obtain ⟨r, st, hl⟩ := (Line.isActive_iff l).mp h
  unfold Line.slots Line.staged? slotsReturned
  cases st <;> simp [hl]

/-- The slots of an ACTIVE line after a commit of it: at most those of its profile and the draft's. -/
theorem Draft.slots_stagedOn (d : Draft) {l : Line} (h : l.isActive = true) (reached : Bool) :
    (d.stagedOn l reached l).slots ≤ l.profile.length + (present d.points).length := by
  obtain ⟨r, x, hl⟩ := (Line.isActive_iff l).mp h
  cases reached <;> simp [Draft.stagedOn, Line.setStaged, hl, Line.slots, Line.staged?, Draft.stagedFor]

theorem State.Writes.heldSlots {s : State} {b : Store} (h : s.Writes b) (hids : s.store.idsAscending)
    (hs : s.store.heldSlots ≤ Config.poolSlots) : b.heldSlots ≤ Config.poolSlots := by
  cases h with
  | create p c id d h hl =>
    obtain ⟨-, -, -, -, -, hpool⟩ := State.completionRefusal?_none h.pass
    have hl' : s.line? (d.subject id).id = none := hl
    rw [hl', Store.freeSlots] at hpool
    have hsum : ((insertLine (d.newLine id) s.store.lines).map Line.slots).sum = (d.newLine id).slots + s.store.heldSlots :=
      (((insertLine_perm (d.newLine id) s.store.lines).map Line.slots).sum_eq).trans (by simp [Store.heldSlots])
    have hnew : (d.newLine id).slots = (d.subject id).points.length := length_plainProfile _
    rw [Store.heldSlots, hsum, hnew]
    simp only [slotsReturned] at hpool
    omega
  | replace p c id d l h hl ha =>
    obtain ⟨-, -, -, -, -, hpool⟩ := State.completionRefusal?_none h.pass
    have hl' : s.line? (d.subject id).id = some l := hl
    obtain ⟨hmem, hid⟩ := (Store.line?_eq_some hids).mp hl
    subst hid
    rw [hl', Store.freeSlots, slotsReturned_of_not_active ha] at hpool
    have hsum := sum_updLine (f := d.replaced) (g := Line.slots) hids hmem
    have hnew : (d.replaced l).slots = (d.subject l.id).points.length :=
      (Line.slots_of_not_active (l := d.replaced l) ha).trans (length_plainProfile _)
    rw [hnew, Line.slots_of_not_active ha] at hsum
    simp only [Store.heldSlots] at hpool hs ⊢
    omega
  | stage p c id d l h hl ha =>
    obtain ⟨-, -, -, -, -, hpool⟩ := State.completionRefusal?_none h.pass
    have hl' : s.line? (d.subject id).id = some l := hl
    obtain ⟨hmem, hid⟩ := (Store.line?_eq_some hids).mp hl
    rw [hl', Store.freeSlots] at hpool
    have hsum := sum_updLine (f := d.stagedOn l c.reached) (g := Line.slots) hids hmem
    rw [Line.slots_of_active ha] at hsum
    have hnew : (d.stagedOn l c.reached l).slots ≤ l.profile.length + (d.subject id).points.length := d.slots_stagedOn ha c.reached
    simp only [Store.heldSlots] at hpool hs ⊢
    omega
  | retire id hpass => exact ((List.filter_sublist.map Line.slots).sum_le_sum (fun _ _ => Nat.zero_le _)).trans hs
  | select id l hidle hl hsel =>
    refine le_trans ?_ hs
    simp only [Store.heldSlots, List.map_map]
    refine List.sum_le_sum (fun k _ => ?_)
    simp only [Function.comp]
    split
    · exact Line.slots_unstaged rfl rfl
    · exact le_rfl
  | clear => exact Nat.zero_le _
  | nothing | station | settings => exact hs

theorem State.Moves.poolLaw {s t : State} (h : s.Moves t) (hs : s.poolLaw) : t.poolLaw := by
  obtain ⟨hids, hone, hheld⟩ := hs
  obtain ⟨-, b, hb, hbt⟩ := h.writes
  have hb1 := hb.oneActive hids hone
  obtain ⟨-, -, -, hslots⟩ := id hbt
  exact ⟨Store.altersTo_idsAscending hbt (hb.idsAscending hids), Store.altersTo_oneActive hbt hb1,
    (hslots hb1).trans (hb.heldSlots hids hheld)⟩

theorem keptByMoves_poolLaw : KeptByMoves State.poolLaw := ⟨fun _ _ _ h => h, fun _ _ h hs => h.poolLaw hs⟩

/-- Settles O6: a commit takes no more slots than are free with those it returns, and nothing else takes any. -/
theorem stepKeepsThePool : Obligations.StepKeepsThePool := fun _ _ hs ht => keptByMoves_poolLaw.step ht hs

/-! ## Signatures (R34, O7) -/

theorem sameUnder_comm (mask a b : Byte) : sameUnder mask a b = sameUnder mask b a := BEq.comm

theorem StationId.mem_all (n : StationId) : n ∈ StationId.all := by cases n <;> decide

theorem StationId.number_ne {n m : StationId} (h : n ≠ m) : n.number < m.number ∨ m.number < n.number := by
  have hne : n.number ≠ m.number := fun he => h (by
    have := stationOf?_number n
    rw [he, stationOf?_number m] at this
    exact (Option.some.inj this).symm)
  omega

/-- No two IN_SERVICE stations have equal signatures under a mask. -/
theorem Store.collidesUnder_iff (st : Store) (mask : Byte) : st.collidesUnder mask = false ↔
    ∀ n m d e, n ≠ m → st.stations.get n = .inService d → st.stations.get m = .inService e → sameUnder mask d.signature e.signature = false := by
  have hbase : st.collidesUnder mask = false ↔ ∀ n m d e, n.number < m.number → st.stations.get n = .inService d →
      st.stations.get m = .inService e → sameUnder mask d.signature e.signature = false := by
    constructor
    · intro h n m d e hlt hn hm
      have h1 := List.any_eq_false.mp h n (StationId.mem_all n)
      rw [Bool.not_eq_true] at h1
      have h2 := List.any_eq_false.mp h1 m (StationId.mem_all m)
      simpa [hlt, hn, hm] using h2
    · intro h
      refine List.any_eq_false.mpr (fun n _ => ?_)
      rw [Bool.not_eq_true]
      refine List.any_eq_false.mpr (fun m _ => ?_)
      rw [Bool.not_eq_true, Bool.and_eq_false_imp]
      intro hlt
      split
      · rename_i d e hn hm
        exact h n m d e (of_decide_eq_true hlt) hn hm
      · rfl
  rw [hbase]
  constructor
  · intro h n m d e hne hn hm
    rcases StationId.number_ne hne with hlt | hlt
    · exact h n m d e hlt hn hm
    · rw [sameUnder_comm]
      exact h m n e d hlt hm hn
  · intro h n m d e hlt hn hm
    exact h n m d e (fun he => by subst he; omega) hn hm

theorem Store.collides_false {st : Store} {n : StationId} {sig : Byte} (h : st.collides n sig = false) {m : StationId} {d : StationData}
    (hne : m ≠ n) (hm : st.stations.get m = .inService d) : sameUnder st.settings.sigMask d.signature sig = false := by
  have h1 := List.any_eq_false.mp h m (StationId.mem_all m)
  simpa [hne, hm] using h1

theorem Settings.put_sigMask (t : Settings) {name : SettingName} (h : name ≠ .sigMask) (v : SettingValue) :
    (t.put name v).sigMask = t.sigMask := by
  cases name with
  | sigMask => exact absurd rfl h
  | odoDecode => cases v <;> rfl
  | gradeEffect => cases v <;> rfl
  | _ => rfl

theorem State.setRefusal?_none {s : State} {name : SettingName} {v : SettingValue} (h : s.setRefusal? name v = none) :
    ((name = .mast ∨ name = .clearBand) → bandGood (s.settings.put name v) = true) ∧ s.setBarred name v = false
      ∧ (name = .sigMask → s.store.collidesUnder (s.settings.put name v).sigMask = false) := by
  unfold State.setRefusal? at h
  dsimp only at h
  split at h
  · cases h
  · rename_i h1
    split at h
    · cases h
    · rename_i h2
      split at h
      · cases h
      · split at h
        · cases h
        · rename_i h4
          refine ⟨fun hn => ?_, Bool.not_eq_true _ ▸ h2, fun hn => ?_⟩
          · by_contra hb
            rw [Bool.not_eq_true] at hb
            refine h1 ?_
            rw [hb]
            rcases hn with rfl | rfl <;> rfl
          · subst hn
            simpa using h4

theorem State.Writes.collisionLaw {s : State} {b : Store} (h : s.Writes b) (hs : s.store.collisionLaw) : b.collisionLaw := by
  cases h with
  | station n x hx =>
    have hs' := (Store.collidesUnder_iff _ _).mp hs
    have hcase : ∀ m d e, m ≠ n → x = .inService d → s.store.stations.get m = .inService e →
        sameUnder s.store.settings.sigMask e.signature d.signature = false := by
      intro m d e hne hd hm
      rcases hx d hd with hc | ⟨d', hn, hsig⟩
      · exact Store.collides_false hc hne hm
      · rw [← hsig]
        exact hs' m n e d' hne hm hn
    refine (Store.collidesUnder_iff _ _).mpr (fun m k d e hne hm hk => ?_)
    by_cases hmn : m = n
    · subst hmn
      rw [Six.get_set] at hm
      rw [Six.get_set_other _ _ _ _ (Ne.symm hne)] at hk
      rw [sameUnder_comm]
      exact hcase k d e (Ne.symm hne) hm hk
    · rw [Six.get_set_other _ _ _ _ hmn] at hm
      by_cases hkn : k = n
      · subst hkn
        rw [Six.get_set] at hk
        exact hcase m e d hmn hk hm
      · rw [Six.get_set_other _ _ _ _ hkn] at hk
        exact hs' m k d e hne hm hk
  | settings name v word hv hpass =>
    show s.store.collidesUnder (s.settings.put name v).sigMask = false
    by_cases hname : name = .sigMask
    · exact (State.setRefusal?_none hpass).2.2 hname
    · rw [Settings.put_sigMask _ hname]
      exact hs
  | clear => decide
  | nothing | create | replace | stage | retire | select => exact hs

theorem keptByMoves_collisionLaw : KeptByMoves (fun s => s.store.collisionLaw) := by
  refine ⟨fun _ _ _ h => h, fun s t h hs => ?_⟩
  obtain ⟨-, b, hb, hst, hset, -⟩ := h.writes
  have hb' : b.collidesUnder b.settings.sigMask = false := hb.collisionLaw hs
  show t.store.collidesUnder t.store.settings.sigMask = false
  rw [hset, ← hb']
  simp only [Store.collidesUnder, hst]

/-- Settles O7: DEFINE and RESTORE test a signature against the others, and SET a mask against them all. -/
theorem stepKeepsSignaturesApart : Obligations.StepKeepsSignaturesApart := fun _ _ hs ht => keptByMoves_collisionLaw.step ht hs

end Sys2Proof.Machine
end

section
/-! PROOF. Laid lines stand, and the law of the forest, which each write of the store keeps (R9, R18, R19, R56). -/
namespace Sys2Proof.Machine

/-! ## Records after a change in place -/

theorem Store.line?_map {f : Line → Line} (hf : ∀ l, (f l).id = l.id) (st : Store) (id : Nat) :
    ({ st with lines := st.lines.map f } : Store).line? id = (st.line? id).map f := find_map_id hf st.lines id

/-- A record found after lines were altered in place is one that was there, altered. -/
theorem Store.altersTo_line? {a b : Store} (h : a.altersTo b) :
    ∃ f : Line → Line, b.lines = a.lines.map f ∧ (∀ l : Line, l.altersTo (f l)) ∧ ∀ id, b.line? id = (a.line? id).map f := by
  obtain ⟨-, -, ⟨f, hf, hl⟩, -⟩ := h
  refine ⟨f, hf, hl, fun id => ?_⟩
  show b.lines.find? _ = _
  rw [hf]
  exact find_map_id (fun l => (hl l).1) a.lines id

theorem Line.altersTo.parent? {l m : Line} (h : l.altersTo m) : m.parent? = l.parent? := by
  obtain ⟨-, hout, -⟩ := h
  rw [Line.parent?, hout, Line.parent?]

/-! ## Laid lines (O11) -/

/-- The line is COMPLETE or ABANDONED. -/
def Line.isLaid (l : Line) : Prop := l.lifecycle = .complete ∨ l.lifecycle = .abandoned

theorem Line.isLaid.not_active {l : Line} (h : l.isLaid) : l.isActive = false := by
  rcases h with h | h <;> simp [Line.isActive, h, Lifecycle.kind]

/-- A commit of the ports completes for no laid line, as it was taken of one that takes commits. -/
theorem State.Completes.not_laid {s : State} {p : Port} {c : CommitRun} {id : Nat} {d : Draft} (h : s.Completes p c id d)
    (hlaw : (s.port p).commitLaw) {l : Line} (hl : s.line? id = some l) : ¬l.isLaid := by
  obtain ⟨hwas, -⟩ := State.completionRefusal?_none h.pass
  have hl' : s.line? (d.subject id).id = some l := hl
  rw [hl', Option.map_some] at hwas
  have hc := hlaw c h.commit
  rw [← hwas] at hc
  rintro (hlc | hlc) <;> simp [hlc, Lifecycle.kind] at hc

/-- A write leaves a laid line as it is, or removes it. -/
theorem State.Writes.laid_stands {s : State} {b : Store} (h : s.Writes b) (hids : s.store.idsAscending)
    (hlaw : ∀ p, (s.port p).commitLaw) {l : Line} (hl : l ∈ s.store.lines) (hlaid : l.isLaid) :
    b.line? l.id = none ∨ b.line? l.id = some l := by
  have hline : s.store.line? l.id = some l := (Store.line?_eq_some hids).mpr ⟨hl, rfl⟩
  have hnot : ∀ (id : Nat) (f : Line → Line), (∀ k, (f k).id = k.id) → l.id ≠ id →
      ({ s.store with lines := s.store.lines.map (fun k => if k.id = id then f k else k) } : Store).line? l.id = some l := by
    intro id f hf hne
    rw [Store.line?_map (fun k => by split; exacts [hf k, rfl]), hline, Option.map_some, if_neg hne]
  cases h with
  | create p c id d h hn =>
    right
    have hne : l.id ≠ id := Store.line?_eq_none.mp hn l hl
    show (insertLine (d.newLine id) s.store.lines).find? _ = _
    rw [insertLine_find (d.newLine id) s.store.lines hn]
    refine (if_neg hne).trans ?_
    exact hline
  | replace p c id d k h hk ha =>
    refine .inr (hnot id d.replaced (fun _ => rfl) (fun he => ?_))
    have hkl : s.line? id = some l := he ▸ hline
    exact h.not_laid (hlaw p) hkl hlaid
  | stage p c id d k h hk ha =>
    refine .inr (hnot k.id _ (d.stagedOn_id k c.reached) (fun he => ?_))
    obtain ⟨hmem, -⟩ := (Store.line?_eq_some hids).mp hk
    exact Bool.noConfusion (ha.symm.trans (Store.eq_of_id hids hl hmem he ▸ hlaid.not_active))
  | retire id hpass =>
    by_cases he : l.id = id
    · left
      refine Store.line?_eq_none.mpr (fun m hm => ?_)
      have := (List.mem_filter.mp hm).2
      simpa [he] using this
    · right
      refine (Store.line?_eq_some ?_).mpr ⟨List.mem_filter.mpr ⟨hl, by simpa using he⟩, rfl⟩
      exact hids.sublist (List.filter_sublist.map _)
  | select id k hidle hk hsel =>
    refine .inr (hnot id (fun k => { k with lifecycle := .active RunContext.selected none }) (fun _ => rfl) (fun he => ?_))
    have hkl : k = l := Option.some.inj (hk.symm.trans (he ▸ hline))
    subst hkl
    rcases hlaid with hlc | hlc <;> simp [State.selectable, hlc, Lifecycle.kind] at hsel
  | clear => exact .inl rfl
  | nothing | station | settings => exact .inr hline

theorem State.Moves.laid_stands {s t : State} (h : s.Moves t) (hids : s.store.idsAscending)
    (hlaw : ∀ p, (s.port p).commitLaw) {l : Line} (hl : l ∈ s.store.lines) (hlaid : l.isLaid) :
    t.line? l.id = none ∨ ∃ c : CheckStatus, t.line? l.id = some { l with status := c } := by
  obtain ⟨-, b, hb, hbt⟩ := h.writes
  obtain ⟨f, -, hf, hline⟩ := Store.altersTo_line? hbt
  have ht : t.line? l.id = (b.line? l.id).map f := hline l.id
  rcases hb.laid_stands hids hlaw hl hlaid with h | h
  · left
    rw [ht, h]
    rfl
  · right
    obtain ⟨-, -, -, hstatus⟩ := hf l
    exact ⟨(f l).status, by rw [ht, h, Option.map_some, ← hstatus hlaid.not_active]⟩

/-! ## What a commit in flight was taken of -/

theorem PortState.restsIn.commitLaw {q r : PortState} (h : q.restsIn r) (hq : q.commitLaw) : r.commitLaw := by
  intro c hc
  rcases h.2 with hw | hn
  · have hmem : some c.was = q.commit.map (fun c => c.was) := by
      rw [← hw, Option.mem_def.mp hc]
      rfl
    obtain ⟨k, hk, hwas⟩ := Option.map_eq_some_iff.mp hmem.symm
    rw [← hwas]
    exact hq k hk
  · rw [Option.mem_def, hn] at hc
    cases hc

/-- A commit that is not refused is one of a free id, of a PLANNED line or of the ACTIVE one (R73, test 4). -/
theorem State.commitRefusal?_none {s : State} {id : Nat} {d : Draft} (h : s.commitRefusal? id d = none) :
    (∀ l, s.line? id = some l → commitBarred l d = false) ∧ s.recheck.backlog = false := by
  unfold State.commitRefusal? at h
  dsimp only at h
  split at h
  · cases h
  · rename_i hbar
    split at h
    · cases h
    · rename_i hback
      exact ⟨fun l hl => by simpa [hl] using hbar, Bool.not_eq_true _ ▸ hback⟩

theorem commitBarred_kind {l : Line} {d : Draft} (h : commitBarred l d = false) :
    l.lifecycle.kind = .planned ∨ l.lifecycle.kind = .active := by
  unfold commitBarred at h
  split at h
  · cases h
  · cases h
  · rename_i hl
    exact .inl (by rw [hl]; rfl)
  · rename_i hl
    exact .inr (by rw [hl]; rfl)

theorem State.PortMoves.commitLaw {s : State} {p : Port} {q : PortState} (h : s.PortMoves p q) (hs : (s.port p).commitLaw) :
    q.commitLaw := by
  cases h with
  | committed hb args id d hclaim hdraft hpass =>
    intro c hc
    cases hc
    cases hl : s.line? id with
    | none => exact .inl rfl
    | some l =>
      have := commitBarred_kind ((State.commitRefusal?_none hpass).1 l hl)
      exact .inr (this.imp (congrArg some) (congrArg some))
  | _ => exact hs

/-- Every move keeps what commits in flight were taken of. -/
theorem State.Moves.commitLaw {s t : State} (h : s.Moves t) (hs : ∀ p, (s.port p).commitLaw) (q : Port) : (t.port q).commitLaw := by
  cases h with
  | stays => exact hs q
  | port p hq =>
    rw [State.port_updPort_cases]
    split
    · exact hq.commitLaw (hs p)
    · exact hs q
  | act p row r hr hw => exact (((State.taken_rests s p q row).trans (hw.rests q)).trans (State.reply_rests _ p q r)).commitLaw (hs q)
  | event h => exact (h.rests q).commitLaw (hs q)

/-! ## What a step makes of the store -/

theorem State.Writes.of_queue {s : State} {rest : List Instr} {b : Store} (h : ({ s with pending := rest } : State).Writes b) :
    s.Writes b := by
  have hcomp : ∀ {p c id d}, ({ s with pending := rest } : State).Completes p c id d → s.Completes p c id d := by
    rintro p c id d ⟨h1, h2, h3, h4, h5⟩
    cases p <;> exact ⟨h1, h2, h3, h4, h5⟩
  cases h with
  | nothing => exact .nothing
  | create p c id d h hl => exact .create p c id d (hcomp h) hl
  | replace p c id d l h hl ha => exact .replace p c id d l (hcomp h) hl ha
  | stage p c id d l h hl ha => exact .stage p c id d l (hcomp h) hl ha
  | retire id hpass => exact .retire id hpass
  | station n x h => exact .station n x h
  | settings name v word hv hpass => exact .settings name v word hv hpass
  | select id l hidle hl hs => exact .select id l hidle hl hs
  | clear => exact .clear

theorem State.expireWait_store (s : State) : s.expireWait.store = s.store := by
  unfold State.expireWait
  split <;> rfl

theorem State.expireLapse_store (s : State) (p : Port) : (s.expireLapse p).store = s.store := by
  unfold State.expireLapse
  split
  · cases p <;> rfl
  · rfl

theorem Store.altersTo_of_eq {a b : Store} (h : b = a) : a.altersTo b := h ▸ Store.altersTo_refl a

theorem Store.altersTo_idle (s : State) : s.store.altersTo (idle s).store := by
  unfold idle
  split
  · have h1 : s.store.altersTo s.expireTimer.store := (State.altersTo_expireTimer s).2.1
    have h2 := h1.trans (Store.altersTo_of_eq (State.expireWait_store s.expireTimer))
    have h3 := h2.trans (Store.altersTo_of_eq (State.expireLapse_store _ .cab))
    have h4 := h3.trans (Store.altersTo_of_eq (State.expireLapse_store _ .plan))
    exact h4.trans (State.altersTo_expireGap _).2.1
  · exact Store.altersTo_refl _

/-- A step makes one write of the store, with work in place after it. -/
theorem step_writes {s t : State} (h : step s = .next t) : ∃ b, s.Writes b ∧ b.altersTo t.store := by
  cases hp : s.pending with
  | nil =>
    rw [step_nil hp] at h
    cases h
    exact ⟨_, .nothing, Store.altersTo_idle s⟩
  | cons c rest =>
    rw [step_cons s c rest hp] at h
    obtain ⟨u, hu, hm⟩ := exec_moves c { s with pending := rest }
    rw [hu] at h
    cases h
    obtain ⟨-, b, hb, hbt⟩ := hm.writes
    exact ⟨b, hb.of_queue, hbt⟩

/-- Settles O11: no write touches a laid line but to remove it, and work in place sets no more of it than its check status. -/
theorem laidLinesStand : Obligations.LaidLinesStand := by
  intro s t hids hcab hplan ht l hl hlaid
  obtain ⟨b, hb, hbt⟩ := step_writes ht
  obtain ⟨f, -, hf, hline⟩ := Store.altersTo_line? hbt
  have ht : t.line? l.id = (b.line? l.id).map f := hline l.id
  have hlaw : ∀ p, (s.port p).commitLaw := fun p => by cases p; exacts [hcab, hplan]
  rcases hb.laid_stands hids hlaw hl hlaid with h | h
  · left
    rw [ht, h]
    rfl
  · right
    obtain ⟨-, -, -, hstatus⟩ := hf l
    exact ⟨(f l).status, by rw [ht, h, Option.map_some, ← hstatus (Line.isLaid.not_active hlaid)]⟩

/-! ## The forest (R18, R19, R56; O12) -/

theorem Store.altersTo_forestLaw {a b : Store} (h : a.altersTo b) (ha : a.forestLaw) : b.forestLaw := by
  obtain ⟨f, hf, hl, hline⟩ := Store.altersTo_line? h
  obtain ⟨hids, hlevel, hactive⟩ := ha
  have hpar : ∀ l, (f l).parent? = l.parent? := fun l => (hl l).parent?
  refine ⟨Store.altersTo_idsAscending h hids, fun m hm p hp => ?_, fun m hm hma p k hp hk => ?_⟩
  · rw [hf] at hm
    obtain ⟨l, hl', rfl⟩ := List.mem_map.mp hm
    rw [hpar] at hp
    obtain ⟨k, hk, hg⟩ := hlevel l hl' p hp
    refine ⟨f k, by rw [hline, hk]; rfl, fun g hkg => ?_⟩
    rw [hpar] at hkg
    obtain ⟨n, hn, hnone⟩ := hg g hkg
    exact ⟨f n, by rw [hline, hn]; rfl, by rw [hpar]; exact hnone⟩
  · rw [hf] at hm
    obtain ⟨l, hl', rfl⟩ := List.mem_map.mp hm
    obtain ⟨-, -, hla, -⟩ := hl l
    rw [hpar] at hp
    rw [hline] at hk
    obtain ⟨k', hk', rfl⟩ := Option.map_eq_some_iff.mp hk
    have hcomplete := hactive l hl' (hla hma) p k' hp hk'
    obtain ⟨-, -, -, hstatus⟩ := hl k'
    rw [hstatus (by simp [Line.isActive, hcomplete, Lifecycle.kind])]
    exact hcomplete

/-- A record with a parent is at level 2 or 3: the parent is there, and the parent's parent, if there is one, has none. -/
def Store.parentStands (st : Store) (p : Nat) : Prop :=
  ∃ k, st.line? p = some k ∧ ∀ g, k.parent? = some g → ∃ m, st.line? g = some m ∧ m.parent? = none

/-- The forest tests of a commit passed, each read off (R56, R74). -/
theorem forestFailure_none {st : Store} {u : Subject} (h : forestFailure st u = none) :
    moveTest st u = none ∧ parentExistsTest st u = none ∧ cycleAndLevelTest st u = none := by
  have hall := firstFailure_none h
  exact ⟨hall .move (by simp), hall .parentExists (by simp), hall .cycleAndLevel (by simp)⟩

theorem Store.chainUp_succ {st : Store} {id : Nat} {l : Line} (h : st.line? id = some l) (n : Nat) :
    st.chainUp (n + 1) id = id :: (l.parent?.map (st.chainUp n)).getD [] := by
  rw [Store.chainUp, h]
  dsimp only
  cases l.parent? <;> rfl

/-- PARENT passed: the parent that is named stands at level 2 at most, and neither it nor its parent is the line itself (R56). -/
theorem parent_of_tests {st : Store} {u : Subject} {p : Nat} (hlaw : st.levelLaw) (hp : u.parent = some p)
    (h1 : parentExistsTest st u = none) (h2 : cycleAndLevelTest st u = none) :
    st.parentStands p ∧ p ≠ u.id ∧ ∀ k, st.line? p = some k → k.parent? ≠ some u.id := by
  obtain ⟨k, hk⟩ : ∃ k, st.line? p = some k := by
    unfold parentExistsTest at h1
    rw [hp] at h1
    dsimp only at h1
    split at h1
    · rename_i hs
      exact Option.isSome_iff_exists.mp hs
    · cases h1
  unfold cycleAndLevelTest at h2
  rw [hp] at h2
  dsimp only at h2
  have hmem : k ∈ st.lines := List.mem_of_find?_eq_some hk
  rw [show Config.maxLevels = 2 + 1 from rfl, Store.chainUp_succ hk] at h2
  split at h2
  · cases h2
  · rename_i hcycle
    split at h2
    · cases h2
    · rename_i hlevel
      have hne : p ≠ u.id := fun he => hcycle (by simp [he])
      refine ⟨⟨k, hk, fun g hg => ?_⟩, hne, fun k' hk' hg => ?_⟩
      · obtain ⟨m, hm, hroot⟩ := hlaw k hmem g hg
        refine ⟨m, hm, ?_⟩
        by_contra hn
        obtain ⟨e, he⟩ := Option.ne_none_iff_exists'.mp hn
        obtain ⟨x, hx, -⟩ := hroot e he
        simp [hg, Store.chainUp_succ hm, he, Store.chainUp_succ hx] at hlevel
      · cases hk.symm.trans hk'
        obtain ⟨m, hm, -⟩ := hlaw k hmem _ hg
        simp [hg, Store.chainUp_succ hm] at hcycle

/-- The move test passed: the line keeps its parent, or has no children (R56). -/
theorem moveTest_none {st : Store} {u : Subject} {l : Line} (hl : st.line? u.id = some l) (h : moveTest st u = none) :
    l.parent? = u.parent ∨ ∀ k ∈ st.lines, k.parent? ≠ some u.id := by
  unfold moveTest at h
  rw [hl] at h
  dsimp only at h
  split at h
  · rename_i he
    exact .inl he
  · right
    split at h
    · rename_i hc
      intro k hk hp
      have : k ∈ st.children u.id := List.mem_filter.mpr ⟨hk, by simp [hp]⟩
      rw [hc] at this
      cases this
    · cases h

/-- Records changed that keep their ids and parents. -/
theorem Store.levelLaw_map {st : Store} {f : Line → Line} (hid : ∀ l, (f l).id = l.id) (hpar : ∀ l ∈ st.lines, (f l).parent? = l.parent?)
    (h : st.levelLaw) : ({ st with lines := st.lines.map f } : Store).levelLaw := by
  intro m hm p hp
  obtain ⟨l, hl, rfl⟩ := List.mem_map.mp hm
  rw [hpar l hl] at hp
  obtain ⟨k, hk, hg⟩ := h l hl p hp
  refine ⟨f k, by rw [Store.line?_map hid, hk]; rfl, fun g hkg => ?_⟩
  rw [hpar k (List.mem_of_find?_eq_some hk)] at hkg
  obtain ⟨n, hn, hnone⟩ := hg g hkg
  exact ⟨f n, by rw [Store.line?_map hid, hn]; rfl, by rw [hpar n (List.mem_of_find?_eq_some hn)]; exact hnone⟩

/-- Records changed that keep their ids and parents; the COMPLETE ones stay so, and one that becomes ACTIVE has a COMPLETE parent. -/
theorem Store.activeParentLaw_map {st : Store} {f : Line → Line} (hid : ∀ l, (f l).id = l.id)
    (hact : ∀ l ∈ st.lines, (f l).isActive = true → ∀ p k, (f l).parent? = some p → st.line? p = some k → k.lifecycle = .complete)
    (hcomplete : ∀ l ∈ st.lines, l.lifecycle = .complete → (f l).lifecycle = .complete) :
    ({ st with lines := st.lines.map f } : Store).activeParentLaw := by
  intro m hm hma p k hp hk
  obtain ⟨l, hl, rfl⟩ := List.mem_map.mp hm
  rw [Store.line?_map hid] at hk
  obtain ⟨k', hk', rfl⟩ := Option.map_eq_some_iff.mp hk
  exact hcomplete k' (List.mem_of_find?_eq_some hk') (hact l hl hma p k' hp hk')

/-- A parent stands where the records of other ids stand, and neither it nor its parent has this id. -/
theorem Store.parentStands_of_other {st b : Store} {id : Nat} (hother : ∀ i, i ≠ id → b.line? i = st.line? i) {p : Nat}
    (h : st.parentStands p) (hp : p ≠ id) (hk : ∀ k, st.line? p = some k → k.parent? ≠ some id) : b.parentStands p := by
  obtain ⟨k, hkp, hg⟩ := h
  refine ⟨k, by rw [hother p hp]; exact hkp, fun g hkg => ?_⟩
  obtain ⟨m, hm, hroot⟩ := hg g hkg
  exact ⟨m, by rw [hother g (fun he => hk k hkp (he ▸ hkg))]; exact hm, hroot⟩

theorem Draft.newLine_parent? (d : Draft) (id : Nat) : (d.newLine id).parent? = d.parent := by
  rw [Line.parent?]
  show d.outlet.map (fun o => o.parent) = d.parent
  rw [Draft.outlet, Option.map_map]
  exact Option.map_id_apply ..

theorem Draft.replaced_parent? (d : Draft) (l : Line) : (d.replaced l).parent? = d.parent := d.newLine_parent? l.id

theorem Store.levelLaw_create {st : Store} {d : Draft} {id : Nat} (hlaw : st.levelLaw) (hl : st.line? id = none)
    (hpass : forestFailure st (d.subject id) = none) :
    ({ st with lines := insertLine (d.newLine id) st.lines } : Store).levelLaw := by
  obtain ⟨-, h1, h2⟩ := forestFailure_none hpass
  have hother : ∀ i, i ≠ id → ({ st with lines := insertLine (d.newLine id) st.lines } : Store).line? i = st.line? i := by
    intro i hi
    show (insertLine (d.newLine id) st.lines).find? _ = _
    rw [insertLine_find (d.newLine id) st.lines hl]
    exact if_neg hi
  intro m hm p hp
  rcases mem_insertLine.mp hm with rfl | hm
  · rw [d.newLine_parent?] at hp
    obtain ⟨hstands, hne, hk⟩ := parent_of_tests (u := d.subject id) hlaw hp h1 h2
    exact Store.parentStands_of_other hother hstands hne hk
  · obtain ⟨k, hk, hg⟩ := hlaw m hm p hp
    refine Store.parentStands_of_other hother ⟨k, hk, hg⟩ (fun he => ?_) (fun k' hk' he => ?_)
    · subst he
      cases hk.symm.trans hl
    · obtain ⟨x, hx, -⟩ := hlaw k' (List.mem_of_find?_eq_some hk') id he
      cases hx.symm.trans hl

theorem Store.levelLaw_replace {st : Store} {d : Draft} {l : Line} (hids : st.idsAscending) (hlaw : st.levelLaw) (hl : l ∈ st.lines)
    (hpass : forestFailure st (d.subject l.id) = none) :
    ({ st with lines := st.lines.map (fun k => if k.id = l.id then d.replaced k else k) } : Store).levelLaw := by
  obtain ⟨hmove, h1, h2⟩ := forestFailure_none hpass
  have hline : st.line? l.id = some l := (Store.line?_eq_some hids).mpr ⟨hl, rfl⟩
  have hid : ∀ k, (if k.id = l.id then d.replaced k else k).id = k.id := fun k => by split <;> rfl
  rcases moveTest_none (u := d.subject l.id) hline hmove with hsame | hchildless
  · refine Store.levelLaw_map hid (fun k hk => ?_) hlaw
    split
    · rename_i he
      rw [Store.eq_of_id hids hk hl he, d.replaced_parent?, hsame]
      rfl
    · rfl
  · have hother : ∀ i, i ≠ l.id →
        ({ st with lines := st.lines.map (fun k => if k.id = l.id then d.replaced k else k) } : Store).line? i = st.line? i := by
      intro i hi
      rw [Store.line?_map hid]
      cases hk : st.line? i with
      | none => rfl
      | some k =>
        obtain ⟨-, hki⟩ := (Store.line?_eq_some hids).mp hk
        rw [Option.map_some, if_neg (by rw [hki]; exact hi)]
    intro m hm p hp
    obtain ⟨k, hk, rfl⟩ := List.mem_map.mp hm
    split at hp
    · rw [d.replaced_parent?] at hp
      obtain ⟨hstands, hne, hkp⟩ := parent_of_tests (u := d.subject l.id) hlaw hp h1 h2
      exact Store.parentStands_of_other hother hstands hne hkp
    · refine Store.parentStands_of_other hother (hlaw k hk p hp) (fun he => hchildless k hk (he ▸ hp)) (fun x hx => ?_)
      exact hchildless x (List.mem_of_find?_eq_some hx)

theorem Line.setStaged_complete {l : Line} (h : l.lifecycle = .complete) (st : Option Staged) :
    (l.setStaged st).lifecycle = .complete := by
  rw [Line.setStaged_of_not_active (by simp [Line.isActive, h, Lifecycle.kind])]
  exact h

/-- What RETIRE has tested of the line: it is not ACTIVE, and no line names it as parent (R80). -/
theorem State.retireRefusal?_none {s : State} {id : Nat} (h : s.retireRefusal? id = none) :
    ∃ l, s.line? id = some l ∧ l.isActive = false ∧ ∀ k ∈ s.store.lines, k.parent? ≠ some id := by
  unfold State.retireRefusal? at h
  split at h
  · cases h
  · rename_i l hl
    split at h
    · cases h
    · rename_i ha
      split at h
      · rename_i hc
        refine ⟨l, hl, Bool.not_eq_true _ ▸ ha, fun k hk hp => ?_⟩
        have : k ∈ s.store.children id := List.mem_filter.mpr ⟨hk, by simp [hp]⟩
        rw [List.isEmpty_iff.mp hc] at this
        cases this
      · cases h

theorem Store.line?_filter_other {st : Store} (hids : st.idsAscending) {id i : Nat} (h : i ≠ id) :
    ({ st with lines := st.lines.filter (fun l => l.id != id) } : Store).line? i = st.line? i := by
  have hids' : ({ st with lines := st.lines.filter (fun l => l.id != id) } : Store).idsAscending :=
    hids.sublist (List.filter_sublist.map _)
  refine Option.ext (fun l => ?_)
  rw [Store.line?_eq_some hids', Store.line?_eq_some hids, List.mem_filter]
  refine ⟨fun ⟨⟨h1, _⟩, h2⟩ => ⟨h1, h2⟩, fun ⟨h1, h2⟩ => ⟨⟨h1, ?_⟩, h2⟩⟩
  simpa [h2] using h

/-- What SELECT has tested of the line (R112). -/
theorem State.selectable_iff {s : State} {l : Line} : s.selectable l = true ↔ l.lifecycle = .planned ∧ l.status = .checked
    ∧ ∀ p, l.parent? = some p → ∃ k, s.line? p = some k ∧ k.lifecycle = .complete := by
  have hplanned : l.lifecycle.kind = .planned ↔ l.lifecycle = .planned := by
    cases l.lifecycle <;> simp [Lifecycle.kind]
  have hcomplete : ∀ k : Line, k.lifecycle.kind = .complete ↔ k.lifecycle = .complete := by
    intro k
    cases k.lifecycle <;> simp [Lifecycle.kind]
  simp [State.selectable, hplanned, hcomplete, and_assoc, Option.any_eq_true, Option.all_eq_true]

theorem State.Writes.forestLaw {s : State} {b : Store} (h : s.Writes b) (hs : s.store.forestLaw) : b.forestLaw := by
  have hids' := h.idsAscending hs.1
  obtain ⟨hids, hlevel, hactive⟩ := hs
  cases h with
  | create p c id d h hl =>
    obtain ⟨-, -, -, hforest, -⟩ := State.completionRefusal?_none h.pass
    refine ⟨hids', Store.levelLaw_create hlevel hl hforest, fun m hm hma q k hq hk => ?_⟩
    rcases mem_insertLine.mp hm with rfl | hm
    · cases hma
    · obtain ⟨k', hk', -⟩ := hlevel m hm q hq
      have hne : q ≠ id := fun he => by
        subst he
        cases hk'.symm.trans hl
      have hkk : (insertLine (d.newLine id) s.store.lines).find? (fun l => l.id == q) = some k := hk
      rw [insertLine_find (d.newLine id) s.store.lines hl] at hkk
      exact hactive m hm hma q k hq ((if_neg hne).symm.trans hkk)
  | replace p c id d l h hl ha =>
    obtain ⟨-, -, -, hforest, -⟩ := State.completionRefusal?_none h.pass
    obtain ⟨hmem, hid⟩ := (Store.line?_eq_some hids).mp hl
    subst hid
    refine ⟨hids', Store.levelLaw_replace hids hlevel hmem hforest, ?_⟩
    refine Store.activeParentLaw_map (fun k => by split <;> rfl) (fun k hk hka q x hq hx => ?_) (fun k _ hc => by split <;> exact hc)
    split at hka
    · rename_i he
      rw [d.replaced_isActive, Store.eq_of_id hids hk hmem he, ha] at hka
      cases hka
    · rename_i he
      rw [if_neg he] at hq
      exact hactive k hk hka q x hq hx
  | stage p c id d l h hl ha =>
    have hpar : ∀ k : Line, (if k.id = l.id then d.stagedOn l c.reached k else k).parent? = k.parent? := by
      intro k
      split
      · show (k.setStaged _).parent? = k.parent?
        rw [Line.parent?, Line.setStaged_outlet, Line.parent?]
      · rfl
    have hact : ∀ k : Line, (if k.id = l.id then d.stagedOn l c.reached k else k).isActive = k.isActive := by
      intro k
      split
      · exact d.stagedOn_isActive l c.reached k
      · rfl
    have hid : ∀ k : Line, (if k.id = l.id then d.stagedOn l c.reached k else k).id = k.id := by
      intro k
      split
      · exact d.stagedOn_id l c.reached k
      · rfl
    refine ⟨hids', Store.levelLaw_map hid (fun k _ => hpar k) hlevel, Store.activeParentLaw_map hid ?_ (fun k _ hc => ?_)⟩
    · intro k hk hka q x hq hx
      rw [hact] at hka
      rw [hpar] at hq
      exact hactive k hk hka q x hq hx
    · split
      · exact Line.setStaged_complete hc _
      · exact hc
  | retire id hpass =>
    obtain ⟨l, hl, hna, hchildless⟩ := State.retireRefusal?_none hpass
    have hother : ∀ i, i ≠ id → ({ s.store with lines := s.store.lines.filter (fun l => l.id != id) } : Store).line? i = s.store.line? i :=
      fun i hi => Store.line?_filter_other hids hi
    refine ⟨hids', fun m hm q hq => ?_, fun m hm hma q k hq hk => ?_⟩
    · have hm := List.mem_of_mem_filter hm
      refine Store.parentStands_of_other hother (hlevel m hm q hq) (fun he => hchildless m hm (he ▸ hq)) (fun k hk => ?_)
      exact hchildless k (List.mem_of_find?_eq_some hk)
    · have hm := List.mem_of_mem_filter hm
      rw [hother q (fun he => hchildless m hm (he ▸ hq))] at hk
      exact hactive m hm hma q k hq hk
  | select id l hidle hl hsel =>
    obtain ⟨hplanned, -, hparent⟩ := State.selectable_iff.mp hsel
    obtain ⟨hmem, hid⟩ := (Store.line?_eq_some hids).mp hl
    subst hid
    have hne : ∀ k ∈ s.store.lines, k.lifecycle = .complete → k.id ≠ l.id := by
      intro k hk hc he
      rw [Store.eq_of_id hids hk hmem he, hplanned] at hc
      cases hc
    have hids'' : ∀ k : Line, (if k.id = l.id then { k with lifecycle := .active RunContext.selected none } else k).id = k.id :=
      fun k => by split <;> rfl
    have hpar : ∀ k : Line, (if k.id = l.id then { k with lifecycle := .active RunContext.selected none } else k).parent? = k.parent? :=
      fun k => by split <;> rfl
    refine ⟨hids', Store.levelLaw_map hids'' (fun k _ => hpar k) hlevel, Store.activeParentLaw_map hids'' ?_ (fun k hk hc => ?_)⟩
    · intro k hk hka q x hq hx
      rw [hpar] at hq
      by_cases he : k.id = l.id
      · rw [Store.eq_of_id hids hk hmem he] at hq
        obtain ⟨y, hy, hc⟩ := hparent q hq
        cases hy.symm.trans hx
        exact hc
      · rw [if_neg he] at hka
        rw [State.isIdle_iff.mp hidle k hk] at hka
        cases hka
    · rw [if_neg (hne k hk hc)]
      exact hc
  | clear => exact ⟨hids', by simp [Store.levelLaw, Store.reset], by simp [Store.activeParentLaw, Store.reset]⟩
  | nothing | station | settings => exact ⟨hids', hlevel, hactive⟩

/-- Settles O12: a commit names a parent that passes the tests of R56, SELECT one that is COMPLETE, and RETIRE takes no line that is a
parent. -/
theorem stepKeepsTheForest : Obligations.StepKeepsTheForest := fun _ _ hs ht => by
  obtain ⟨b, hb, hbt⟩ := step_writes ht
  exact Store.altersTo_forestLaw hbt (hb.forestLaw hs)

end Sys2Proof.Machine
end

section
/-! PROOF. The command in hand of a wait or a commit, and the law of the ports, which every move keeps (R59, R60, R63, R65, R73, R114, R119,
R163, R165, R171). -/
namespace Sys2Proof.Machine

/-! ## The command in hand -/

/-- A commit in flight is the command in hand (R73). -/
def PortState.commitInHand (p : Port) (q : PortState) : Prop := q.commit.isSome = true → q.hand.commits p = true

/-- A tie wait belongs to the command in hand of the CAB port (R114, R119). -/
def State.waitsInHand (s : State) : Prop := ∀ w ∈ s.run.wait, s.cab.hand.ties w.kind = true

theorem handLaw_iff {s : State} : s.handLaw ↔ (∀ p, (s.port p).commitInHand p) ∧ s.waitsInHand :=
  ⟨fun ⟨hwait, hcab, hplan⟩ => ⟨fun p => by cases p; exacts [hcab, hplan], hwait⟩, fun ⟨hport, hwait⟩ => ⟨hwait, hport .cab, hport .plan⟩⟩

/-- A port whose command in hand is no COMMIT has none in flight. -/
theorem PortState.commitInHand.no_commit {p : Port} {q : PortState} (h : q.commitInHand p) (hh : q.hand.commits p = false) :
    q.commit = none := by
  cases hc : q.commit with
  | none => rfl
  | some c =>
    have := h (by simp [hc])
    rw [hh] at this
    cases this

theorem PortState.commitInHand_none {p : Port} {q : PortState} (h : q.commit = none) : q.commitInHand p := by
  intro hc
  rw [h] at hc
  cases hc

theorem State.waitsInHand_none {s : State} (h : s.run.wait = none) : s.waitsInHand := fun _ hw => nomatch h.symm.trans hw

/-- A command in hand that ties has no commit of the port. -/
theorem Hand.ties_commits {k : TieKind} {h : Hand} (hties : h.ties k = true) : h.commits .cab = false ∧ h ≠ .idle := by
  unfold Hand.ties at hties
  split at hties
  · exact ⟨rfl, fun he => nomatch he⟩
  · exact ⟨rfl, fun he => nomatch he⟩
  · cases hties

theorem Hand.commits_not_idle {p : Port} {h : Hand} (hc : h.commits p = true) : h ≠ .idle := fun he => by
  rw [he] at hc
  cases hc

theorem State.hand_of_not_busy {s : State} {p : Port} (h : s.busy p = false) : (s.port p).hand = .idle := by
  simpa [State.busy] using h

theorem PortState.altersTo.commit_isSome {q r : PortState} (h : q.altersTo r) : r.commit.isSome = q.commit.isSome := by
  have := congrArg Option.isSome h.2.2.1
  simpa using this

theorem PortState.altersTo.no_commit {q r : PortState} (h : q.altersTo r) (hq : q.commit = none) : r.commit = none := by
  have := h.commit_isSome
  rw [hq] at this
  exact Option.isNone_iff_eq_none.mp (by simpa using this)

theorem PortState.altersTo.hand {q r : PortState} (h : q.altersTo r) : r.hand = q.hand := by rw [h.1]

theorem PortState.altersTo.commitInHand {q r : PortState} (h : q.altersTo r) {p : Port} (hq : q.commitInHand p) : r.commitInHand p := by
  intro hc
  rw [h.hand]
  exact hq (h.commit_isSome ▸ hc)

theorem State.altersTo.waitsInHand {s t : State} (h : s.altersTo t) (hs : s.waitsInHand) : t.waitsInHand := by
  intro w hw
  rw [show t.cab.hand = s.cab.hand from (h.port .cab).hand]
  exact hs w (h.2.2.2.2 w hw)

theorem State.altersTo.handLaw {s t : State} (h : s.altersTo t) (hs : s.handLaw) : t.handLaw := by
  obtain ⟨hport, hwait⟩ := handLaw_iff.mp hs
  exact handLaw_iff.mpr ⟨fun p => (h.port p).commitInHand (hport p), h.waitsInHand hwait⟩

/-- A line that is taken finds no commit of its port in flight. -/
theorem State.handLaw.no_commit {s : State} {p : Port} (hs : s.handLaw) (hb : s.busy p = false) : (s.port p).commit = none :=
  ((handLaw_iff.mp hs).1 p).no_commit (by rw [State.hand_of_not_busy hb]; rfl)

/-- A line that is taken on the CAB port finds no tie wait under way. -/
theorem State.handLaw.no_wait {s : State} (hs : s.handLaw) (hb : s.busy .cab = false) : s.run.wait = none := by
  cases hw : s.run.wait with
  | none => rfl
  | some w =>
    have hties := (handLaw_iff.mp hs).2 w hw
    rw [show s.cab.hand = .idle from State.hand_of_not_busy hb] at hties
    cases hties

/-- A wait leaves no commit of the CAB port in flight, and its command in hand. -/
theorem State.handLaw.of_wait {s : State} (hs : s.handLaw) {w : TieWait} (hw : s.run.wait = some w) :
    s.cab.commit = none ∧ s.cab.hand ≠ .idle := by
  obtain ⟨hport, hwait⟩ := handLaw_iff.mp hs
  obtain ⟨hcommits, hidle⟩ := Hand.ties_commits (hwait w hw)
  exact ⟨(hport .cab).no_commit hcommits, hidle⟩

/-- A commit in flight leaves its command in hand, and no wait if the port is CAB. -/
theorem State.handLaw.of_commit {s : State} (hs : s.handLaw) {p : Port} {c : CommitRun} (hc : (s.port p).commit = some c) :
    (s.port p).hand ≠ .idle ∧ (p = .cab → s.run.wait = none) := by
  obtain ⟨hport, hwait⟩ := handLaw_iff.mp hs
  have hcommits : (s.port p).hand.commits p = true := hport p (by simp [hc])
  refine ⟨Hand.commits_not_idle hcommits, ?_⟩
  rintro rfl
  cases hw : s.run.wait with
  | none => rfl
  | some w => exact nomatch (Hand.ties_commits (hwait w hw)).1.symm.trans hcommits

theorem State.PortMoves.commitInHand {s : State} {p : Port} {q : PortState} (h : s.PortMoves p q) (hs : (s.port p).commitInHand p) :
    q.commitInHand p := by
  have hfree : s.busy p = false → (s.port p).commit = none := fun hb => hs.no_commit (by rw [State.hand_of_not_busy hb]; rfl)
  cases h with
  | byte | cleared | overran | lapsed => exact hs
  | replied c r hh | overrunReplied c r hh => exact PortState.commitInHand_none (hs.no_commit (by rw [hh]; rfl))
  | committed hb args id d hclaim hdraft hpass => exact fun _ => by cases p <;> rfl
  | bad hb => exact PortState.commitInHand_none (hfree hb)
  | answered hb => exact PortState.commitInHand_none (hfree hb)
  | released hb => exact PortState.commitInHand_none (hfree hb)
  | claimed hb => exact PortState.commitInHand_none (hfree hb)
  | drafted hb => exact PortState.commitInHand_none (hfree hb)
  | discarded hb => exact PortState.commitInHand_none (hfree hb)
  | acked hb => exact PortState.commitInHand_none (hfree hb)
  | masked hb => exact PortState.commitInHand_none (hfree hb)

/-- A port's own rows leave a command whose reply waits in hand. -/
theorem State.PortMoves.hand {s : State} {p : Port} {q : PortState} (h : s.PortMoves p q) :
    q.hand = (s.port p).hand ∨ ∀ k, (s.port p).hand.ties k = false := by
  have hidle : s.busy p = false → ∀ k, (s.port p).hand.ties k = false := fun hb k => by rw [State.hand_of_not_busy hb]; rfl
  cases h with
  | byte | cleared | overran | lapsed => exact .inl rfl
  | replied c r hh | overrunReplied c r hh =>
    right
    intro k
    rw [hh]
    rfl
  | bad hb => exact .inr (hidle hb)
  | answered hb => exact .inr (hidle hb)
  | released hb => exact .inr (hidle hb)
  | claimed hb => exact .inr (hidle hb)
  | drafted hb => exact .inr (hidle hb)
  | discarded hb => exact .inr (hidle hb)
  | committed hb => exact .inr (hidle hb)
  | acked hb => exact .inr (hidle hb)
  | masked hb => exact .inr (hidle hb)

theorem State.waitsInHand_updPort {s : State} {p : Port} {q : PortState} (hs : s.waitsInHand)
    (hq : q.hand = (s.port p).hand ∨ ∀ k, (s.port p).hand.ties k = false) : (s.updPort p (fun _ => q)).waitsInHand := by
  intro w hw
  rw [State.updPort_run] at hw
  have h := hs w hw
  cases p with
  | plan => exact h
  | cab =>
    rcases hq with he | he
    · show q.hand.ties w.kind = true
      rw [he]
      exact h
    · exact absurd h (by rw [show s.cab.hand.ties w.kind = false from he w.kind]; exact Bool.false_ne_true)

theorem State.port_other (p : Port) : ∀ q, q = p ∨ q = otherPort p := by
  intro q
  cases p <;> cases q <;> simp [otherPort]

/-- A line taken: what its port is then, and what the other is. -/
theorem State.altersTo_taken_port {s x : State} {p : Port} {row : Instr} {b : Store}
    (hx : ({ s.taken p row with store := b } : State).altersTo x) :
    ({ s.port p with buffer := emptyBuffer, lapse := none, hand := .waiting row } : PortState).altersTo (x.port p)
      ∧ (s.port (otherPort p)).altersTo (x.port (otherPort p)) := by
  have hp := hx.port p
  have ho := hx.port (otherPort p)
  cases p <;> exact ⟨hp, ho⟩

/-- A command in hand answered, when no commit of its port is in flight nor a wait of it under way. -/
theorem State.handLaw_answered {x t : State} {p : Port} (hx : ∀ q, (x.port q).commitInHand q) (hw : x.waitsInHand)
    (hcommit : (t.port p).commit = none) (hother : t.port (otherPort p) = x.port (otherPort p)) (hrun : t.run = x.run)
    (hwait : p = .cab → x.run.wait = none) : t.handLaw := by
  refine handLaw_iff.mpr ⟨fun q => ?_, fun w hv => ?_⟩
  · rcases State.port_other p q with rfl | rfl
    · exact PortState.commitInHand_none hcommit
    · rw [hother]
      exact hx _
  · rw [hrun] at hv
    cases p with
    | cab => exact nomatch (hwait rfl).symm.trans hv
    | plan =>
      have : t.cab = x.cab := hother
      rw [this]
      exact hw w hv

theorem State.Acts.handLaw {s w : State} {p : Port} {row : Instr} (h : (s.taken p row).Acts p w) (hr : s.ready p row) (r : Reply)
    (hs : s.handLaw) : (w.reply p r).handLaw := by
  obtain ⟨hport, hwait⟩ := handLaw_iff.mp hs
  obtain ⟨b, x, -, hx, hw⟩ := h.effect
  obtain ⟨hxp, hxo⟩ := State.altersTo_taken_port hx
  have hcommit : (x.port p).commit = none := hxp.no_commit (hs.no_commit hr.2.2)
  have hxwait : ∀ v ∈ x.run.wait, v ∈ s.run.wait := fun v hv =>
    (congrArg (fun u => v ∈ u.wait) (State.taken_run s p row)).mp (hx.2.2.2.2 v hv)
  have hnone : p = .cab → x.run.wait = none := by
    rintro rfl
    exact State.altersTo_noWait hx (hs.no_wait hr.2.2)
  refine State.handLaw_answered (x := x) (p := p) (fun q => ?_) (fun v hv => ?_) ?_ ?_ ?_ hnone
  · rcases State.port_other p q with rfl | rfl
    · exact PortState.commitInHand_none hcommit
    · exact hxo.commitInHand (hport _)
  · cases p with
    | cab => exact nomatch (hnone rfl).symm.trans hv
    | plan =>
      rw [show x.cab.hand = s.cab.hand from hxo.hand]
      exact hwait v (hxwait v hv)
  · rcases hw with rfl | rfl <;> cases p <;> exact hcommit
  · rcases hw with rfl | rfl <;> cases p <;> rfl
  · rcases hw with rfl | rfl <;> cases p <;> rfl

theorem State.handLaw_commitOver {s : State} (p : Port) (hs : s.handLaw) : (s.commitOver p).handLaw := by
  obtain ⟨hport, hwait⟩ := handLaw_iff.mp hs
  refine handLaw_iff.mpr ⟨fun q => ?_, ?_⟩
  · rw [State.commitOver, State.port_updPort_cases]
    split
    · exact PortState.commitInHand_none rfl
    · exact hport q
  · cases p <;> exact hwait

theorem State.commitOver_port (s : State) (p : Port) : (s.commitOver p).port p = { s.port p with commit := none } :=
  State.port_updPort s p _

theorem State.commitOver_run (s : State) (p : Port) : (s.commitOver p).run = s.run := State.updPort_run s p _

/-- A commit that completes: the module passed by, with the commit over, and its reply sent. -/
theorem State.completeCommit_answered {s : State} {p : Port} {c : CommitRun} {id : Nat} {d : Draft} (hc : (s.port p).commit = some c)
    (hclaim : (s.port p).claim = some id) (hdraft : (s.port p).draft = some d) :
    ∃ (b : Store) (x : State) (r : Reply) (e : Option Draft), ({ s.commitOver p with store := b } : State).altersTo x
      ∧ (e = (x.port p).draft ∨ e = none)
      ∧ s.completeCommit p c id d = x.updPort p (fun q => { q with hand := .sending q.hand.command? r, draft := e }) := by
  rcases State.completeCommit_effect hc hclaim hdraft with ⟨r, heq⟩ | ⟨b, x, -, hx, heq⟩
  · exact ⟨_, _, r, _, State.altersTo_refl _, .inl rfl, heq.trans (by cases p <;> rfl)⟩
  · exact ⟨b, x, .ok (if c.reached then [.word "STALE"] else []), none, hx, .inr rfl, heq.trans (by cases p <;> rfl)⟩

theorem State.handLaw_completeCommit {s : State} {p : Port} {c : CommitRun} {id : Nat} {d : Draft} (hc : (s.port p).commit = some c)
    (hclaim : (s.port p).claim = some id) (hdraft : (s.port p).draft = some d) (hs : s.handLaw) : (s.completeCommit p c id d).handLaw := by
  obtain ⟨b, x, r, e, hx, -, heq⟩ := State.completeCommit_answered hc hclaim hdraft
  have hxlaw : x.handLaw := hx.handLaw (s := { s.commitOver p with store := b }) (State.handLaw_commitOver p hs)
  obtain ⟨hport, hwait⟩ := handLaw_iff.mp hxlaw
  have hxp : ((s.commitOver p).port p).altersTo (x.port p) := by
    have := hx.port p
    cases p <;> exact this
  rw [heq]
  refine State.handLaw_answered (p := p) hport hwait ?_ (State.port_updPort_other ..) (State.updPort_run ..) (fun h => ?_)
  · rw [State.port_updPort]
    exact hxp.no_commit (by rw [State.commitOver_port])
  · exact State.altersTo_noWait hx ((congrArg RunUnit.wait (State.commitOver_run s p)).trans ((hs.of_commit hc).2 h))

/-- A tie wait's end and its reply. -/
theorem State.handLaw_waitReplied {s : State} (hs : s.handLaw) {w : TieWait} (hw : s.run.wait = some w) {x : State} (hx : s.altersTo x)
    (hxw : x.run.wait = none) (r : Reply) : (x.reply .cab r).handLaw := by
  obtain ⟨hport, hwait⟩ := handLaw_iff.mp (hx.handLaw hs)
  exact State.handLaw_answered (p := .cab) hport hwait ((hx.port .cab).no_commit (hs.of_wait hw).1) rfl rfl (fun _ => hxw)

/-- A tie wait set up by a command in hand. -/
theorem State.handLaw_startWait {s : State} {row : Instr} (hr : s.ready .cab row) (hs : s.handLaw) (k : TieKind) (n : StationId) (c : Int)
    (hk : (Hand.waiting row).ties k = true) : ((s.taken .cab row).startWait k n c).handLaw := by
  obtain ⟨hport, -⟩ := handLaw_iff.mp hs
  refine handLaw_iff.mpr ⟨fun p => ?_, fun w hw => ?_⟩
  · cases p with
    | plan => exact hport .plan
    | cab => exact PortState.commitInHand_none (q := (s.taken .cab row).cab) (hs.no_commit hr.2.2)
  · cases hw
    exact hk

theorem State.handLaw_reset {s : State} (hcab : s.cab.commit = none) (hplan : s.plan.commit = none) (hw : s.run.wait = none) : s.handLaw :=
  handLaw_iff.mpr ⟨fun p => by cases p; exacts [PortState.commitInHand_none hcab, PortState.commitInHand_none hplan],
    State.waitsInHand_none hw⟩

theorem State.Happens.handLaw {s t : State} (h : s.Happens t) (hs : s.handLaw) : t.handLaw := by
  have halter : s.altersTo t → t.handLaw := fun h => h.handLaw hs
  cases h with
  | completeCommit p c id d hc hclaim hdraft => exact State.handLaw_completeCommit hc hclaim hdraft hs
  | lookForWork => exact halter (State.altersTo_lookForWork s)
  | finishRecheck f hf => exact halter (State.altersTo_finishRecheck s f)
  | link f hf => exact halter (State.altersTo_updLink s f)
  | frame f =>
    rcases State.finishFrame_judges s f with h | ⟨x, r, hx, hw, hnone, heq⟩
    · exact halter h
    · obtain ⟨w, hw⟩ := Option.ne_none_iff_exists'.mp hw
      rw [heq]
      exact State.handLaw_waitReplied hs hw hx hnone r
  | transition ch => exact halter (State.altersTo_validTransition s ch)
  | invalid => exact halter (State.altersTo_updChain s _)
  | timer => exact halter (State.altersTo_expireTimer s)
  | waitOver hd =>
    obtain ⟨w, hw, -⟩ := (Option.any_eq_true ..).mp hd
    exact State.handLaw_waitReplied hs hw (State.altersTo_endWait s) rfl _
  | tie hr ha => exact State.handLaw_startWait hr hs .tie _ _ rfl
  | retie args mm hr hst hlow hhigh => exact State.handLaw_startWait hr hs .retie _ _ rfl
  | restart => exact State.handLaw_reset rfl rfl rfl
  | clear row hi => exact State.handLaw_reset rfl rfl rfl
  | power powered resetLow => exact hs
  | powerRestart powered resetLow => exact State.handLaw_reset rfl rfl rfl

/-- Every move keeps the command in hand of a wait or a commit. -/
theorem State.Moves.handLaw {s t : State} (h : s.Moves t) (hs : s.handLaw) : t.handLaw := by
  cases h with
  | stays => exact hs
  | port p hq =>
    obtain ⟨hport, hwait⟩ := handLaw_iff.mp hs
    refine handLaw_iff.mpr ⟨fun r => ?_, State.waitsInHand_updPort hwait hq.hand⟩
    rw [State.port_updPort_cases]
    split
    · rename_i he
      subst he
      exact hq.commitInHand (hport _)
    · exact hport r
  | act p row r hr hw => exact hw.handLaw hr r hs
  | event h => exact h.handLaw hs

/-! ## What a port holds -/

theorem PortState.altersTo.law {q r : PortState} (h : q.altersTo r) (hq : q.law) : r.law := by
  have hcommit := h.restsIn.commitLaw
  obtain ⟨he, hkinds, -, -⟩ := h
  obtain ⟨hbuf, hev, hmask, hd, hdc, hl, hc⟩ := hq
  refine ⟨?_, hkinds hev, ?_, ?_, ?_, ?_, hcommit hc⟩ <;> rw [he] <;> assumption

/-- A port whose lapse timer stands still. -/
theorem PortState.law_of_answer {r : PortState} (hbuf : r.buffer.chars.length ≤ Config.lineChars) (hev : kindsLaw r.events)
    (hmask : kindsLaw r.mask) (hd : ∀ d ∈ r.draft, d.law) (hdc : r.draft.isSome = true → r.claim.isSome = true) (hl : r.lapse = none)
    (hcommit : r.commitLaw) : r.law := by
  refine ⟨hbuf, hev, hmask, hd, hdc, fun h => ?_, hcommit⟩
  rw [hl] at h
  cases h

/-- A port without a draft whose lapse timer stands still. -/
theorem PortState.law_of_empty {r : PortState} (hbuf : r.buffer.chars.length ≤ Config.lineChars) (hev : kindsLaw r.events)
    (hmask : kindsLaw r.mask) (hd : r.draft = none) (hl : r.lapse = none) (hcommit : r.commitLaw) : r.law := by
  refine PortState.law_of_answer hbuf hev hmask (fun d h => ?_) (fun h => ?_) hl hcommit
  · rw [Option.mem_def, hd] at h
    cases h
  · rw [hd] at h
    cases h

theorem kindsLaw_clearKinds {es : List EventKind} (h : kindsLaw es) (gone : List EventKind) : kindsLaw (clearKinds gone es) := by
  show clearKinds gone es = EventKind.all.filter (fun k => (clearKinds gone es).contains k)
  conv_lhs => rw [h, clearKinds, List.filter_filter]
  refine List.filter_congr (fun k _ => ?_)
  rw [Bool.eq_iff_iff]
  simp [clearKinds, and_comm]

theorem kindsLaw_maskWith {es : List EventKind} (h : kindsLaw es) (e : EventKind) (on : Bool) : kindsLaw (maskWith e on es) := by
  cases on with
  | true => exact kindsLaw_setKind e es
  | false => exact kindsLaw_clearKinds h [e]

theorem LineBuffer.length_add {q : LineBuffer} (h : q.chars.length ≤ Config.lineChars) (b : Byte) (framingError : Bool) :
    (LineBuffer.add q b framingError).chars.length ≤ Config.lineChars := by
  unfold LineBuffer.add
  split
  · exact h
  · split
    · exact h
    · split
      · split
        · rename_i hlt
          simpa using hlt
        · exact h
      · exact h

theorem State.PortMoves.law {s : State} {p : Port} {q : PortState} (h : s.PortMoves p q) (hs : (s.port p).law) : q.law := by
  have hc' := h.commitLaw hs.2.2.2.2.2.2
  obtain ⟨hbuf, hev, hmask, hd, hdc, hl, hc⟩ := hs
  have hempty : emptyBuffer.chars.length ≤ Config.lineChars := Nat.zero_le _
  cases h with
  | byte b framingError => exact ⟨LineBuffer.length_add hbuf b framingError, hev, hmask, hd, hdc, hl, hc⟩
  | cleared => exact ⟨hempty, hev, hmask, hd, hdc, hl, hc⟩
  | overran => exact ⟨hempty, hev, hmask, hd, hdc, hl, hc⟩
  | replied c r hh =>
    refine ⟨hbuf, hev, hmask, hd, hdc, fun hlapse => ⟨?_, rfl⟩, hc⟩
    by_contra hn
    simp [hn] at hlapse
  | bad | answered => exact PortState.law_of_answer hempty hev hmask hd hdc rfl hc
  | overrunReplied => exact PortState.law_of_answer hbuf hev hmask hd hdc rfl hc
  | released | claimed | discarded => exact PortState.law_of_empty hempty hev hmask rfl rfl hc
  | lapsed => exact PortState.law_of_empty hbuf (kindsLaw_setKind _ _) hmask rfl rfl hc
  | drafted hb row r d hclaim hlaw =>
    refine PortState.law_of_answer hempty hev hmask (fun e he => ?_) (fun _ => Option.isSome_iff_ne_none.mpr hclaim) rfl hc
    cases he
    exact hlaw hd
  | committed hb args id d hclaim hdraft hpass => exact PortState.law_of_answer hempty hev hmask hd hdc rfl hc'
  | acked hb row r gone => exact PortState.law_of_answer hempty (kindsLaw_clearKinds hev gone) hmask hd hdc rfl hc
  | masked hb row r e on => exact PortState.law_of_answer hempty hev (kindsLaw_maskWith hmask e on) hd hdc rfl hc

/-! ## Claims apart (R60) -/

/-- No id is claimed by both ports (R60). -/
def State.claimsApart (s : State) : Prop := ∀ id, s.cab.claim = some id → s.plan.claim ≠ some id

theorem portLaw_iff {s : State} : s.portLaw ↔ (∀ p, (s.port p).law) ∧ s.claimsApart ∧ s.handLaw :=
  ⟨fun ⟨hcab, hplan, hclaims, hhand⟩ => ⟨fun p => by cases p; exacts [hcab, hplan], hclaims, hhand⟩,
   fun ⟨hlaw, hclaims, hhand⟩ => ⟨hlaw .cab, hlaw .plan, hclaims, hhand⟩⟩

theorem State.claimsApart_symm {s : State} (h : s.claimsApart) (p : Port) :
    ∀ id, (s.port p).claim = some id → (s.port (otherPort p)).claim ≠ some id := by
  intro id hid ho
  cases p
  · exact h id hid ho
  · exact h id ho hid

theorem State.claimsApart_of {s : State} (p : Port) (h : ∀ id, (s.port p).claim = some id → (s.port (otherPort p)).claim ≠ some id) :
    s.claimsApart := by
  intro id hc hp
  cases p
  · exact h id hc hp
  · exact h id hp hc

theorem State.claimsApart_rests {s t : State} (h : ∀ q, (s.port q).restsIn (t.port q)) (hs : s.claimsApart) : t.claimsApart := by
  intro id hc hp
  rcases (h .cab).1 with h1 | h1
  · rcases (h .plan).1 with h2 | h2
    · exact hs id (h1 ▸ hc) (h2 ▸ hp)
    · exact nomatch h2.symm.trans hp
  · exact nomatch h1.symm.trans hc

theorem State.PortMoves.claimsApart {s : State} {p : Port} {q : PortState} (h : s.PortMoves p q) (hs : s.claimsApart) :
    (s.updPort p (fun _ => q)).claimsApart := by
  refine State.claimsApart_of p (fun id hid => ?_)
  rw [State.port_updPort] at hid
  rw [State.port_updPort_other]
  rcases h.claim with he | he | ⟨k, hk, -, -, ho⟩
  · exact State.claimsApart_symm hs p id (he ▸ hid)
  · exact nomatch he.symm.trans hid
  · cases hk.symm.trans hid
    exact ho

theorem State.Moves.claimsApart {s t : State} (h : s.Moves t) (hs : s.claimsApart) : t.claimsApart := by
  cases h with
  | stays => exact hs
  | port p hq => exact hq.claimsApart hs
  | act p row r hr hw =>
    exact State.claimsApart_rests (fun q => ((State.taken_rests s p q row).trans (hw.rests q)).trans (State.reply_rests _ p q r)) hs
  | event h => exact State.claimsApart_rests h.rests hs

/-! ## The ports' law (O9) -/

/-- The reply of a command in hand is sent. -/
theorem PortState.law_replied {q : PortState} (hq : q.law) (hh : q.hand ≠ .idle) (hand : Hand) {d : Option Draft}
    (hd : d = q.draft ∨ d = none) : ({ q with hand := hand, draft := d } : PortState).law := by
  obtain ⟨hbuf, hev, hmask, hdl, hdc, hl, hc⟩ := hq
  have hlapse : q.lapse = none := by
    by_contra hn
    exact hh (hl (Option.isSome_iff_ne_none.mpr hn)).2
  rcases hd with rfl | rfl
  · exact PortState.law_of_answer hbuf hev hmask hdl hdc hlapse hc
  · exact PortState.law_of_empty hbuf hev hmask rfl hlapse hc

/-- The port of a line taken, passed by and then answered, its claim kept or emptied. -/
theorem PortState.law_answered {q r z : PortState} {row : Instr} (hq : q.law)
    (h : ({ q with buffer := emptyBuffer, lapse := none, hand := .waiting row } : PortState).altersTo r) {hand : Hand}
    (hz : z = { r with hand := hand } ∨ z = { r with hand := hand, claim := none, draft := none, lapse := none }) : z.law := by
  obtain ⟨hbuf, hev, hmask, hd, hdc, -, hc⟩ := hq
  have hbegun : ({ q with buffer := emptyBuffer, lapse := none, hand := .waiting row } : PortState).law :=
    PortState.law_of_answer (Nat.zero_le _) hev hmask hd hdc rfl hc
  have hr := h.law hbegun
  rcases hz with rfl | rfl
  · exact PortState.law_replied hr (h.hand ▸ fun he => nomatch he) hand (.inl rfl)
  · obtain ⟨hbuf, hev, hmask, -, -, -, hc⟩ := hr
    exact PortState.law_of_empty hbuf hev hmask rfl rfl hc

theorem State.Acts.port_law {s w : State} {p : Port} {row : Instr} (h : (s.taken p row).Acts p w) (r : Reply)
    (hs : ∀ q, (s.port q).law) (q : Port) : ((w.reply p r).port q).law := by
  obtain ⟨b, x, -, hx, hw⟩ := h.effect
  obtain ⟨hxp, hxo⟩ := State.altersTo_taken_port hx
  rcases State.port_other p q with rfl | rfl
  · refine PortState.law_answered (hs q) hxp (hand := .sending (x.port q).hand.command? r) ?_
    rcases hw with rfl | rfl
    · exact .inl (by cases q <;> rfl)
    · exact .inr (by cases q <;> rfl)
  · have hwo : (w.reply p r).port (otherPort p) = x.port (otherPort p) := by
      rcases hw with rfl | rfl <;> cases p <;> rfl
    rw [hwo]
    exact hxo.law (hs _)

theorem PortState.law_reset : PortState.reset.law :=
  PortState.law_of_empty (Nat.zero_le _) (by decide) (by decide) rfl rfl (fun _ h => nomatch h)

/-- The reply of a command in hand, on a module passed by. -/
theorem State.port_law_replied {s x : State} {p : Port} (hx : ∀ q, (s.port q).altersTo (x.port q)) (hs : ∀ q, (s.port q).law)
    (hh : (s.port p).hand ≠ .idle) (r : Reply) {d : Option Draft} (hd : d = (x.port p).draft ∨ d = none) (q : Port) :
    ((x.updPort p (fun q => { q with hand := .sending q.hand.command? r, draft := d })).port q).law := by
  rw [State.port_updPort_cases]
  split
  · exact PortState.law_replied ((hx p).law (hs p)) ((hx p).hand ▸ hh) _ hd
  · exact (hx q).law (hs q)

theorem State.port_law_commitOver {s : State} (p : Port) (hs : ∀ q, (s.port q).law) (q : Port) : ((s.commitOver p).port q).law := by
  rw [State.commitOver, State.port_updPort_cases]
  split
  · obtain ⟨hbuf, hev, hmask, hd, hdc, hl, -⟩ := hs p
    exact ⟨hbuf, hev, hmask, hd, hdc, hl, fun c hc => nomatch hc⟩
  · exact hs q

theorem State.Happens.port_law {s t : State} (h : s.Happens t) (hhand : s.handLaw) (hs : ∀ q, (s.port q).law) (q : Port) :
    (t.port q).law := by
  have halter : s.altersTo t → (t.port q).law := fun h => (h.port q).law (hs q)
  have hwaited : ∀ {w : TieWait} {x : State} (r : Reply), s.run.wait = some w → s.altersTo x → ((x.reply .cab r).port q).law :=
    fun r hw hx => State.port_law_replied (p := .cab) hx.port hs (hhand.of_wait hw).2 r (.inl rfl) q
  cases h with
  | completeCommit p c id d hc hclaim hdraft =>
    obtain ⟨b, x, r, e, hx, he, heq⟩ := State.completeCommit_answered hc hclaim hdraft
    have hport : ∀ q, ((s.commitOver p).port q).altersTo (x.port q) := fun q => by
      have := hx.port q
      cases q <;> exact this
    rw [heq]
    refine State.port_law_replied hport (State.port_law_commitOver p hs) ?_ r he q
    rw [State.commitOver_port]
    exact (hhand.of_commit hc).1
  | lookForWork => exact halter (State.altersTo_lookForWork s)
  | finishRecheck f hf => exact halter (State.altersTo_finishRecheck s f)
  | link f hf => exact halter (State.altersTo_updLink s f)
  | frame f =>
    rcases State.finishFrame_judges s f with h | ⟨x, r, hx, hw, -, heq⟩
    · exact halter h
    · obtain ⟨w, hw⟩ := Option.ne_none_iff_exists'.mp hw
      rw [heq]
      exact hwaited r hw hx
  | transition ch => exact halter (State.altersTo_validTransition s ch)
  | invalid => exact halter (State.altersTo_updChain s _)
  | timer => exact halter (State.altersTo_expireTimer s)
  | waitOver hd =>
    obtain ⟨w, hw, -⟩ := (Option.any_eq_true ..).mp hd
    exact hwaited _ hw (State.altersTo_endWait s)
  | tie hr ha | retie args mm hr hst hlow hhigh =>
    cases q with
    | plan => exact hs .plan
    | cab =>
      obtain ⟨-, hev, hmask, hd, hdc, -, hc⟩ := hs .cab
      exact PortState.law_of_answer (Nat.zero_le _) hev hmask hd hdc rfl hc
  | restart | powerRestart => cases q <;> exact PortState.law_reset
  | clear row hi =>
    cases q with
    | cab => exact PortState.law_reset
    | plan =>
      exact PortState.law_of_empty (Nat.zero_le _) (show kindsLaw [.start] by decide) (show kindsLaw [] by decide) rfl rfl
        (fun _ h => nomatch h)
  | power powered resetLow => cases q; exacts [hs .cab, hs .plan]

theorem State.Moves.port_law {s t : State} (h : s.Moves t) (hhand : s.handLaw) (hs : ∀ q, (s.port q).law) (q : Port) :
    (t.port q).law := by
  cases h with
  | stays => exact hs q
  | port p hq =>
    rw [State.port_updPort_cases]
    split
    · exact hq.law (hs p)
    · exact hs q
  | act p row r hr hw => exact hw.port_law r hs q
  | event h => exact h.port_law hhand hs q

theorem keptByMoves_portLaw : KeptByMoves State.portLaw := by
  refine ⟨fun _ _ _ h => h, fun s t h hs => ?_⟩
  obtain ⟨hlaw, hclaims, hhand⟩ := portLaw_iff.mp hs
  exact portLaw_iff.mpr ⟨h.port_law hhand hlaw, h.claimsApart hclaims, h.handLaw hhand⟩

/-- Settles O9: each move of a port keeps what it holds in shape, and the module's other work passes the ports by. -/
theorem stepKeepsThePortLaw : Obligations.StepKeepsThePortLaw := fun _ _ hs ht => keptByMoves_portLaw.step ht hs

end Sys2Proof.Machine
end

section
/-! PROOF. The law of the re-check queue does not stand by itself: without the law of commits in flight, a commit of a line that takes no
marks can end with its id queued and the line CHECKED (R78, R85; log 18). -/
namespace Sys2Proof.Machine

/-! ## A reached commit of a COMPLETE line -/

/-- A COMPLETE line that is STALE. -/
def staleLaidLine : Line :=
  { id := 1, label := none, outlet := none, lifecycle := .complete, status := .stale, revision := 0, profile := [], spans := [] }

/-- A draft of it, of the revision it has. -/
def staleLaidDraft : Draft :=
  { base := some 0, parent := none, junction := none, label := none, points := [], spans := [], first := 0, last := 0, cursor := 0 }

/-- The line is queued, and a commit of it is in flight that was taken of a COMPLETE line, has passed its check and has been reached. No
commit is taken so (R73, test 4), but neither the table's law nor the unit's says it. -/
def reachedLaidCommit : State :=
  { State.reset with
    store := { Store.reset with lines := [staleLaidLine] }
    cab := { PortState.reset with
      hand := .waiting (.commit .cab [])
      claim := some 1
      draft := some staleLaidDraft
      commit := some { was := some .complete, reached := true, check := { made := 100, failure := none } } }
    recheck := { Recheck.reset with queue := [1] }
    pending := [.commitCompletion .cab] }

/-- The completion of that commit. -/
def laidCommitDone : State :=
  reachedLaidCommit.completeCommit .cab { was := some .complete, reached := true, check := { made := 100, failure := none } } 1 staleLaidDraft

theorem step_reachedLaidCommit : step reachedLaidCommit = .next { laidCommitDone with pending := [] } := rfl

theorem laidCommitDone_queue : laidCommitDone.recheck.queue = [1] := by decide

theorem laidCommitDone_status : laidCommitDone.store.lines.map (fun l => l.status) = [.checked] := by decide

theorem reachedLaidCommit_laws :
    reachedLaidCommit.recheck.law ∧ reachedLaidCommit.tableLaw ∧ reachedLaidCommit.coverLaw := by
  refine ⟨by decide, ⟨by decide, by decide, by decide, by decide, ?_, ?_⟩, ?_, ?_, ?_⟩
  · intro id hid
    cases hid
    decide
  · intro id hid
    cases hid
  · intro l hl _
    rw [List.mem_singleton.mp hl]
    exact .inl (by decide)
  · intro id hid
    exact ⟨staleLaidLine, List.mem_singleton_self _, (List.mem_singleton.mp hid).symm, rfl⟩
  · intro f hf
    cases hf

/-- Refutes O8: the id of a COMPLETE line is queued while the line is STALE, and the completion of a reached commit of the line sets it
CHECKED, takes nothing from the queue, and marks nothing, as a COMPLETE line takes no marks. -/
theorem not_stepKeepsTheRecheckLaw : ¬ Obligations.StepKeepsTheRecheckLaw := by
  intro h
  obtain ⟨hlaw, htable, hcover⟩ := reachedLaidCommit_laws
  obtain ⟨-, hqueued, -⟩ := (h _ _ hlaw step_reachedLaidCommit).2 htable hcover
  obtain ⟨l, hl, -, hstale⟩ := hqueued 1 (laidCommitDone_queue ▸ List.mem_singleton_self 1)
  have hmem : l.status ∈ laidCommitDone.store.lines.map (fun l => l.status) := List.mem_map_of_mem hl
  rw [laidCommitDone_status, hstale] at hmem
  cases List.mem_singleton.mp hmem

end Sys2Proof.Machine
end

section
/-! PROOF. The dig (06, 07, 08): what the run's laws speak of, as a view of the state, and what each operation makes of it. -/
namespace Sys2Proof.Machine

/-! ## The view -/

/-- Of a run context: the run state, retie-required, and F. -/
structure RunCore where
  state : RunState
  retie : Bool
  furthest : Option Int

def RunContext.core (r : RunContext) : RunCore := { state := r.state, retie := r.retie, furthest := r.furthest }

/-- What the laws of the run, the chainage and the evaluator speak of. -/
structure Dig where
  run : Option RunCore
  known : Bool
  position : Int
  timer : Option Nat
  wait : Option TieWait
  coast : Int
  eval : Evaluator
  settings : Settings

def State.dig (s : State) : Dig :=
  { run := s.context?.map RunContext.core, known := s.chain.known, position := s.chain.position, timer := s.run.timer, wait := s.run.wait,
    coast := s.run.coast, eval := s.eval, settings := s.settings }

/-! ## Operations that leave the view -/

theorem Line.isActive_of_core {l m : Line} (h : m.run?.map RunContext.core = l.run?.map RunContext.core) : m.isActive = l.isActive := by
  have := congrArg Option.isSome h
  rw [Line.isActive_run, Line.isActive_run]
  simpa using this

/-- The view stands where the run contexts do, marks and trim apart. -/
theorem State.core_mapLines {s : State} {f : Line → Line} (hf : ∀ l, (f l).run?.map RunContext.core = l.run?.map RunContext.core) :
    (s.mapLines f).context?.map RunContext.core = s.context?.map RunContext.core := by
  unfold State.context?
  rw [State.mapLines_active? (fun l => Line.isActive_of_core (hf l))]
  cases s.active? with
  | none => rfl
  | some l => exact hf l

theorem State.dig_mapLines {s : State} {f : Line → Line} (hf : ∀ l, (f l).run?.map RunContext.core = l.run?.map RunContext.core) :
    (s.mapLines f).dig = s.dig := by
  rw [State.dig, State.core_mapLines hf]
  rfl

theorem State.dig_updActive {s : State} {f : Line → Line} (hf : ∀ l, (f l).run?.map RunContext.core = l.run?.map RunContext.core) :
    (s.updActive f).dig = s.dig :=
  State.dig_mapLines (fun l => by split; exacts [hf l, rfl])

theorem State.dig_updLine {s : State} {id : Nat} {f : Line → Line} (hf : ∀ l, (f l).run?.map RunContext.core = l.run?.map RunContext.core) :
    (s.updLine id f).dig = s.dig :=
  State.dig_mapLines (fun l => by split; exacts [hf l, rfl])

/-- A change of run contexts that leaves run state, retie-required and F. -/
theorem State.dig_updRun_core {s : State} {f : RunContext → RunContext} (hf : ∀ r, (f r).core = r.core) : (s.updRun f).dig = s.dig :=
  State.dig_updActive (fun l => by rw [Line.updRun_run?, Option.map_map, Function.comp_def]; simp only [hf])

@[simp] theorem State.dig_updPort (s : State) (p : Port) (f : PortState → PortState) : (s.updPort p f).dig = s.dig := by cases p <;> rfl
@[simp] theorem State.dig_taken (s : State) (p : Port) (row : Instr) : (s.taken p row).dig = s.dig := by cases p <;> rfl
@[simp] theorem State.dig_reply (s : State) (p : Port) (r : Reply) : (s.reply p r).dig = s.dig := State.dig_updPort ..
@[simp] theorem State.dig_raise (s : State) (e : EventKind) : (s.raise e).dig = s.dig := rfl
@[simp] theorem State.dig_updRecheck (s : State) (f : Recheck → Recheck) : (s.updRecheck f).dig = s.dig := rfl
@[simp] theorem State.dig_updLink (s : State) (f : Link → Link) : (s.updLink f).dig = s.dig := rfl
@[simp] theorem State.dig_setStation (s : State) (n : StationId) (x : Station) : (s.setStation n x).dig = s.dig := rfl
@[simp] theorem State.dig_proceedChecks (s : State) : s.proceedChecks.dig = s.dig := rfl
@[simp] theorem State.dig_reach (s : State) (c : Change) : (s.reach c).dig = s.dig := rfl
@[simp] theorem State.dig_noteDrop (s : State) (id : Nat) (r : DropReason) : (s.noteDrop id r).dig = s.dig := rfl
@[simp] theorem State.dig_noteDropIf (s : State) (l : Line) (r : DropReason) : (s.noteDropIf l r).dig = s.dig := by
  unfold State.noteDropIf
  split <;> rfl
@[simp] theorem State.dig_discardCheck (s : State) (id : Nat) : (s.discardCheck id).dig = s.dig := rfl
@[simp] theorem State.dig_warnEnd (s : State) : s.warnEnd.dig = s.dig := rfl

/-- A change that leaves the machine but for the unit's own work, and the run contexts. -/
theorem State.dig_of_keeps {s t : State} {ks : List EventKind} (h : s.keepsMachine t ks)
    (hcore : t.context?.map RunContext.core = s.context?.map RunContext.core) (hset : t.settings = s.settings) : t.dig = s.dig := by
  obtain ⟨-, -, -, -, hchain, heval, -, hrun, -⟩ := h
  rw [State.dig, hcore, hchain, heval, hset, hrun]
  rfl

theorem State.dig_of_unitWorks {s t : State} (h : State.unitWorks s t) : t.dig = s.dig := by
  obtain ⟨hk, hst, -⟩ := h
  exact State.dig_of_keeps hk (by rw [State.context?, State.active?, hst]; rfl) (by rw [State.settings, hst]; rfl)

theorem Line.core_marked (l : Line) : l.marked.run?.map RunContext.core = l.run?.map RunContext.core := by rw [Line.marked_run?]

@[simp] theorem State.dig_markLines (s : State) (hit : Line → Bool) : (s.markLines hit).dig = s.dig := by
  refine State.dig_of_keeps (State.markLines_keeps s hit) ?_ (State.markLines_store s hit).2
  obtain ⟨hlines, -⟩ := State.markLines_marked s hit
  have h := State.core_mapLines (s := s) (f := fun l => if l.takesMarks && hit l then l.marked else l)
    (fun l => by split; exacts [l.core_marked, rfl])
  rw [← h, State.context?, State.active?, hlines]
  rfl

@[simp] theorem State.dig_markingChange (s : State) (c : Change) : (s.markingChange c).dig = s.dig :=
  (State.dig_markLines ..).trans (State.dig_reach s c)

@[simp] theorem State.dig_unqueue (s : State) (id : Nat) : (s.unqueue id).dig = s.dig := by
  obtain ⟨hk, hst, -⟩ := State.keepsMachine_unitOnly (State.unitOnly_unqueue s id)
  exact State.dig_of_keeps hk (by rw [State.context?, State.active?, hst]; rfl) (by rw [State.settings, hst]; rfl)

@[simp] theorem State.dig_lookForWork (s : State) : s.lookForWork.dig = s.dig := State.dig_of_unitWorks (State.unitWorks_lookForWork s)

theorem State.dig_checkWritten (s : State) (f : InFlight) : (s.checkWritten f).dig = s.dig := by
  unfold State.checkWritten
  split
  · rfl
  · split
    · rfl
    · unfold State.writeResult
      split
      · exact State.dig_updLine (fun _ => rfl)
      · exact (State.dig_raise _ _).trans (State.dig_updLine (fun _ => rfl))

@[simp] theorem State.dig_finishRecheck (s : State) (f : InFlight) : (s.finishRecheck f).dig = s.dig := by
  rw [State.finishRecheck_eq, State.dig_lookForWork, State.dig_of_unitWorks (State.unitWorks_sweptTest _),
    State.dig_of_unitWorks (State.unitWorks_carryAfter _ _), State.dig_updRecheck, State.dig_checkWritten]

@[simp] theorem State.dig_enterSegment (s : State) (k : Nat) : (s.enterSegment k).dig = s.dig := State.dig_updActive (fun _ => rfl)

@[simp] theorem State.dig_closePassed (s : State) (f : Int) : (s.closePassed f).dig = s.dig := by
  unfold State.closePassed
  split
  · rfl
  · split
    · exact State.dig_updActive (fun _ => rfl)
    · rfl

@[simp] theorem State.dig_accrueCoast (s : State) (a b : Int) : (s.accrueCoast a b).dig = s.dig := State.dig_updActive (fun _ => rfl)
@[simp] theorem State.dig_accrue (s : State) (err : Option Int) : (s.accrue err).dig = s.dig := State.dig_updActive (fun _ => rfl)

theorem Line.core_setStaged (l : Line) (st : Option Staged) : (l.setStaged st).run?.map RunContext.core = l.run?.map RunContext.core := by
  rw [Line.setStaged_run?]

@[simp] theorem State.dig_dropStaged (s : State) (l : Line) (r : DropReason) : (s.dropStaged l r).dig = s.dig :=
  State.dig_updActive (fun k => k.core_setStaged none)

@[simp] theorem State.dig_setSettled (s : State) (b : Bool) : (s.setSettled b).dig = s.dig := State.dig_updActive (fun k => k.core_setStaged _)

@[simp] theorem State.dig_fitToLength (s : State) (old : Line) : (s.fitToLength old).dig = s.dig := by
  unfold State.fitToLength
  split
  · rfl
  · dsimp only
    split
    · exact State.dig_updRun_core (s := s) (fun _ => rfl)
    · exact State.dig_updRun_core (fun _ => rfl)

/-! ## Operations that change the view -/

/-- The run controller's operations change the run of the view as they change the run context. -/
theorem State.dig_updRun {s : State} {f : RunContext → RunContext} {g : RunCore → RunCore} (hg : ∀ r, (f r).core = g r.core) :
    (s.updRun f).dig = { s.dig with run := s.dig.run.map g } := by
  have h : (s.updRun f).context?.map RunContext.core = (s.context?.map RunContext.core).map g := by
    rw [State.updRun_context?, Option.map_map, Option.map_map]
    congr 1
    funext r
    exact hg r
  rw [State.dig, h]
  rfl

@[simp] theorem State.dig_setFurthest (s : State) (f : Int) :
    (s.setFurthest f).dig = { s.dig with run := s.dig.run.map (fun c => { c with furthest := some f }) } :=
  State.dig_updRun (fun _ => rfl)

/-- A change of run state in the view (R108). -/
def Dig.change (d : Dig) (r : RunState) : Dig :=
  { d with run := d.run.map (fun c => { c with state := r }), timer := none, eval := { d.eval with drive := 0 } }

@[simp] theorem State.dig_raiseEntry (s : State) (r : RunState) : (s.raiseEntry r).dig = s.dig := by
  rcases State.raiseEntry_eq s r with h | h | h <;> rw [h] <;> rfl

@[simp] theorem State.dig_changeRun (s : State) (r : RunState) : (s.changeRun r).dig = s.dig.change r := by
  have h : (s.updRun (fun c => { c with state := r })).dig = { s.dig with run := s.dig.run.map (fun c => { c with state := r }) } :=
    State.dig_updRun (fun _ => rfl)
  unfold State.changeRun
  rw [State.dig_raiseEntry, State.dig_raise]
  show ({ (s.updRun (fun c => { c with state := r })).dig with timer := none, eval := _ } : Dig) = _
  rw [h]
  rfl

@[simp] theorem State.dig_startTimer (s : State) (d : Nat) : (s.startTimer d).dig = { s.dig with timer := some d } := rfl

/-- The view of an idle run. -/
def Dig.idle (t : Settings) : Dig :=
  { run := none, known := false, position := 0, timer := none, wait := none, coast := 0, eval := Evaluator.reset, settings := t }

/-- A line that leaves ACTIVE leaves an idle run (R12, R98, R110, R133). -/
theorem State.dig_leaveActive (s : State) {x : Lifecycle} (hx : x.kind ≠ .active) : (s.leaveActive x).dig = Dig.idle s.settings := by
  have h : (s.leaveActive x).context? = none := by
    have : (s.leaveActive x).active? = none := State.updActive_none (s := s) (f := fun l => { l with lifecycle := x }) (fun l => by
      cases x with
      | active r st => exact absurd rfl hx
      | _ => rfl)
    rw [State.context?, this]
    rfl
  rw [State.dig, h]
  rfl

theorem State.digging_dig {s : State} : s.digging = true ↔ ∃ c, s.dig.run = some c ∧ (c.state = .cutting ∨ c.state = .coasting) := by
  rw [State.digging_iff]
  show (s.context?.map _ = _ ∨ s.context?.map _ = _) ↔ ∃ c, s.context?.map RunContext.core = some c ∧ _
  cases s.context? with
  | none => simp
  | some r =>
    simp only [Option.map_some, Option.some.injEq]
    exact ⟨fun h => ⟨_, rfl, h⟩, fun ⟨c, hc, h⟩ => by subst hc; exact h⟩

theorem State.runState?_dig (s : State) : s.runState? = s.dig.run.map (fun c => c.state) := by
  show s.context?.map _ = (s.context?.map RunContext.core).map _
  rw [Option.map_map]
  rfl

theorem State.furthest?_dig (s : State) : s.furthest? = s.dig.run.bind (fun c => c.furthest) := by
  show s.context?.bind _ = (s.context?.map RunContext.core).bind _
  cases s.context? <;> rfl

end Sys2Proof.Machine
end

section
/-! PROOF. The law of the dig (06, 07, 08), on its view: which changes keep it, and which operations make them. -/
namespace Sys2Proof.Machine

/-! ## The law on the view -/

def RunCore.knows (c : RunCore) : Bool := c.state == .cutting || c.state == .coasting || (c.state.isStopped && !c.retie)

/-- What a run is with the volatile items beside it (R98, R100, R114, R119, R122, R140). -/
def Dig.lawFor (d : Dig) (c : RunCore) : Prop :=
  d.known = c.knows ∧ (c.retie = true → c.state.isStopped = true) ∧ (c.furthest.isSome = true ↔ c.state ≠ .armed)
    ∧ (d.timer.isSome = true ↔ c.state = .cutting)
    ∧ (∀ w ∈ d.wait, if w.kind = .tie then c.state = .armed else c.state.isStopped = true)
    ∧ (d.eval.drive ≠ 0 → c.state = .cutting)

/-- The run's law, the chainage's but for F, the evaluator's, and the settings'. -/
structure Dig.runs (d : Dig) : Prop where
  run : ∀ c, d.run = some c → d.lawFor c
  idle : d.run = none → d.known = false ∧ d.timer = none ∧ d.wait = none ∧ d.coast = 0 ∧ d.eval = Evaluator.reset
  serving : d.eval.serving.isSome = d.known
  unknown : d.known = false → d.position = 0
  position : -Config.positionLimit ≤ d.position ∧ d.position ≤ Config.positionLimit
  waits : ∀ w ∈ d.wait, -2400000 ≤ w.chainage ∧ w.chainage ≤ 2400000
  eval : d.eval.law
  settings : d.settings.law

/-- F lies in its range, and while digging the chainage is not less than F − BACKUP (R100, R126). -/
def Dig.reaches (d : Dig) : Prop :=
  ∀ c f, d.run = some c → c.furthest = some f → 0 ≤ f ∧ f ≤ 2400000
    ∧ (c.state = .cutting ∨ c.state = .coasting → f - d.settings.backup ≤ Int.tdiv d.position 1000)

theorem runLaw_iff {s : State} : s.runLaw ↔ (∀ c, s.dig.run = some c → s.dig.lawFor c) ∧ (s.dig.run = none → s.dig.known = false
    ∧ s.dig.timer = none ∧ s.dig.wait = none ∧ s.dig.coast = 0 ∧ s.dig.eval = Evaluator.reset) := by
  show (∀ r ∈ s.context?, s.runLawFor r) ∧ (s.context? = none → s.idleLaw) ↔
    (∀ c, s.context?.map RunContext.core = some c → s.dig.lawFor c) ∧ (s.context?.map RunContext.core = none → _)
  cases hc : s.context? with
  | none => exact ⟨fun h => ⟨fun c hc => (nomatch hc), fun _ => h.2 rfl⟩, fun h => ⟨fun r hr => (nomatch hr), fun _ => h.2 rfl⟩⟩
  | some r =>
    refine ⟨fun h => ⟨fun c hc => ?_, fun h => (nomatch h)⟩, fun h => ⟨fun c hc => ?_, fun h => (nomatch h)⟩⟩
    · cases hc
      exact h.1 r rfl
    · cases hc
      exact h.1 r.core rfl

theorem backup_reaches_iff {s : State} : (s.backupLaw ∧ ∀ f ∈ s.furthest?, 0 ≤ f ∧ f ≤ 2400000) ↔ s.dig.reaches := by
  unfold Dig.reaches State.backupLaw
  rw [State.furthest?_dig]
  cases hr : s.dig.run with
  | none => simp
  | some c =>
    have hdig : s.digging = true ↔ (c.state = .cutting ∨ c.state = .coasting) := by
      rw [State.digging_dig, hr]
      exact ⟨fun ⟨c', hc, h⟩ => by cases hc; exact h, fun h => ⟨c, rfl, h⟩⟩
    simp only [hdig, Option.bind_some, Option.mem_def]
    constructor
    · rintro ⟨hback, hrange⟩ c' f hc hf
      cases hc
      exact ⟨(hrange f hf).1, (hrange f hf).2, fun h => hback h f hf⟩
    · intro h
      exact ⟨fun hd f hf => (h c f rfl hf).2.2 hd, fun f hf => ⟨(h c f rfl hf).1, (h c f rfl hf).2.1⟩⟩

/-- The law of the dig is the law of its view, with what keeps it. -/
theorem digLaw_iff {s : State} : s.digLaw ↔ s.store.idsAscending ∧ s.store.oneActive ∧ s.handLaw ∧ s.dig.runs ∧ s.dig.reaches := by
  constructor
  · rintro ⟨hids, hone, hset, hrun, hhand, ⟨hserving, hunknown, hpos, hf, hwait⟩, heval, hback⟩
    obtain ⟨hrun, hidle⟩ := runLaw_iff.mp hrun
    exact ⟨hids, hone, hhand, ⟨hrun, hidle, hserving, hunknown, hpos, hwait, heval, hset⟩, backup_reaches_iff.mp ⟨hback, hf⟩⟩
  · rintro ⟨hids, hone, hhand, hruns, hreach⟩
    obtain ⟨hback, hf⟩ := backup_reaches_iff.mpr hreach
    exact ⟨hids, hone, hruns.settings, runLaw_iff.mpr ⟨hruns.run, hruns.idle⟩, hhand,
      ⟨hruns.serving, hruns.unknown, hruns.position, hf, hruns.waits⟩, hruns.eval, hback⟩

/-! ## Changes of the view -/

/-- The run of the view digs: it is CUTTING or COASTING. -/
def Dig.digging (d : Dig) : Prop := ∃ c, d.run = some c ∧ (c.state = .cutting ∨ c.state = .coasting)

theorem Dig.runs.not_retie {d : Dig} (h : d.runs) {c : RunCore} (hc : d.run = some c) (hd : c.state.isStopped = false) : c.retie = false := by
  obtain ⟨-, hretie, -⟩ := h.run c hc
  by_contra hn
  rw [Bool.not_eq_false] at hn
  exact nomatch (hretie hn).symm.trans hd

theorem RunState.not_stopped {r : RunState} (h : r = .cutting ∨ r = .coasting) : r.isStopped = false ∧ r ≠ .armed := by
  rcases h with rfl | rfl <;> exact ⟨rfl, fun h => (nomatch h)⟩

/-- While digging no tie wait is under way. -/
theorem Dig.runs.no_wait {d : Dig} (h : d.runs) (hd : d.digging) : d.wait = none := by
  obtain ⟨c, hc, hstate⟩ := hd
  obtain ⟨-, -, -, -, hwait, -⟩ := h.run c hc
  obtain ⟨hstop, harmed⟩ := RunState.not_stopped hstate
  cases hw : d.wait with
  | none => rfl
  | some w =>
    have := hwait w (by simp [hw])
    split at this
    · exact absurd this harmed
    · exact (nomatch this.symm.trans hstop)

theorem Dig.runs.known_of_digging {d : Dig} (h : d.runs) (hd : d.digging) : d.known = true := by
  obtain ⟨c, hc, hstate⟩ := hd
  obtain ⟨hknown, -⟩ := h.run c hc
  rw [hknown, RunCore.knows]
  rcases hstate with hs | hs <;> rw [hs] <;> rfl

theorem Evaluator.law_still {e : Evaluator} (h : e.law) : Evaluator.law { e with drive := 0 } :=
  ⟨show (-1000 : Int) ≤ 0 by decide, show (0 : Int) ≤ 1000 by decide, h.2.2⟩

/-- A run that digs stops, or coasts. -/
theorem Dig.runs.stop {d : Dig} (h : d.runs) (hd : d.digging) {r : RunState} (hr : r.isStopped = true ∨ r = .coasting) :
    (d.change r).runs := by
  have hwait := h.no_wait hd
  have hknown := h.known_of_digging hd
  obtain ⟨c, hc, hstate⟩ := hd
  obtain ⟨hstop, harmed⟩ := RunState.not_stopped hstate
  have hretie := h.not_retie hc hstop
  obtain ⟨-, -, hf, -⟩ := h.run c hc
  have hrun : (d.change r).run = some { c with state := r } := by
    show d.run.map _ = _
    rw [hc]
    rfl
  have hknows : RunCore.knows { c with state := r } = true := by
    unfold RunCore.knows
    rcases hr with hr | rfl
    · simp [hr, hretie]
    · rfl
  have hne : r ≠ .armed ∧ r ≠ .cutting := by
    rcases hr with hr | rfl
    · constructor <;> rintro rfl <;> cases hr
    · exact ⟨fun h => (nomatch h), fun h => (nomatch h)⟩
  refine ⟨fun c' hc' => ?_, fun h0 => (nomatch hrun.symm.trans h0), h.serving, h.unknown, h.position, h.waits, Evaluator.law_still h.eval,
    h.settings⟩
  cases hrun.symm.trans hc'
  refine ⟨hknown.trans hknows.symm, fun hr => (nomatch hretie.symm.trans hr), ?_, ?_, fun w hw => ?_, fun h0 => absurd rfl h0⟩
  · exact ⟨fun _ => hne.1, fun _ => hf.mpr harmed⟩
  · exact ⟨fun h0 => (nomatch h0), fun h0 => absurd h0 hne.2⟩
  · exact (nomatch hwait.symm.trans hw)

/-- A run that cuts, with what belongs to it. -/
theorem Dig.runs_cutting {d : Dig} {c : RunCore} (hc : d.run = some c) (hstate : c.state = .cutting) (hretie : c.retie = false)
    (hf : c.furthest.isSome = true) (hknown : d.known = true) (htimer : d.timer.isSome = true) (hwait : d.wait = none)
    (hserving : d.eval.serving.isSome = true) (hpos : -Config.positionLimit ≤ d.position ∧ d.position ≤ Config.positionLimit)
    (heval : d.eval.law) (hset : d.settings.law) : d.runs := by
  refine ⟨fun c' hc' => ?_, fun h0 => (nomatch hc.symm.trans h0), hserving.trans hknown.symm, fun h0 => (nomatch hknown.symm.trans h0), hpos,
    fun w hw => (nomatch hwait.symm.trans hw), heval, hset⟩
  cases hc.symm.trans hc'
  refine ⟨by rw [hknown, RunCore.knows, hstate]; rfl, fun h0 => (nomatch hretie.symm.trans h0), ?_, ?_, fun w hw => (nomatch hwait.symm.trans hw),
    fun _ => hstate⟩
  · rw [hstate]
    exact ⟨fun _ h0 => (nomatch h0), fun _ => hf⟩
  · exact ⟨fun _ => hstate, fun _ => htimer⟩

theorem Dig.runs_idle {t : Settings} (ht : t.law) : (Dig.idle t).runs :=
  ⟨fun c hc => (nomatch hc), fun _ => ⟨rfl, rfl, rfl, rfl, rfl⟩, rfl, fun _ => rfl, show -Config.positionLimit ≤ 0 ∧ 0 ≤ Config.positionLimit by decide,
    fun w hw => (nomatch hw), show Evaluator.law Evaluator.reset by decide, ht⟩

/-- The evaluator changed: a serving span held as before, no drive but while CUTTING, and nothing while there is no run. -/
theorem Dig.runs.withEval {d : Dig} (h : d.runs) {e : Evaluator} (hserving : e.serving.isSome = d.eval.serving.isSome) (hlaw : e.law)
    (hdrive : e.drive ≠ 0 → ∀ c, d.run = some c → c.state = .cutting) (hrun : d.run ≠ none) : Dig.runs { d with eval := e } := by
  refine ⟨fun c hc => ?_, fun h0 => absurd h0 hrun, hserving.trans h.serving, h.unknown, h.position, h.waits, hlaw, h.settings⟩
  obtain ⟨h1, h2, h3, h4, h5, -⟩ := h.run c hc
  exact ⟨h1, h2, h3, h4, h5, fun h0 => hdrive h0 c hc⟩

/-- The strike timer's deadline moved while it runs. -/
theorem Dig.runs.withTimer {d : Dig} (h : d.runs) {c : RunCore} (hc : d.run = some c) (hstate : c.state = .cutting) (t : Nat) :
    Dig.runs { d with timer := some t } := by
  refine ⟨fun c' hc' => ?_, fun h0 => (nomatch hc.symm.trans h0), h.serving, h.unknown, h.position, h.waits, h.eval, h.settings⟩
  cases hc.symm.trans hc'
  obtain ⟨h1, h2, h3, -, h5, h6⟩ := h.run c hc
  exact ⟨h1, h2, h3, ⟨fun _ => hstate, fun _ => rfl⟩, h5, h6⟩

/-- The coast distance of a run that is not idle. -/
theorem Dig.runs.withCoast {d : Dig} (h : d.runs) (hrun : d.run ≠ none) (n : Int) : Dig.runs { d with coast := n } :=
  ⟨h.run, fun h0 => absurd h0 hrun, h.serving, h.unknown, h.position, h.waits, h.eval, h.settings⟩

/-- A tie wait ended. -/
theorem Dig.runs.withoutWait {d : Dig} (h : d.runs) : Dig.runs { d with wait := none } := by
  refine ⟨fun c hc => ?_, fun h0 => ?_, h.serving, h.unknown, h.position, fun w hw => (nomatch hw), h.eval, h.settings⟩
  · obtain ⟨h1, h2, h3, h4, -, h6⟩ := h.run c hc
    exact ⟨h1, h2, h3, h4, fun w hw => (nomatch hw), h6⟩
  · obtain ⟨h1, h2, -, h4, h5⟩ := h.idle h0
    exact ⟨h1, h2, rfl, h4, h5⟩

/-- A position within its bounds, while the chainage is known. -/
theorem Dig.runs.withPosition {d : Dig} (h : d.runs) (hknown : d.known = true) {p : Int} (hp : -Config.positionLimit ≤ p ∧ p ≤ Config.positionLimit) :
    Dig.runs { d with position := p } :=
  ⟨h.run, h.idle, h.serving, fun h0 => (nomatch hknown.symm.trans h0), hp, h.waits, h.eval, h.settings⟩

/-- F moved on a run that has one. -/
theorem Dig.runs.withFurthest {d : Dig} (h : d.runs) (hf : ∀ c, d.run = some c → c.furthest.isSome = true) (f : Int) :
    Dig.runs { d with run := d.run.map (fun c => { c with furthest := some f }) } := by
  refine ⟨fun c hc => ?_, fun h0 => h.idle (Option.map_eq_none_iff.mp h0), h.serving, h.unknown, h.position, h.waits, h.eval, h.settings⟩
  obtain ⟨c', hc', rfl⟩ := Option.map_eq_some_iff.mp hc
  obtain ⟨h1, h2, h3, h4, h5, h6⟩ := h.run c' hc'
  exact ⟨h1, h2, ⟨fun _ => h3.mp (hf c' hc'), fun _ => rfl⟩, h4, h5, h6⟩

/-- F is set while the run digs or stands stopped. -/
theorem Dig.runs.furthest {d : Dig} (h : d.runs) {c : RunCore} (hc : d.run = some c) (hknown : d.known = true) : c.furthest.isSome = true := by
  obtain ⟨h1, -, h3, -⟩ := h.run c hc
  refine h3.mpr (fun ha => ?_)
  rw [h1, RunCore.knows, ha] at hknown
  cases hknown

end Sys2Proof.Machine
end

section
/-! PROOF. The law of the dig under the operations of the run controller, the chainage unit and the evaluator (06, 07, 08). -/
namespace Sys2Proof.Machine

/-! ## Operations that keep the law -/

/-- F of the view. -/
def Dig.furthest? (d : Dig) : Option Int := d.run.bind (fun c => c.furthest)

theorem Dig.furthest?_change (d : Dig) (r : RunState) : (d.change r).furthest? = d.furthest? := by
  show (d.run.map _).bind _ = d.run.bind _
  cases d.run <;> rfl

/-- The law is kept, and unless the run has ended the position stands: what the operations of a walk do with the view. -/
structure State.digsInto (s t : State) : Prop where
  settings : t.settings = s.settings
  runs : s.dig.runs → t.dig.runs
  idle : s.dig.run = none → t.dig.run = none
  place : t.dig.run = none ∨ (t.dig.position = s.dig.position ∧ t.dig.known = s.dig.known)

theorem State.digsInto_of_eq {s t : State} (h : t.dig = s.dig) : s.digsInto t := by
  refine ⟨congrArg Dig.settings h, fun hs => ?_, fun hn => ?_, .inr ⟨?_, ?_⟩⟩
  · rw [h]; exact hs
  · rw [h]; exact hn
  · rw [h]
  · rw [h]

theorem State.digsInto_refl (s : State) : s.digsInto s := State.digsInto_of_eq rfl

theorem State.digsInto.trans {s t u : State} (h : s.digsInto t) (h' : t.digsInto u) : s.digsInto u := by
  refine ⟨h'.settings.trans h.settings, fun hs => h'.runs (h.runs hs), fun hn => h'.idle (h.idle hn), ?_⟩
  rcases h'.place with hn | ⟨hp', hk'⟩
  · exact .inl hn
  · rcases h.place with hn | ⟨hp, hk⟩
    · exact .inl (h'.idle hn)
    · exact .inr ⟨hp'.trans hp, hk'.trans hk⟩

/-- The law is kept as by the operations of a walk, F stands, and a run that digs has been digging: what leaves F where it is. -/
structure State.digsStill (s t : State) : Prop where
  into : s.digsInto t
  furthest : ∀ f, t.dig.furthest? = some f → s.dig.furthest? = some f
  digging : t.dig.digging → s.dig.digging

theorem State.digsStill_of_eq {s t : State} (h : t.dig = s.dig) : s.digsStill t :=
  ⟨State.digsInto_of_eq h, fun f hf => by rwa [h] at hf, fun hd => by rwa [h] at hd⟩

theorem State.digsStill_refl (s : State) : s.digsStill s := State.digsStill_of_eq rfl

theorem State.digsStill.trans {s t u : State} (h : s.digsStill t) (h' : t.digsStill u) : s.digsStill u :=
  ⟨h.into.trans h'.into, fun f hf => h.furthest f (h'.furthest f hf), fun hd => h.digging (h'.digging hd)⟩

theorem State.digsStill.raise {s t : State} (h : s.digsStill t) (e : EventKind) : s.digsStill (t.raise e) :=
  h.trans (State.digsStill_of_eq (State.dig_raise t e))

theorem State.digsInto.raise {s t : State} (h : s.digsInto t) (e : EventKind) : s.digsInto (t.raise e) :=
  h.trans (State.digsInto_of_eq (State.dig_raise t e))

theorem State.digsStill_if {s t : State} {c : Prop} [Decidable c] (h : c → s.digsStill t) : s.digsStill (if c then t else s) := by
  split
  · rename_i hc
    exact h hc
  · exact State.digsStill_refl s

/-- A run that digs stops, or coasts. -/
theorem State.digsStill_stop {s : State} (hd : s.dig.digging) {r : RunState} (hr : r.isStopped = true ∨ r = .coasting) :
    s.digsStill (s.changeRun r) := by
  refine ⟨⟨State.changeRun_settings s r, fun hs => ?_, fun hn => ?_, .inr ?_⟩, fun f hf => ?_, fun _ => hd⟩
  · rw [State.dig_changeRun]
    exact hs.stop hd hr
  · rw [State.dig_changeRun]
    exact Option.map_eq_none_iff.mpr hn
  · rw [State.dig_changeRun]
    exact ⟨rfl, rfl⟩
  · rwa [State.dig_changeRun, Dig.furthest?_change] at hf

theorem Dig.digging_change {d : Dig} {r : RunState} (hr : r = .cutting ∨ r = .coasting) (h : d.run ≠ none) : (d.change r).digging := by
  obtain ⟨c, hc⟩ := Option.ne_none_iff_exists'.mp h
  exact ⟨{ c with state := r }, by show d.run.map _ = _; rw [hc]; rfl, hr⟩

theorem State.runState?_cutting {s : State} (h : (s.runState? == some .cutting) = true) : ∃ c, s.dig.run = some c ∧ c.state = .cutting := by
  rw [beq_iff_eq, State.runState?_dig, Option.map_eq_some_iff] at h
  exact h

theorem State.digsStill_haltDigging (s : State) (h : HaltReason) : s.digsStill (s.haltDigging h) :=
  State.digsStill_if (fun hd => State.digsStill_stop (State.digging_dig.mp hd) (.inl rfl))

theorem State.digsStill_suspendDigging (s : State) (r : SuspendReason) : s.digsStill (s.suspendDigging r) :=
  State.digsStill_if (fun hd => State.digsStill_stop (State.digging_dig.mp hd) (.inl rfl))

theorem State.digsStill_haltGrade (s : State) : s.digsStill s.haltGrade := by
  refine State.digsStill_if (fun hd => State.digsStill_stop ?_ (.inl rfl))
  obtain ⟨c, hc, hs⟩ := State.runState?_cutting hd
  exact ⟨c, hc, .inl hs⟩

theorem State.digsStill_coast {s : State} (hrun : s.dig.run ≠ none) (f : RunUnit → RunUnit)
    (hf : (f s.run).timer = s.run.timer ∧ (f s.run).wait = s.run.wait) : s.digsStill (s.updRunUnit f) := by
  have h : (s.updRunUnit f).dig = { s.dig with coast := (f s.run).coast } := by
    show ({ s.dig with timer := (f s.run).timer, wait := (f s.run).wait, coast := (f s.run).coast } : Dig) = _
    rw [hf.1, hf.2]
    rfl
  refine ⟨⟨rfl, fun hs => ?_, fun hn => hn, .inr ⟨rfl, rfl⟩⟩, fun f hf => hf, fun hd => hd⟩
  rw [h]
  exact hs.withCoast hrun _

theorem State.digsStill_enterCoasting {s : State} (hd : s.dig.digging) : s.digsStill s.enterCoasting := by
  have hrun : s.dig.run ≠ none := by
    obtain ⟨c, hc, -⟩ := hd
    exact hc ▸ Option.some_ne_none c
  have h1 := State.digsStill_coast hrun (fun u => { u with coast := 0 }) ⟨rfl, rfl⟩
  have h2 := h1.trans (State.digsStill_stop (s := s.updRunUnit (fun u => { u with coast := 0 })) (r := .coasting) hd (.inr rfl))
  unfold State.enterCoasting
  dsimp only
  split
  · refine h2.trans (State.digsStill_stop ?_ (.inl rfl))
    rw [State.dig_changeRun]
    exact Dig.digging_change (.inr rfl) hrun
  · exact h2

/-! ## The serving span (R134, R135) -/

theorem State.digsStill_setServing {s : State} (hknown : s.chain.known = true) (k : Nat) : s.digsStill (s.setServing (some k)) := by
  refine ⟨⟨rfl, fun hs => ?_, fun hn => hn, .inr ⟨rfl, rfl⟩⟩, fun f hf => hf, fun hd => hd⟩
  have hrun : s.dig.run ≠ none := fun hn => nomatch (hs.idle hn).1.symm.trans hknown
  have hserving : s.eval.serving.isSome = true := hs.serving.trans hknown
  refine hs.withEval (e := { s.eval with serving := some k, reference := none }) hserving.symm hs.eval (fun h0 c hc => ?_) hrun
  exact (hs.run c hc).2.2.2.2.2 h0

theorem State.digsStill_afterSwitch (s : State) : s.digsStill s.afterSwitch := by
  unfold State.afterSwitch
  split
  · rename_i hcut
    obtain ⟨c, hc, hs⟩ := State.runState?_cutting hcut
    split
    · exact ⟨⟨rfl, fun h => h.withTimer hc hs _, fun hn => hn, .inr ⟨rfl, rfl⟩⟩, fun f hf => hf, fun hd => hd⟩
    · exact State.digsStill_enterCoasting ⟨c, hc, .inl hs⟩
  · exact State.digsStill_refl s

theorem State.digsStill_moveServing (s : State) (held : Option StationId) : s.digsStill (s.moveServing held) := by
  unfold State.moveServing
  split
  · rename_i hknown
    dsimp only
    split
    · exact State.digsStill_refl s
    · exact (State.digsStill_setServing hknown _).trans (State.digsStill_afterSwitch _)
  · rename_i hknown
    split
    · rename_i hserving
      refine ⟨⟨rfl, fun hs => ?_, fun hn => hn, .inr ⟨rfl, rfl⟩⟩, fun f hf => hf, fun hd => hd⟩
      exact absurd (hs.serving.symm.trans hserving) hknown
    · exact State.digsStill_refl s

/-! ## The staged revision (R156 to R158) -/

theorem State.dig_applied (s : State) (l : Line) (st : Staged) (marks : Line → Bool) :
    ((((s.proceedChecks.updActive (fun l => l.applied st)).reach (.parent l.id)).discardCheck l.id).markLines marks).dig = s.dig := by
  rw [State.dig_markLines, State.dig_discardCheck, State.dig_reach]
  exact State.dig_updActive (s := s.proceedChecks) (fun k => by rw [Line.applied_run?])

theorem State.digsStill_applyStaged (s : State) (l : Line) (st : Staged) : s.digsStill (s.applyStaged l st) := by
  unfold State.applyStaged
  dsimp only
  refine State.digsStill.raise (State.digsStill.trans (State.digsStill_of_eq ?_) (State.digsStill_moveServing _ _)) _
  rw [State.dig_fitToLength]
  exact State.dig_applied s l st _

theorem State.digsStill_applyOrDrop (s : State) (l : Line) (st : Staged) : s.digsStill (s.applyOrDrop l st) := by
  unfold State.applyOrDrop
  split
  · exact State.digsStill_applyStaged s l st
  · exact State.digsStill_of_eq (State.dig_dropStaged s l _)

/-! ## The walk (R102) -/

/-- A run that is under way knows its chainage. -/
def Dig.onCourse (d : Dig) : Prop := d.run = none ∨ d.known = true

theorem State.digsInto.onCourse {s t : State} (h : s.digsInto t) (hs : s.dig.onCourse) : t.dig.onCourse := by
  rcases h.place with hn | ⟨-, hk⟩
  · exact .inl hn
  · rcases hs with hn | hk'
    · exact .inl (h.idle hn)
    · exact .inr (hk.trans hk')

theorem State.digsInto_setFurthest {s : State} (hs : s.dig.onCourse) (f : Int) : s.digsInto (s.setFurthest f) := by
  refine ⟨rfl, fun hruns => ?_, fun hn => ?_, .inr ⟨rfl, rfl⟩⟩
  · rw [State.dig_setFurthest]
    refine hruns.withFurthest (fun c hc => hruns.furthest hc ?_) f
    rcases hs with hn | hk
    · cases hn.symm.trans hc
    · exact hk
  · rw [State.dig_setFurthest]
    exact Option.map_eq_none_iff.mpr hn

theorem State.digsInto_cross {s : State} (hs : s.dig.onCourse) (k : Nat) (c : Int) : s.digsInto (s.cross k c) := by
  have h1 : s.digsInto ((s.setFurthest c).enterSegment k) :=
    (State.digsInto_setFurthest hs c).trans (State.digsInto_of_eq (State.dig_enterSegment _ k))
  unfold State.cross
  dsimp only
  split
  · split
    · exact h1.trans (State.digsStill_applyOrDrop _ _ _).into
    · exact h1.raise _
  · exact h1

theorem State.digsInto_actMark (s : State) (m : Option Mark) : s.digsInto (s.actMark m) := by
  have h1 : s.digsInto (s.raise .mark) := (State.digsInto_refl s).raise _
  unfold State.actMark
  dsimp only
  split
  · exact h1.trans (State.digsStill_suspendDigging _ _).into
  · exact h1

theorem State.digsInto_meetMark1 {s : State} (hs : s.dig.onCourse) (c : Int) : s.digsInto (s.meetMark1 c) :=
  ((State.digsInto_setFurthest hs c).trans (State.digsInto_actMark _ _)).trans (State.digsInto_of_eq (State.dig_updRun_core (fun _ => rfl)))

theorem State.digsInto_meetMark2 {s : State} (hs : s.dig.onCourse) (c : Int) : s.digsInto (s.meetMark2 c) :=
  ((State.digsInto_setFurthest hs c).trans (State.digsInto_actMark _ _)).trans (State.digsInto_of_eq (State.dig_updRun_core (fun _ => rfl)))

theorem State.dig_complete (s : State) (l : Line) : (s.complete l).dig = Dig.idle s.settings := by
  unfold State.complete
  dsimp only
  rw [State.dig_noteDropIf, State.dig_raise, State.dig_leaveActive _ (by simp [Lifecycle.kind])]
  split <;> rfl

/-- A line that leaves ACTIVE ends the run. -/
theorem State.digsInto_of_idle {s t : State} (h : t.dig = Dig.idle s.settings) : s.digsInto t := by
  refine ⟨congrArg Dig.settings h, fun hs => ?_, fun _ => ?_, .inl ?_⟩
  · rw [h]
    exact Dig.runs_idle hs.settings
  · rw [h]
    rfl
  · rw [h]
    rfl

theorem State.digsInto_meet {s : State} (hs : s.dig.onCourse) (m : Meeting) : s.digsInto (s.meet m) := by
  unfold State.meet
  split
  · exact State.digsInto_cross hs _ _
  · exact State.digsInto_meetMark1 hs _
  · exact State.digsInto_meetMark2 hs _
  · exact State.digsInto_of_eq (State.dig_warnEnd s)
  · split
    · exact State.digsInto_of_idle (State.dig_complete s _)
    · exact State.digsInto_refl s

theorem State.digsInto_walk (n : Nat) {s : State} (hs : s.dig.onCourse) (last : Meeting) (changedAt : Option Int) (new : Int) :
    s.digsInto (s.walk n last changedAt new) := by
  induction n generalizing s last changedAt with
  | zero => exact State.digsInto_refl s
  | succ n ih =>
    unfold State.walk
    split
    · exact State.digsInto_refl s
    · have h := State.digsInto_meet hs
      exact (h _).trans (ih ((h _).onCourse hs) _ _)

theorem State.dig_warnLate (s : State) (old : Int) : (s.warnLate old).dig = s.dig := by
  unfold State.warnLate
  split
  · rfl
  · split <;> rfl

theorem State.digsInto_addCoast (s : State) (d : Int) (hrun : s.dig.run ≠ none) : s.digsInto (s.addCoast d) := by
  have h1 := State.digsStill_coast (s := s) hrun (fun u => { u with coast := u.coast + d }) ⟨rfl, rfl⟩
  unfold State.addCoast
  dsimp only
  split
  · rename_i hc
    refine h1.into.trans (State.digsStill_stop ?_ (.inl rfl)).into
    rw [Bool.and_eq_true, beq_iff_eq, State.runState?_dig, Option.map_eq_some_iff] at hc
    obtain ⟨⟨c, hc, hs⟩, -⟩ := hc
    exact ⟨c, hc, .inr hs⟩
  · exact h1.into

theorem State.furthest?_addCoast (s : State) (d : Int) : (s.addCoast d).dig.furthest? = s.dig.furthest? := by
  unfold State.addCoast
  dsimp only
  split
  · rw [State.dig_changeRun, Dig.furthest?_change]
    rfl
  · rfl

theorem State.context?_of_active {s : State} {l : Line} (h : s.active? = some l) : s.dig.run ≠ none := by
  obtain ⟨-, hact⟩ := State.active?_mem h
  rw [Line.isActive_run] at hact
  obtain ⟨r, hr⟩ := Option.isSome_iff_exists.mp hact
  show s.context?.map _ ≠ none
  rw [State.context?_of h hr]
  exact Option.some_ne_none _

theorem State.active?_of_run {s : State} (h : s.dig.run ≠ none) : ∃ l, s.active? = some l := by
  refine Option.ne_none_iff_exists'.mp (fun hn => h ?_)
  show s.context?.map _ = none
  rw [State.context?, hn]
  rfl

/-- The new F handed on: the law is kept, and F is the new chainage unless the run has ended (R100, R125). -/
theorem State.digsInto_handOn {s : State} (hs : s.dig.onCourse) (old new : Int) (coasting : Bool) :
    s.digsInto (s.handOn old new coasting) ∧ ∀ f, (s.handOn old new coasting).dig.furthest? = some f → f = new := by
  unfold State.handOn
  split
  · rename_i hn
    refine ⟨State.digsInto_refl s, fun f hf => ?_⟩
    have : s.dig.run = none := by
      show s.context?.map _ = none
      rw [State.context?, hn]
      rfl
    rw [Dig.furthest?, this] at hf
    cases hf
  · rename_i l hl
    have hrun := State.context?_of_active hl
    have h1 := State.digsInto_setFurthest hs new
    have hf1 : (s.setFurthest new).dig.furthest? = some new := by
      obtain ⟨c, hc⟩ := Option.ne_none_iff_exists'.mp hrun
      rw [State.dig_setFurthest, Dig.furthest?, hc]
      rfl
    have hrun1 : ((s.setFurthest new).accrueCoast old new).dig.run ≠ none := by
      rw [State.dig_accrueCoast, State.dig_setFurthest]
      exact fun hn => hrun (Option.map_eq_none_iff.mp hn)
    dsimp only
    split
    · refine ⟨((h1.trans (State.digsInto_of_eq (State.dig_accrueCoast ..))).trans (State.digsInto_addCoast _ _ hrun1)).trans
        (State.digsInto_of_eq (State.dig_closePassed ..)), fun f hf => ?_⟩
      rw [State.dig_closePassed, State.furthest?_addCoast, State.dig_accrueCoast, hf1] at hf
      exact (Option.some.inj hf).symm
    · refine ⟨h1.trans (State.digsInto_of_eq (State.dig_closePassed ..)), fun f hf => ?_⟩
      rw [State.dig_closePassed, hf1] at hf
      exact (Option.some.inj hf).symm

/-- An advance of F: the law is kept, and F is the new chainage unless the run has ended (R100). -/
theorem State.digsInto_advance {s : State} (hs : s.dig.onCourse) {old : Int} (hf : s.furthest? = some old) (new : Int) (coasting : Bool) :
    s.digsInto (s.advance new coasting) ∧ ∀ f, (s.advance new coasting).dig.furthest? = some f → f = new := by
  unfold State.advance
  rw [hf]
  have h1 := State.digsInto_of_eq (State.dig_warnLate s old)
  have h2 := h1.trans (State.digsInto_walk (s.warnLate old).walkFuel (h1.onCourse hs) { chainage := old, kind := .completion } none new)
  obtain ⟨h3, hf3⟩ := State.digsInto_handOn (h2.onCourse hs) old new coasting
  exact ⟨h2.trans h3, hf3⟩

/-! ## F at the chainage (R100, R126) -/

theorem Settings.law.backup {t : Settings} (h : t.law) : 0 ≤ t.backup ∧ t.backup ≤ 5000 := h .backup (by decide) _ rfl

theorem Dig.furthest?_eq {d : Dig} {c : RunCore} {f : Int} (hc : d.run = some c) (hf : c.furthest = some f) : d.furthest? = some f := by
  rw [Dig.furthest?, hc]
  exact hf

theorem tdiv_bounds {p : Int} (h : -Config.positionLimit ≤ p ∧ p ≤ Config.positionLimit) :
    -2400000 ≤ Int.tdiv p 1000 ∧ Int.tdiv p 1000 ≤ 2400000 := by
  have hl : Config.positionLimit = 2400000000 := rfl
  obtain ⟨h1, h2⟩ := h
  rw [hl] at h1 h2
  rw [Int.tdiv_eq_ediv]
  split
  · omega
  · rw [show Int.sign 1000 = 1 from rfl]
    omega

/-- With F at the chainage, not below 0, the chainage is not less than F − BACKUP. -/
theorem Dig.runs.reaches_chainage {d : Dig} (h : d.runs) (hf : ∀ f, d.furthest? = some f → 0 ≤ f ∧ f = Int.tdiv d.position 1000) :
    d.reaches := by
  intro c f hc hcf
  obtain ⟨h0, he⟩ := hf f (Dig.furthest?_eq hc hcf)
  obtain ⟨-, hmax⟩ := tdiv_bounds h.position
  have := (Settings.law.backup h.settings).1
  exact ⟨h0, by omega, fun _ => by omega⟩

/-- An advance of F to the chainage, from an F that is not below 0, keeps the law of the dig. -/
theorem State.reaches_advance {s : State} (hruns : s.dig.runs) (hs : s.dig.onCourse) {old : Int} (hf : s.furthest? = some old) (h0 : 0 ≤ old)
    (hlt : old < s.chainage) (coasting : Bool) : (s.advance s.chainage coasting).dig.runs ∧ (s.advance s.chainage coasting).dig.reaches := by
  obtain ⟨hinto, hnew⟩ := State.digsInto_advance hs hf s.chainage coasting
  have hruns' := hinto.runs hruns
  refine ⟨hruns', hruns'.reaches_chainage (fun f hf' => ?_)⟩
  have he := hnew f hf'
  refine ⟨by omega, he.trans ?_⟩
  rcases hinto.place with hn | ⟨hp, -⟩
  · rw [Dig.furthest?, hn] at hf'
    cases hf'
  · rw [hp]
    rfl

end Sys2Proof.Machine
end

section
/-! PROOF. The law of the dig under counts, strikes and the tie waits (06, 07, 08). -/
namespace Sys2Proof.Machine

/-! ## The law and what leaves F -/

/-- F lies in its range (R100). -/
def Dig.inRange (d : Dig) : Prop := ∀ f, d.furthest? = some f → 0 ≤ f ∧ f ≤ 2400000

/-- While digging the chainage is not less than F − BACKUP (R126). -/
def Dig.holdsBack (d : Dig) : Prop := d.digging → ∀ f, d.furthest? = some f → f - d.settings.backup ≤ Int.tdiv d.position 1000

theorem Dig.furthest?_some {d : Dig} {f : Int} : d.furthest? = some f ↔ ∃ c, d.run = some c ∧ c.furthest = some f := by
  rw [Dig.furthest?, Option.bind_eq_some_iff]

theorem Dig.reaches_iff {d : Dig} : d.reaches ↔ d.inRange ∧ d.holdsBack := by
  constructor
  · intro h
    refine ⟨fun f hf => ?_, ?_⟩
    · obtain ⟨c, hc, hcf⟩ := Dig.furthest?_some.mp hf
      exact ⟨(h c f hc hcf).1, (h c f hc hcf).2.1⟩
    · rintro ⟨c, hc, hstate⟩ f hf
      obtain ⟨c', hc', hcf⟩ := Dig.furthest?_some.mp hf
      cases hc.symm.trans hc'
      exact (h c f hc hcf).2.2 hstate
  · rintro ⟨hrange, hback⟩ c f hc hcf
    have hf := Dig.furthest?_eq hc hcf
    exact ⟨(hrange f hf).1, (hrange f hf).2, fun hstate => hback ⟨c, hc, hstate⟩ f hf⟩

/-- The law of the dig, on its view. -/
def Dig.law (d : Dig) : Prop := d.runs ∧ d.inRange ∧ d.holdsBack

theorem Dig.law_iff {d : Dig} : d.law ↔ d.runs ∧ d.reaches := and_congr_right' Dig.reaches_iff.symm

theorem Dig.inRange_of_none {d : Dig} (h : d.run = none) : d.inRange ∧ d.holdsBack := by
  have hf : d.furthest? = none := by
    rw [Dig.furthest?, h]
    rfl
  exact ⟨fun f h' => (nomatch hf.symm.trans h'), fun _ f h' => (nomatch hf.symm.trans h')⟩

theorem Dig.holdsBack_of_not_digging {d : Dig} (h : ¬d.digging) : d.holdsBack := fun hd => absurd hd h

theorem State.digsStill.inRange {s t : State} (h : s.digsStill t) (hs : s.dig.inRange) : t.dig.inRange := fun f hf => hs f (h.furthest f hf)

theorem State.digsStill.holdsBack {s t : State} (h : s.digsStill t) (hs : s.dig.holdsBack) : t.dig.holdsBack := by
  intro hd f hf
  have hb := hs (h.digging hd) f (h.furthest f hf)
  obtain ⟨c, hc, -⟩ := hd
  rcases h.into.place with hn | ⟨hp, -⟩
  · cases hn.symm.trans hc
  · rwa [hp, show t.dig.settings = s.dig.settings from h.into.settings]

theorem State.digsStill.law {s t : State} (h : s.digsStill t) (hs : s.dig.law) : t.dig.law := by
  obtain ⟨hruns, hrange, hback⟩ := hs
  exact ⟨h.into.runs hruns, h.inRange hrange, h.holdsBack hback⟩

theorem Dig.law_idle {t : Settings} (ht : t.law) : (Dig.idle t).law := ⟨Dig.runs_idle ht, Dig.inRange_of_none rfl⟩

/-! ## A count (R97, R98, R101) -/

/-- The test of R126 leaves no run digging behind F − BACKUP. -/
theorem State.holdsBack_backtrackTest (s : State) : s.backtrackTest.dig.holdsBack := by
  unfold State.backtrackTest
  split
  · rename_i hf
    rw [State.furthest?_dig] at hf
    exact fun _ f hf' => (nomatch hf.symm.trans hf')
  · rename_i f hf
    rw [State.furthest?_dig] at hf
    split
    · unfold State.haltDigging
      split
      · refine Dig.holdsBack_of_not_digging ?_
        rintro ⟨c, hc, hstate⟩
        rw [State.dig_changeRun] at hc
        obtain ⟨c', -, rfl⟩ := Option.map_eq_some_iff.mp hc
        rcases hstate with h | h <;> cases h
      · rename_i hnd
        exact Dig.holdsBack_of_not_digging (fun hd => hnd (State.digging_dig.mpr hd))
    · rename_i hlt
      intro _ g hg
      cases hf.symm.trans hg
      rw [decide_eq_true_iff, not_lt] at hlt
      exact hlt

theorem State.digsStill_backtrackTest (s : State) : s.digsStill s.backtrackTest := by
  unfold State.backtrackTest
  split
  · exact State.digsStill_refl s
  · exact State.digsStill_if (fun _ => State.digsStill_haltDigging s _)

/-- A new chainage handed on keeps the law, but that the chainage before it may have been less than F − BACKUP. -/
theorem State.dig_law_handChainage {s : State} (hruns : s.dig.runs) (hrange : s.dig.inRange) (hknown : s.dig.known = true)
    (wasDigging wasCoasting : Bool) : (s.handChainage wasDigging wasCoasting).dig.law := by
  have hmove := State.digsStill_moveServing s.backtrackTest s.servingStation?
  have hstill := (State.digsStill_backtrackTest s).trans hmove
  have hruns' := hstill.into.runs hruns
  have hrange' := hstill.inRange hrange
  have hlaw : (s.backtrackTest.moveServing s.servingStation?).dig.law :=
    ⟨hruns', hrange', hmove.holdsBack (State.holdsBack_backtrackTest s)⟩
  unfold State.handChainage
  dsimp only
  split
  · exact hlaw
  · rename_i f hf
    split
    · rename_i hgo
      rw [Bool.and_eq_true, decide_eq_true_iff] at hgo
      have h0 := (hrange' f (by rwa [State.furthest?_dig] at hf)).1
      exact Dig.law_iff.mpr (State.reaches_advance hruns' (hstill.into.onCourse (.inr hknown)) hf h0 hgo.2 _)
    · exact hlaw

theorem State.dig_law_count {s : State} (h : s.dig.law) (forward : Bool) : (s.count forward).dig.law := by
  obtain ⟨hruns, hrange, hback⟩ := h
  unfold State.count
  dsimp only
  split
  · rename_i hgo
    rw [Bool.and_eq_true, decide_eq_true_iff] at hgo
    obtain ⟨hknown, hp⟩ := hgo
    have hruns' := hruns.withPosition hknown hp
    split
    · rename_i hsame
      refine ⟨hruns', hrange, fun hd f hf => ?_⟩
      have hb := hback hd f hf
      rw [show Int.tdiv s.dig.position 1000 = _ from hsame.symm] at hb
      exact hb
    · exact State.dig_law_handChainage (s := s.updChain (fun k => { k with position := s.chain.position + s.countLength forward })) hruns' hrange
        hknown _ _
  · exact ⟨hruns, hrange, hback⟩

theorem State.dig_law_validTransition {s : State} (h : s.dig.law) (ch : Channel) : (s.validTransition ch).dig.law := by
  have h' : (s.takeLevels (changeChannel s.chain.levels ch)).dig.law := h
  unfold State.validTransition State.applyCount
  dsimp only
  split
  · exact State.dig_law_count h' _
  · exact State.dig_law_count h' _
  · exact h'

/-! ## A strike handed to the evaluator (R39, R136) -/

/-- A change of the evaluator alone, of a run that cuts: the serving span is held as before, drive and count lie in their ranges. -/
theorem State.digsStill_updEval_cutting {s : State} {c : RunCore} (hc : s.dig.run = some c) (hstate : c.state = .cutting)
    (f : Evaluator → Evaluator) (hserving : (f s.eval).serving = s.eval.serving) (hlaw : s.eval.law → s.settings.law → (f s.eval).law) :
    s.digsStill (s.updEval f) := by
  refine ⟨⟨rfl, fun hs => ?_, fun hn => hn, .inr ⟨rfl, rfl⟩⟩, fun f hf => hf, fun hd => hd⟩
  refine hs.withEval (e := f s.eval) (congrArg Option.isSome hserving) (hlaw hs.eval hs.settings) (fun _ c' hc' => ?_)
    (fun hn => (nomatch hn.symm.trans hc))
  cases hc.symm.trans hc'
  exact hstate

theorem State.digsStill_setReference {s : State} (hknown : s.chain.known = true) (rd : Reading) : s.digsStill (s.setReference rd) := by
  unfold State.setReference
  split
  · refine ⟨⟨rfl, fun hs => ?_, fun hn => hn, .inr ⟨rfl, rfl⟩⟩, fun f hf => hf, fun hd => hd⟩
    have hrun : s.dig.run ≠ none := fun hn => (nomatch (hs.idle hn).1.symm.trans hknown)
    refine hs.withEval (e := { s.eval with reference := _ }) rfl hs.eval (fun h0 c hc => ?_) hrun
    obtain ⟨-, -, -, -, -, hdrive⟩ := hs.run c hc
    exact hdrive h0
  · exact State.digsStill_refl s

theorem Evaluator.law_graded {e : Evaluator} (h : e.law) {n : Nat} (hn : n ≤ Config.gradeCountTop) (flag : Bool) :
    Evaluator.law { e with gradeCount := n, gradeFlag := flag } := by
  obtain ⟨hlow, hhigh, -⟩ := h
  exact ⟨hlow, hhigh, hn⟩

/-- The grade count and flag take new values, and GRADE may be raised (R142). -/
theorem State.updateGrade_eq (s : State) (out : Bool) : ∃ (n : Nat) (flag : Bool), n ≤ Config.gradeCountTop
    ∧ (s.updateGrade out = s.updEval (fun e => { e with gradeCount := n, gradeFlag := flag })
      ∨ s.updateGrade out = (s.updEval (fun e => { e with gradeCount := n, gradeFlag := flag })).raise .grade) := by
  have hn : (if out then min Config.gradeCountTop (s.eval.gradeCount + 1) else 0) ≤ Config.gradeCountTop := by
    split
    · exact Nat.min_le_left _ _
    · exact Nat.zero_le _
  by_cases h : (decide (s.settings.gradeCount ≤ ((if out then min Config.gradeCountTop (s.eval.gradeCount + 1) else 0 : Nat) : Int))
      && !(out && s.eval.gradeFlag)) = true
  · exact ⟨_, true, hn, .inr (if_pos h)⟩
  · exact ⟨_, out && s.eval.gradeFlag, hn, .inl (if_neg h)⟩

theorem State.digsStill_updateGrade {s : State} {c : RunCore} (hc : s.dig.run = some c) (hstate : c.state = .cutting) (out : Bool) :
    s.digsStill (s.updateGrade out) := by
  obtain ⟨n, flag, hn, h⟩ := s.updateGrade_eq out
  have h1 : s.digsStill (s.updEval (fun e => { e with gradeCount := n, gradeFlag := flag })) :=
    State.digsStill_updEval_cutting hc hstate _ rfl (fun he _ => Evaluator.law_graded he hn _)
  rcases h with h | h <;> rw [h]
  · exact h1
  · exact h1.raise _

theorem State.updateGrade_run (s : State) (out : Bool) :
    (s.updateGrade out).dig.run = s.dig.run ∧ (s.updateGrade out).chain = s.chain := by
  obtain ⟨n, flag, -, h⟩ := s.updateGrade_eq out
  rcases h with h | h <;> rw [h] <;> exact ⟨rfl, rfl⟩

theorem demand_bounds (t : Settings) (rd : Reading) (err : Int) : -1000 ≤ demand t rd err ∧ demand t rd err ≤ 1000 := by
  unfold demand
  split
  · decide
  · decide
  · split
    · decide
    · unfold clamp
      omega

/-- The drive moves toward the demand and not beyond it. -/
theorem slewTo_bounds {slew level dem : Int} (hslew : 0 ≤ slew) (hl : -1000 ≤ level ∧ level ≤ 1000) (hd : -1000 ≤ dem ∧ dem ≤ 1000) :
    -1000 ≤ slewTo slew level dem ∧ slewTo slew level dem ≤ 1000 := by
  unfold slewTo
  split
  · exact hd
  · split <;> omega

theorem Settings.law.slew {t : Settings} (h : t.law) : 0 ≤ t.slew := by
  obtain ⟨hlow, -⟩ : 10 ≤ t.slew ∧ t.slew ≤ 1000 := h .slew (by decide) _ rfl
  omega

theorem State.digsStill_drive {s : State} {c : RunCore} (hc : s.dig.run = some c) (hstate : c.state = .cutting) (hknown : s.chain.known = true)
    (rd : Reading) (err : Option Int) : s.digsStill (s.drive rd err) := by
  unfold State.drive
  dsimp only
  refine State.digsStill.trans (State.digsStill_updEval_cutting hc hstate _ rfl (fun h ht => ?_)) (State.digsStill_setReference ?_ rd)
  rotate_left
  · exact hknown
  obtain ⟨hlow, hhigh, hcount⟩ := h
  obtain ⟨hlow', hhigh'⟩ := slewTo_bounds ht.slew ⟨hlow, hhigh⟩ (demand_bounds s.settings rd (err.getD 0))
  exact ⟨hlow', hhigh', hcount⟩

theorem State.digsStill_evaluate {s : State} {c : RunCore} (hc : s.dig.run = some c) (hstate : c.state = .cutting) (hknown : s.chain.known = true)
    (rd : Reading) : s.digsStill (s.evaluate rd) := by
  obtain ⟨hrun, hchain⟩ := State.updateGrade_run s (outOfTolerance s.settings (s.errorOf? rd))
  have h1 := (State.digsStill_updateGrade hc hstate (outOfTolerance s.settings (s.errorOf? rd))).trans
    (State.digsStill_of_eq (State.dig_accrue _ (s.errorOf? rd)))
  unfold State.evaluate
  dsimp only
  split
  · exact h1.trans (State.digsStill_haltGrade _)
  · refine h1.trans (State.digsStill_drive (c := c) ?_ hstate ?_ rd _)
    · rw [State.dig_accrue, hrun, hc]
    · rw [← hknown, ← hchain]
      rfl

theorem State.digsStill_compareHandoff (s : State) (rd : Reading) : s.digsStill (s.compareHandoff rd) := by
  unfold State.compareHandoff
  split
  · exact State.digsStill_if (fun _ => State.digsStill_haltDigging s _)
  · exact State.digsStill_refl s

theorem State.dig_endCoast (s : State) :
    s.endCoast.dig = { s.dig.change .cutting with timer := some (s.time + s.strikeTimeout) } := by
  show ({ (s.changeRun .cutting).dig with timer := some (s.time + s.strikeTimeout) } : Dig) = _
  rw [State.dig_changeRun]

/-- The end of a coast (R124). -/
theorem State.digsStill_endCoast {s : State} {c : RunCore} (hc : s.dig.run = some c) (hstate : c.state = .coasting) :
    s.digsStill s.endCoast := by
  have hdig : s.dig.digging := ⟨c, hc, .inr hstate⟩
  have hrun : s.endCoast.dig.run = some { c with state := .cutting } := by
    rw [State.dig_endCoast]
    show s.dig.run.map _ = _
    rw [hc]
    rfl
  refine ⟨⟨State.changeRun_settings s _, fun hs => ?_, fun hn => (nomatch hn.symm.trans hc), .inr ?_⟩, fun f hf => ?_, fun _ => hdig⟩
  · have hknown := hs.known_of_digging hdig
    have hretie := hs.not_retie hc (by rw [hstate]; rfl)
    have hf := hs.furthest hc hknown
    refine Dig.runs_cutting hrun rfl hretie hf ?_ ?_ ?_ ?_ ?_ ?_ ?_ <;>
      rw [State.dig_endCoast]
    · exact hknown
    · rfl
    · exact hs.no_wait hdig
    · exact hs.serving.trans hknown
    · exact hs.position
    · exact Evaluator.law_still hs.eval
    · exact hs.settings
  · rw [State.dig_endCoast]
    exact ⟨rfl, rfl⟩
  · rw [State.dig_endCoast] at hf
    exact (Dig.furthest?_change s.dig _).symm.trans hf

theorem State.dig_run_of_state {s : State} {r : RunState} (h : s.runState? = some r) : ∃ c, s.dig.run = some c ∧ c.state = r := by
  rwa [State.runState?_dig, Option.map_eq_some_iff] at h

/-- The evaluator's row for a strike (R39, R136): what each route supposes of the run. -/
theorem State.evalRoute_cases (s : State) (n : StationId) :
    s.evalRoute n = .nothing
      ∨ s.chain.known = true ∧ (s.evalRoute n = .evaluation ∧ s.runState? = some .cutting
        ∨ s.evalRoute n = .coastEnd ∧ s.runState? = some .coasting ∨ s.evalRoute n = .reference
        ∨ s.evalRoute n = .comparison ∧ s.digging = true) := by
  unfold State.evalRoute
  split
  · exact .inl rfl
  · rename_i hk
    have hk : s.chain.known = true := by simpa using hk
    split
    · split
      · exact .inr ⟨hk, .inl ⟨rfl, by assumption⟩⟩
      · split
        · exact .inr ⟨hk, .inr (.inl ⟨rfl, by assumption⟩)⟩
        · split
          · exact .inr ⟨hk, .inr (.inr (.inl rfl))⟩
          · exact .inl rfl
    · split
      · rename_i hc
        rw [Bool.and_eq_true, Bool.and_eq_true] at hc
        exact .inr ⟨hk, .inr (.inr (.inr ⟨rfl, hc.1.1⟩))⟩
      · exact .inl rfl

theorem State.digsStill_handEvaluator (s : State) (n : StationId) (rd : Reading) : s.digsStill (s.handEvaluator (s.evalRoute n) rd) := by
  rcases s.evalRoute_cases n with h | ⟨hk, ⟨h, hr⟩ | ⟨h, hr⟩ | h | ⟨h, -⟩⟩ <;> rw [h]
  · exact State.digsStill_refl s
  · obtain ⟨c, hc, hstate⟩ := State.dig_run_of_state hr
    refine State.digsStill.trans ?_ (State.digsStill_evaluate (s := s.startTimer (s.time + s.strikeTimeout)) hc hstate hk rd)
    exact ⟨⟨rfl, fun hs => hs.withTimer hc hstate _, fun hn => hn, .inr ⟨rfl, rfl⟩⟩, fun f hf => hf, fun hd => hd⟩
  · obtain ⟨c, hc, hstate⟩ := State.dig_run_of_state hr
    refine (State.digsStill_endCoast hc hstate).trans (State.digsStill_evaluate (c := { c with state := .cutting }) ?_ rfl ?_ rd)
    · rw [State.dig_endCoast]
      show s.dig.run.map _ = _
      rw [hc]
      rfl
    · rw [← hk]
      exact congrArg Dig.known s.dig_endCoast
  · exact State.digsStill_setReference hk rd
  · exact State.digsStill_compareHandoff s rd

/-- While the run does not dig the evaluator leaves the run. -/
theorem State.handEvaluator_run {s : State} (hd : s.digging = false) (n : StationId) (rd : Reading) :
    (s.handEvaluator (s.evalRoute n) rd).dig.run = s.dig.run := by
  rcases s.evalRoute_cases n with h | ⟨hk, ⟨h, hr⟩ | ⟨h, hr⟩ | h | ⟨h, hd'⟩⟩
  · rw [h]
    rfl
  · exact (nomatch hd.symm.trans (s.digging_iff.mpr (.inl hr)))
  · exact (nomatch hd.symm.trans (s.digging_iff.mpr (.inr hr)))
  · rw [h]
    show (s.setReference rd).dig.run = _
    unfold State.setReference
    split <;> rfl
  · exact (nomatch hd.symm.trans hd')

/-! ## The tie waits (R114 to R120) -/

/-- A tie wait ended. -/
theorem State.digsStill_endWait (s : State) : s.digsStill s.endWait :=
  ⟨⟨rfl, fun hs => hs.withoutWait, fun hn => hn, .inr ⟨rfl, rfl⟩⟩, fun _ hf => hf, fun hd => hd⟩

theorem State.dig_tieSucceeds (s : State) (l : Line) :
    (s.tieSucceeds l).dig = { s.dig with
      run := s.dig.run.map (fun c => { c with furthest := some 0, state := .cutting })
      known := true, position := 0, timer := some (s.time + s.strikeTimeout), eval := { Evaluator.reset with serving := some 0 } } := by
  have hwarn : ((s.updChain (fun k => { k with known := true, position := 0 })).warnAtTie l).dig = { s.dig with known := true, position := 0 } := by
    unfold State.warnAtTie
    dsimp only
    split <;> rfl
  unfold State.tieSucceeds
  dsimp only
  show ({ (State.changeRun _ .cutting).dig with
    timer := some (s.time + s.strikeTimeout), eval := { Evaluator.reset with serving := some 0 } } : Dig) = _
  rw [State.dig_changeRun, State.dig_enterSegment, State.dig_setFurthest, hwarn]
  simp only [Dig.change, Option.map_map, Function.comp_def]

/-- A successful TIE sets the law of the dig up: CUTTING, with F at the chainage 0. -/
theorem State.dig_law_tieSucceeds {s : State} (hs : s.dig.runs) {c : RunCore} (hc : s.dig.run = some c) (hstate : c.state = .armed)
    (hwait : s.dig.wait = none) (l : Line) : (s.tieSucceeds l).dig.law := by
  have hrun : (s.tieSucceeds l).dig.run = some { c with furthest := some 0, state := .cutting } := by
    rw [State.dig_tieSucceeds]
    show s.dig.run.map _ = _
    rw [hc]
    rfl
  have hretie := hs.not_retie hc (by rw [hstate]; rfl)
  have hruns : (s.tieSucceeds l).dig.runs := by
    refine Dig.runs_cutting hrun rfl hretie rfl ?_ ?_ ?_ ?_ ?_ ?_ ?_ <;> rw [State.dig_tieSucceeds]
    · rfl
    · exact hwait
    · rfl
    · exact show -Config.positionLimit ≤ 0 ∧ 0 ≤ Config.positionLimit by decide
    · exact show Evaluator.law { Evaluator.reset with serving := some 0 } by decide
    · exact hs.settings
  refine Dig.law_iff.mpr ⟨hruns, hruns.reaches_chainage (fun f hf => ?_)⟩
  obtain ⟨c', hc', hcf⟩ := Dig.furthest?_some.mp hf
  cases hrun.symm.trans hc'
  cases hcf
  rw [State.dig_tieSucceeds]
  exact ⟨le_refl _, rfl⟩

theorem State.dig_law_judgeTie {s : State} (hs : s.dig.law) {c : RunCore} (hc : s.dig.run = some c) (hstate : c.state = .armed)
    (hwait : s.dig.wait = none) (rd : Reading) : (s.judgeTie rd).dig.law := by
  have hreply : ∀ r, (s.reply .cab r).dig.law := fun r => by rwa [State.dig_reply]
  unfold State.judgeTie
  split
  · split
    · exact hreply _
    · split
      · dsimp only
        split
        · exact hreply _
        · rw [State.ok, State.dig_reply]
          exact State.dig_law_tieSucceeds hs.1 hc hstate hwait _
      · exact hreply _
  · exact hreply _

theorem State.dig_retied (s : State) (c : Int) :
    ((s.updChain (fun k => { k with known := true, position := c * 1000 })).updRun (fun r => { r with retie := false })).dig
      = { s.dig with run := s.dig.run.map (fun c => { c with retie := false }), known := true, position := c * 1000 } :=
  (State.dig_updRun (g := fun c => { c with retie := false }) (fun _ => rfl)).trans rfl

/-- The serving span worked out afresh while the run does not dig and the chainage is known. -/
theorem State.dig_moveServing_still {s : State} (hd : s.digging = false) (hknown : s.chain.known = true) (held : Option StationId) :
    ∃ k ref, (s.moveServing held).dig = { s.dig with eval := { s.eval with serving := some k, reference := ref } } := by
  unfold State.moveServing
  rw [if_pos hknown]
  dsimp only
  split
  · rename_i h
    refine ⟨spanIndex s.spanList s.chainage, s.eval.reference, ?_⟩
    rw [← h.1]
    rfl
  · refine ⟨spanIndex s.spanList s.chainage, none, ?_⟩
    unfold State.afterSwitch
    rw [if_neg]
    · rfl
    · intro hcut
      rw [beq_iff_eq] at hcut
      exact (nomatch hd.symm.trans (s.digging_iff.mpr (.inl hcut)))

/-- A successful RETIE (R99, R120): the run stays stopped, with the chainage known. -/
theorem State.dig_law_retieSucceeds {s : State} (hs : s.dig.law) {c : RunCore} (hc : s.dig.run = some c) (hstop : c.state.isStopped = true)
    (hwait : s.dig.wait = none) {m : Int} (hm : -2400000 ≤ m ∧ m ≤ 2400000) : (s.retieSucceeds m).dig.law := by
  obtain ⟨hruns, hrange, -⟩ := hs
  obtain ⟨-, -, hf, htimer, -, hdrive⟩ := hruns.run c hc
  have hne : c.state ≠ .armed ∧ c.state ≠ .cutting ∧ c.state ≠ .coasting := by
    refine ⟨?_, ?_, ?_⟩ <;> intro h0 <;> rw [h0] at hstop <;> cases hstop
  have hd : ((s.updChain (fun k => { k with known := true, position := m * 1000 })).updRun (fun r => { r with retie := false })).digging = false := by
    rw [← Bool.not_eq_true, State.digging_dig, State.dig_retied, hc]
    rintro ⟨c', hc', h | h⟩
    · cases hc'
      exact hne.2.1 h
    · cases hc'
      exact hne.2.2 h
  obtain ⟨k, ref, hdig⟩ := State.dig_moveServing_still hd rfl s.servingStation?
  rw [State.dig_retied, hc] at hdig
  show (State.moveServing _ _).dig.law
  rw [hdig]
  refine ⟨⟨fun c' hc' => ?_, fun h0 => (nomatch h0), rfl, fun h0 => (nomatch h0), ?_, fun w hw => (nomatch hwait.symm.trans hw), hruns.eval,
    hruns.settings⟩, fun f hf' => hrange f ?_, Dig.holdsBack_of_not_digging ?_⟩
  · cases hc'
    refine ⟨?_, fun h0 => (nomatch h0), hf, htimer, fun w hw => (nomatch hwait.symm.trans hw), hdrive⟩
    show true = RunCore.knows _
    rw [RunCore.knows, hstop]
    simp
  · have hl : Config.positionLimit = 2400000000 := rfl
    show -Config.positionLimit ≤ m * 1000 ∧ m * 1000 ≤ Config.positionLimit
    omega
  · obtain ⟨c', hc', hcf⟩ := Dig.furthest?_some.mp hf'
    cases hc'
    exact Dig.furthest?_eq hc hcf
  · rintro ⟨c', hc', h | h⟩
    · cases hc'
      exact hne.2.1 h
    · cases hc'
      exact hne.2.2 h

theorem State.dig_law_judgeRetie {s : State} (hs : s.dig.law) {c : RunCore} (hc : s.dig.run = some c) (hstop : c.state.isStopped = true)
    (hwait : s.dig.wait = none) {m : Int} (hm : -2400000 ≤ m ∧ m ≤ 2400000) (rd : Reading) : (s.judgeRetie m rd).dig.law := by
  have hreply : ∀ r, (s.reply .cab r).dig.law := fun r => by rwa [State.dig_reply]
  unfold State.judgeRetie
  split
  · split
    · dsimp only
      split
      · exact hreply _
      · rw [State.ok, State.dig_reply]
        exact State.dig_law_retieSucceeds hs hc hstop hwait hm
    · exact hreply _
  · exact hreply _

/-- The run in which a wait of each kind is under way does not dig. -/
theorem State.waitFor?_run {s : State} {n : StationId} {w : TieWait} (h : s.waitFor? n = some w) :
    ∃ c, s.dig.run = some c ∧ (w.kind = .tie ∧ c.state = .armed ∨ w.kind = .retie ∧ c.state.isStopped = true) := by
  obtain ⟨v, hv, hw⟩ := Option.bind_eq_some_iff.mp h
  split at hw
  · rename_i hcond
    cases hw
    rcases hcond.2 with ⟨hk, hr⟩ | ⟨hk, hr⟩
    · obtain ⟨c, hc, hstate⟩ := State.dig_run_of_state hr
      exact ⟨c, hc, .inl ⟨hk, hstate⟩⟩
    · unfold State.stopped at hr
      split at hr
      · rename_i hr'
        obtain ⟨c, hc, hstate⟩ := State.dig_run_of_state hr'
        exact ⟨c, hc, .inr ⟨hk, by rw [hstate]; rfl⟩⟩
      · rename_i hr'
        obtain ⟨c, hc, hstate⟩ := State.dig_run_of_state hr'
        exact ⟨c, hc, .inr ⟨hk, by rw [hstate]; rfl⟩⟩
      · cases hr
  · cases hw

theorem State.not_digging_of {s : State} {c : RunCore} (hc : s.dig.run = some c) (h : c.state = .armed ∨ c.state.isStopped = true) :
    s.digging = false := by
  rw [← Bool.not_eq_true, State.digging_dig]
  rintro ⟨c', hc', hd⟩
  cases hc.symm.trans hc'
  obtain ⟨hstop, harmed⟩ := RunState.not_stopped hd
  rcases h with h | h
  · exact harmed h
  · exact (nomatch hstop.symm.trans h)

theorem State.dig_law_judgeWait {s : State} (hs : s.dig.law) {c : RunCore} (hc : s.dig.run = some c) {w : TieWait}
    (hm : -2400000 ≤ w.chainage ∧ w.chainage ≤ 2400000)
    (hkind : w.kind = .tie ∧ c.state = .armed ∨ w.kind = .retie ∧ c.state.isStopped = true) (rd : Reading) : (s.judgeWait w rd).dig.law := by
  have he := (State.digsStill_endWait s).law hs
  unfold State.judgeWait
  rcases hkind with ⟨hk, hstate⟩ | ⟨hk, hstop⟩ <;> rw [hk]
  · exact State.dig_law_judgeTie he hc hstate rfl rd
  · exact State.dig_law_judgeRetie he hc hstop rfl hm rd

theorem State.dig_law_route {s : State} (hs : s.dig.law) (n : StationId) (rd : Reading) : (s.route n rd).dig.law := by
  have h1 := (State.digsStill_handEvaluator s n rd).law hs
  unfold State.route
  dsimp only
  split
  · rename_i w hw
    obtain ⟨c, hc, hkind⟩ := State.waitFor?_run hw
    have hd := State.not_digging_of hc (hkind.imp (fun h => h.2) (fun h => h.2))
    exact State.dig_law_judgeWait h1 ((State.handEvaluator_run hd n rd).trans hc) (hs.1.waits w (State.waitFor?_wait hw)) hkind rd
  · split
    · rwa [State.dig_updLink]
    · exact h1

theorem State.dig_law_finishFrame {s : State} (hs : s.dig.law) (f : Frame) : (s.finishFrame f).dig.law := by
  have hunt : s.hunt.dig.law := hs
  unfold State.finishFrame State.judgeFrame
  split
  · exact hunt
  · split
    · exact hunt
    · split
      · exact hunt
      · exact State.dig_law_route (s := s.hunt.updLive _ _) hunt _ _

theorem State.dig_law_expireTimer {s : State} (hs : s.dig.law) : s.expireTimer.dig.law := by
  refine (State.digsStill_if (s := s) (t := s.enterCoasting) (fun hdue => State.digsStill_enterCoasting ?_)).law hs
  unfold State.timerDue at hdue
  rw [Bool.and_eq_true] at hdue
  obtain ⟨c, hc, hstate⟩ := State.runState?_cutting hdue.1
  exact ⟨c, hc, .inl hstate⟩

/-- A wait begun in the run state of its kind. -/
theorem State.dig_law_startWait {s : State} (hs : s.dig.law) {c : RunCore} (hc : s.dig.run = some c) (k : TieKind) (n : StationId) {m : Int}
    (hkind : if k = .tie then c.state = .armed else c.state.isStopped = true) (hm : -2400000 ≤ m ∧ m ≤ 2400000) :
    (s.startWait k n m).dig.law := by
  obtain ⟨hruns, hrange, hback⟩ := hs
  refine ⟨⟨fun c' hc' => ?_, fun h0 => (nomatch h0.symm.trans hc), hruns.serving, hruns.unknown, hruns.position, fun w hw => ?_, hruns.eval,
    hruns.settings⟩, hrange, hback⟩
  · cases hc.symm.trans hc'
    obtain ⟨h1, h2, h3, h4, -, h6⟩ := hruns.run c hc
    refine ⟨h1, h2, h3, h4, fun w hw => ?_, h6⟩
    cases hw
    exact hkind
  · cases hw
    exact hm

end Sys2Proof.Machine
end

section
/-! PROOF. O10: every step keeps the law of the dig. What the writes make of the dig's view, and of the settings; then the moves. -/
namespace Sys2Proof.Machine

/-! ## Settings (R176, R177) -/

theorem Settings.get_put_other (t : Settings) {name n : SettingName} (h : n ≠ name) (v : SettingValue) : (t.put name v).get n = t.get n := by
  cases v <;> cases name <;> cases n <;> first | rfl | exact absurd rfl h

theorem toNat_ofInt_byte {n : Int} (h : 1 ≤ n ∧ n ≤ 255) : ((BitVec.ofInt 8 n).toNat : Int) = n := by
  rw [BitVec.toNat_ofInt]
  omega

/-- A number of the setting's range is what it then holds. -/
theorem Settings.get_put_num (t : Settings) {name : SettingName} {lo hi n : Int} (hr : name.range? = some (lo, hi)) (hlow : lo ≤ n)
    (hhigh : n ≤ hi) : (t.put name (.num n)).get name = .num n := by
  cases name with
  | sigMask =>
    cases hr
    exact congrArg SettingValue.num (toNat_ofInt_byte ⟨hlow, hhigh⟩)
  | odoDecode => cases hr
  | gradeEffect => cases hr
  | _ => rfl

/-- A good value of a setting that takes a number is a number of its range. -/
theorem settingValue?_num {name : SettingName} {word : Text} {v : SettingValue} (h : settingValue? name word = .good v) {lo hi : Int}
    (hr : name.range? = some (lo, hi)) : ∃ n, v = .num n ∧ lo ≤ n ∧ n ≤ hi := by
  unfold settingValue? at h
  rw [hr] at h
  dsimp only at h
  split at h
  · cases h
  · rename_i n _
    split at h
    · rename_i hin
      cases h
      unfold within at hin
      exact ⟨n, rfl, of_decide_eq_true hin⟩
    · cases h

theorem Settings.law_put {t : Settings} (h : t.law) {name : SettingName} {word : Text} {v : SettingValue}
    (hv : settingValue? name word = .good v) : (t.put name v).law := by
  intro n hn x hx
  by_cases heq : n = name
  · subst heq
    obtain ⟨m, rfl, hlow, hhigh⟩ := settingValue?_num (lo := x.1) (hi := x.2) hv hx
    rw [t.get_put_num hx hlow hhigh]
    exact ⟨hlow, hhigh⟩
  · rw [t.get_put_other heq]
    exact h n hn x hx

theorem Settings.put_backup (t : Settings) {name : SettingName} (h : name ≠ .backup) (v : SettingValue) : (t.put name v).backup = t.backup :=
  SettingValue.num.inj (t.get_put_other (n := .backup) (Ne.symm h) v)

/-- BACKUP is not set while a run digs (R177). -/
theorem State.setRefusal?_backup {s : State} {v : SettingValue} (h : s.setRefusal? .backup v = none) : s.digging = false := by
  obtain ⟨-, hbar, -⟩ := State.setRefusal?_none h
  have hbar' : (s.digging || _) = false := hbar
  exact (Bool.or_eq_false_iff.mp hbar').1

theorem Line.core_rewriteRamp (r : RunContext) (old : Int) : (r.rewriteRamp old).core = r.core := by
  unfold RunContext.rewriteRamp
  split
  · rfl
  · split <;> rfl

theorem State.dig_changeSetting (s : State) (name : SettingName) (v : SettingValue) :
    (s.changeSetting name v).dig = { s.dig with settings := s.settings.put name v } := by
  unfold State.changeSetting
  dsimp only
  split
  · exact State.dig_markingChange _ _
  · split
    · have h : (s.updRun (fun r => r.rewriteRamp s.settings.trimRamp)).dig = s.dig :=
        State.dig_updRun_core (fun r => Line.core_rewriteRamp r _)
      show ({ (s.updRun (fun r => r.rewriteRamp s.settings.trimRamp)).dig with settings := s.settings.put name v } : Dig) = _
      rw [h]
    · rfl

theorem State.dig_law_changeSetting {s : State} (hs : s.dig.law) {name : SettingName} {word : Text} {v : SettingValue}
    (hv : settingValue? name word = .good v) (hpass : s.setRefusal? name v = none) : (s.changeSetting name v).dig.law := by
  obtain ⟨hruns, hrange, hback⟩ := hs
  rw [State.dig_changeSetting]
  refine ⟨⟨hruns.run, hruns.idle, hruns.serving, hruns.unknown, hruns.position, hruns.waits, hruns.eval, Settings.law_put hruns.settings hv⟩,
    hrange, ?_⟩
  by_cases hname : name = .backup
  · subst hname
    refine Dig.holdsBack_of_not_digging (fun hd => ?_)
    exact (nomatch (State.setRefusal?_backup hpass).symm.trans (State.digging_dig.mpr hd))
  · intro hd f hf
    have hb := hback hd f hf
    rw [← Settings.put_backup s.dig.settings hname v] at hb
    exact hb

/-! ## The lines (R12, R75 to R80, R112) -/

/-- A line that is not ACTIVE may come or go. -/
theorem State.context?_of_lines {s t : State} (h : t.store.lines.find? Line.isActive = s.store.lines.find? Line.isActive) :
    t.context? = s.context? := by
  rw [State.context?, State.active?, h]
  rfl

theorem find?_insertLine {p : Line → Bool} {l : Line} (h : p l = false) (ls : List Line) : (insertLine l ls).find? p = ls.find? p := by
  induction ls with
  | nil => simp [insertLine, h]
  | cons k ks ih =>
    unfold insertLine
    split
    · simp [h]
    · rw [List.find?_cons, List.find?_cons, ih]

theorem find?_filter_of {p q : Line → Bool} {ls : List Line} (h : ∀ l ∈ ls, p l = true → q l = true) : (ls.filter q).find? p = ls.find? p := by
  rw [List.find?_filter]
  induction ls with
  | nil => rfl
  | cons k ks ih =>
    have hk := h k List.mem_cons_self
    rw [List.find?_cons, List.find?_cons, ih (fun l hl => h l (List.mem_cons_of_mem _ hl))]
    cases hp : p k with
    | false => simp
    | true => simp [hk hp]

theorem State.dig_of_context {s t : State} (h : t.context? = s.context?) (hchain : t.chain = s.chain) (hrun : t.run = s.run)
    (heval : t.eval = s.eval) (hset : t.settings = s.settings) : t.dig = s.dig := by
  rw [State.dig, h, hchain, hrun, heval, hset]
  rfl

/-- A RETIRE removes a line that is not ACTIVE. -/
theorem State.dig_retireLine {s : State} (hids : s.store.idsAscending) {id : Nat} (hpass : s.retireRefusal? id = none) :
    (s.retireLine id).dig = s.dig := by
  obtain ⟨l, hl, hna, -⟩ := State.retireRefusal?_none hpass
  obtain ⟨hmem, hid⟩ := (Store.line?_eq_some hids).mp hl
  have hfind : (s.store.lines.filter (fun l => l.id != id)).find? Line.isActive = s.store.lines.find? Line.isActive := by
    refine find?_filter_of (fun k hk ha => bne_iff_ne.mpr (fun he => ?_))
    rw [Store.eq_of_id hids hk hmem (he.trans hid.symm), hna] at ha
    cases ha
  have h0 : ((s.proceedChecks.reach (.parent id)).setLines ((s.proceedChecks.reach (.parent id)).store.lines.filter (fun l => l.id != id))).dig
      = s.dig := State.dig_of_context (State.context?_of_lines hfind) rfl rfl rfl rfl
  have h1 : ((((s.proceedChecks.reach (.parent id)).setLines
      ((s.proceedChecks.reach (.parent id)).store.lines.filter (fun l => l.id != id))).unqueue id).discardCheck id).dig = s.dig := by
    rw [State.dig_discardCheck, State.dig_unqueue, h0]
  exact h1

theorem Draft.core_replaced (d : Draft) (l : Line) : (d.replaced l).run?.map RunContext.core = l.run?.map RunContext.core := rfl

theorem State.dig_writePlanned (s : State) (id : Nat) (d : Draft) (reached : Bool) : (s.writePlanned id d reached).dig = s.dig := by
  have h : (s.updLine id d.replaced).dig = s.dig := State.dig_updLine d.core_replaced
  unfold State.writePlanned
  dsimp only
  rw [State.dig_markLines, State.dig_discardCheck]
  split
  · exact (State.dig_reach _ _).trans h
  · rw [State.dig_unqueue]
    exact (State.dig_reach _ _).trans h

theorem State.dig_writeNew (s : State) (id : Nat) (d : Draft) (reached : Bool) : (s.writeNew id d reached).dig = s.dig := by
  have h : (s.setLines (insertLine (d.newLine id) s.store.lines)).dig = s.dig :=
    State.dig_of_context (State.context?_of_lines (find?_insertLine rfl s.store.lines)) rfl rfl rfl rfl
  unfold State.writeNew
  dsimp only
  split
  · rw [State.dig_markLines]
    exact (State.dig_reach _ _).trans h
  · exact (State.dig_reach _ _).trans h

theorem State.dig_writeActive (s : State) (l : Line) (d : Draft) (reached : Bool) : (s.writeActive l d reached).dig = s.dig := by
  have h : ∀ (st : Option Staged) (x : Option Text), (s.updLine l.id (fun k => { k.setStaged st with label := x })).dig = s.dig :=
    fun st x => State.dig_updLine (fun k => k.core_setStaged st)
  unfold State.writeActive
  dsimp only
  split
  · rw [State.dig_markLines, State.dig_noteDrop, h]
  · exact h _ _

theorem State.dig_completeCommit (s : State) (p : Port) (c : CommitRun) (id : Nat) (d : Draft) : (s.completeCommit p c id d).dig = s.dig := by
  have h0 : (s.updPort p (fun q => { q with commit := none })).dig = s.dig := State.dig_updPort ..
  have hwrite : ((s.updPort p (fun q => { q with commit := none })).writeCommit id d c.reached).dig = s.dig := by
    unfold State.writeCommit
    dsimp only
    split
    · exact (State.dig_writeNew ..).trans h0
    · split
      · exact (State.dig_writeActive ..).trans h0
      · exact (State.dig_writePlanned ..).trans h0
  unfold State.completeCommit
  dsimp only
  split
  · rw [State.dig_reply, h0]
  · split
    · rw [State.dig_reply, h0]
    · rw [State.commitDone, State.ok, State.dig_reply, State.dig_updPort, hwrite]

/-! ## The run begun and ended (R112, R113, R121) -/

theorem State.context?_isNone_iff (s : State) : s.isIdle = true ↔ s.context? = none := Option.isNone_iff_eq_none

/-- The view of a run just begun. -/
def Dig.selected (t : Settings) : Dig := { Dig.idle t with run := some RunContext.selected.core }

theorem State.dig_selectLine {s : State} {id : Nat} {l : Line} (hidle : s.isIdle = true) (hl : s.line? id = some l) :
    (s.selectLine id).dig = Dig.selected s.settings := by
  have hna := State.isIdle_iff.mp hidle
  have hmem : l ∈ s.store.lines := List.mem_of_find?_eq_some hl
  have hid : l.id = id := by simpa using List.find?_some hl
  have hc : (s.selectLine id).context? = some RunContext.selected := by
    show ((s.store.lines.map (fun k => if k.id = id then { k with lifecycle := .active RunContext.selected none } else k)).find?
      Line.isActive).bind Line.run? = _
    obtain ⟨k, hk⟩ : ∃ k, (s.store.lines.map (fun k => if k.id = id then
        ({ k with lifecycle := .active RunContext.selected none } : Line) else k)).find? Line.isActive = some k := by
      refine Option.isSome_iff_exists.mp (List.find?_isSome.mpr ⟨_, List.mem_map_of_mem hmem, ?_⟩)
      rw [if_pos hid]
      rfl
    obtain ⟨m, hm, rfl⟩ := List.mem_map.mp (List.mem_of_find?_eq_some hk)
    have hact := List.find?_some hk
    rw [hk]
    split
    · rfl
    · rename_i hne
      rw [if_neg hne, hna m hm] at hact
      cases hact
  rw [State.dig, hc]
  rfl

theorem Dig.law_selected {t : Settings} (ht : t.law) : (Dig.selected t).law := by
  refine ⟨⟨fun c hc => ?_, fun h => (nomatch h), rfl, fun _ => rfl, (Dig.runs_idle ht).position, fun w hw => (nomatch hw), (Dig.runs_idle ht).eval,
    ht⟩, fun f hf => (nomatch hf), fun _ f hf => (nomatch hf)⟩
  cases hc
  exact ⟨rfl, fun h => (nomatch h), ⟨fun h => (nomatch h), fun h => absurd rfl h⟩, ⟨fun h => (nomatch h), fun h => (nomatch h)⟩,
    fun w hw => (nomatch hw), fun h => absurd rfl h⟩

theorem State.dig_of_no_active {s : State} (h : s.active? = none) : s.context? = none := by
  rw [State.context?, h]
  rfl

theorem State.dig_law_deselectLine {s : State} (hs : s.dig.law) : s.deselectLine.dig.law := by
  unfold State.deselectLine
  split
  · rw [State.dig_noteDropIf, State.dig_leaveActive _ (by simp [Lifecycle.kind])]
    exact Dig.law_idle hs.1.settings
  · exact hs

theorem State.dig_law_abandonLine {s : State} (hs : s.dig.law) : s.abandonLine.dig.law := by
  unfold State.abandonLine
  split
  · dsimp only
    rw [State.dig_markingChange, State.dig_noteDropIf, State.dig_leaveActive _ (by simp [Lifecycle.kind])]
    exact Dig.law_idle hs.1.settings
  · exact hs

/-! ## RESUME (R117, R118) -/

theorem State.resumeRefusal?_none {s : State} (h : s.resumeRefusal? = none) : s.stopped = true ∧ s.context?.any (fun r => r.retie) = false
    ∧ s.activeChecked = true ∧ s.reachedF - s.settings.backup ≤ s.chainage ∧ s.chainage ≤ s.reachedF + Config.resumeGap := by
  unfold State.resumeRefusal? at h
  split_ifs at h with h1 h2 h3 h4 h5
  exact ⟨by simpa using h1, by simpa using h2, by simpa using h3, not_lt.mp h4, not_lt.mp h5⟩

theorem State.stopped_dig {s : State} : s.stopped = true ↔ ∃ c, s.dig.run = some c ∧ c.state.isStopped = true := by
  unfold State.stopped
  rw [State.runState?_dig]
  cases s.dig.run with
  | none => simp
  | some c => cases hc : c.state <;> simp [hc, RunState.isStopped]

theorem State.dig_enterCutting (s : State) (k : Strike) :
    (s.enterCutting k).dig = { s.dig with
      run := s.dig.run.map (fun c => { c with state := .cutting }), timer := some (k.time + s.strikeTimeout), coast := 0
      eval := { s.eval with drive := 0, gradeCount := 0, gradeFlag := false } } := by
  have ht : (s.changeRun .cutting).strikeTimeout = s.strikeTimeout := by
    unfold State.strikeTimeout
    rw [State.changeRun_settings]
  have h := s.dig_changeRun .cutting
  have hev : (s.changeRun .cutting).eval = { s.eval with drive := 0 } := congrArg Dig.eval h
  show ({ (s.changeRun .cutting).dig with
    timer := some (k.time + s.strikeTimeout), coast := 0
    eval := { (s.changeRun .cutting).eval with gradeCount := 0, gradeFlag := false } } : Dig) = _
  rw [h, hev]
  rfl

theorem State.dig_law_resumeDig {s : State} (hs : s.dig.law) (hwait : s.run.wait = none) (hpass : s.resumeRefusal? = none) (k : Strike) :
    (s.resumeDig k).dig.law := by
  obtain ⟨hstop, hretie, -, hback, -⟩ := State.resumeRefusal?_none hpass
  obtain ⟨hruns, hrange, -⟩ := hs
  obtain ⟨c, hc, hstop⟩ := State.stopped_dig.mp hstop
  have hretie : c.retie = false := by
    obtain ⟨r, hr, rfl⟩ := Option.map_eq_some_iff.mp hc
    rw [hr] at hretie
    exact hretie
  obtain ⟨hknows, -⟩ := hruns.run c hc
  have hknown : s.dig.known = true := by
    rw [hknows, RunCore.knows, hstop, hretie]
    simp
  have hcf := hruns.furthest hc hknown
  obtain ⟨f, hf⟩ := Option.isSome_iff_exists.mp hcf
  have hfs : s.furthest? = some f := by rw [State.furthest?_dig, hc]; exact hf
  have hreach : s.reachedF = f := by rw [State.reachedF, hfs]; rfl
  have hdig := s.dig_enterCutting k
  have hrun : (s.enterCutting k).dig.run = some { c with state := .cutting } := by
    rw [hdig]
    show s.dig.run.map _ = _
    rw [hc]
    rfl
  have hruns' : (s.enterCutting k).dig.runs := by
    refine Dig.runs_cutting hrun rfl hretie hcf ?_ ?_ ?_ ?_ ?_ ?_ ?_ <;> rw [hdig]
    · exact hknown
    · rfl
    · exact hwait
    · exact hruns.serving.trans hknown
    · exact hruns.position
    · exact Evaluator.law_graded (Evaluator.law_still hruns.eval) (Nat.zero_le _) false
    · exact hruns.settings
  have hf' : (s.enterCutting k).furthest? = some f := by
    rw [State.furthest?_dig, hrun]
    exact hf
  have h0 := hrange f (Dig.furthest?_eq hc hf)
  have hF : ∀ g, (s.enterCutting k).dig.furthest? = some g → g = f := fun g hg =>
    Option.some.inj ((hg.symm.trans (State.furthest?_dig _).symm).trans hf')
  unfold State.resumeDig
  dsimp only
  split
  · rename_i hlt
    have hlt : f < (s.enterCutting k).chainage := by
      rwa [State.reachedF, hf'] at hlt
    refine Dig.law_iff.mpr (State.reaches_advance hruns' (.inr ?_) hf' h0.1 hlt _)
    rw [hdig]
    exact hknown
  · refine ⟨hruns', fun g hg => ?_, fun _ g hg => ?_⟩
    · rw [hF g hg]
      exact h0
    · rw [hF g hg, hdig]
      rw [hreach] at hback
      exact hback

/-! ## Every move -/

theorem RunContext.core_setMark (r : RunContext) (n : Int) (m : Option Mark) : (r.setMark n m).core = r.core := by
  unfold RunContext.setMark
  split <;> rfl

theorem State.Acts.dig_law {u w : State} {p : Port} (h : u.Acts p w) (hids : u.store.idsAscending) (hwait : p = .cab → u.run.wait = none)
    (hs : u.dig.law) : w.dig.law := by
  cases h with
  | retire id hclaim hpass =>
    rw [State.emptyClaim, State.dig_updPort, State.dig_retireLine hids hpass]
    exact hs
  | recheck id l hl hm => rwa [State.dig_markingChange]
  | define n sig label hn hc => exact hs
  | plane n d state mm hstate hn huse => rwa [State.dig_markingChange]
  | withdraw n d hn huse => rwa [State.dig_markingChange]
  | restore n d hn hc => rwa [State.dig_markingChange]
  | forget n d hn huse => exact hs
  | zeroCounters => exact hs
  | select id l hidle hl hsel =>
    rw [State.dig_selectLine hidle hl]
    exact Dig.law_selected hs.1.settings
  | deselect ha => exact State.dig_law_deselectLine hs
  | suspend hd => exact (State.digsStill_suspendDigging u _).law hs
  | resume k hp hpass hk => exact State.dig_law_resumeDig hs (hwait hp) hpass k
  | abandon ha => exact State.dig_law_abandonLine hs
  | mark f hr =>
    rw [State.dig_updRun_core (fun r => r.core_setMark _ _)]
    exact hs
  | setSettled b => rwa [State.dig_setSettled]
  | settle l st hl hst hd => exact (State.digsStill_applyOrDrop u l st).law hs
  | unstage l hl => rwa [State.dig_dropStaged]
  | trim a b c =>
    have h : (u.updRun (fun r => r.ramp a b c)).dig = u.dig := State.dig_updRun_core (fun _ => rfl)
    rwa [h]
  | set name v word hv hpass => exact State.dig_law_changeSetting hs hv hpass

/-! ## Restart and clear (R181, R183) -/

/-- A run after a restart: ARMED, or SUSPENDED with retie required. -/
def RunCore.afterRestart (c : RunCore) : RunCore := if c.state = .armed then c else { c with state := .suspended .power, retie := true }

theorem State.dig_restart (s : State) : s.restart.dig = { Dig.idle s.settings with run := s.dig.run.map RunCore.afterRestart } := by
  have hcore : ∀ r : RunContext, (RunContext.afterRestart r).core = RunCore.afterRestart r.core := by
    intro r
    unfold RunContext.afterRestart
    split
    · rename_i h
      exact (if_pos h).symm
    · rename_i h
      exact (if_neg h).symm
  have hrun : ∀ l : Line, l.afterRestart.run? = l.run?.map RunContext.afterRestart := by
    intro l
    rw [Line.afterRestart, Line.updRun_run?, Line.setStaged_run?]
  have hc : s.restart.context? = s.context?.map RunContext.afterRestart := by
    show (s.mapLines Line.afterRestart).active?.bind Line.run? = (s.active?.bind Line.run?).map _
    rw [State.mapLines_active? (fun l => by rw [Line.isActive_run, Line.isActive_run, hrun, Option.isSome_map])]
    cases s.active? with
    | none => rfl
    | some l => exact hrun l
  have hrun' : s.restart.context?.map RunContext.core = s.dig.run.map RunCore.afterRestart := by
    rw [hc]
    show (s.context?.map _).map _ = (s.context?.map _).map _
    rw [Option.map_map, Option.map_map]
    congr 1
    funext r
    exact hcore r
  rw [State.dig, hrun']
  rfl

theorem State.dig_law_restart {s : State} (hs : s.dig.law) : s.restart.dig.law := by
  obtain ⟨hruns, hrange, -⟩ := hs
  have hidle := Dig.runs_idle hruns.settings
  have hcases : ∀ c : RunCore, c.state = .armed ∧ c.afterRestart = c
      ∨ c.state ≠ .armed ∧ c.afterRestart = { c with state := .suspended .power, retie := true } := by
    intro c
    unfold RunCore.afterRestart
    by_cases h : c.state = .armed
    · exact .inl ⟨h, if_pos h⟩
    · exact .inr ⟨h, if_neg h⟩
  rw [State.dig_restart]
  refine ⟨⟨fun c hc => ?_, fun _ => ⟨rfl, rfl, rfl, rfl, rfl⟩, rfl, fun _ => rfl, hidle.position, fun w hw => (nomatch hw), hidle.eval,
    hruns.settings⟩, fun f hf => hrange f ?_, Dig.holdsBack_of_not_digging ?_⟩
  · obtain ⟨c', hc', rfl⟩ := Option.map_eq_some_iff.mp hc
    obtain ⟨-, hretie, hf, -⟩ := hruns.run c' hc'
    rcases hcases c' with ⟨hstate, he⟩ | ⟨hstate, he⟩ <;> rw [he]
    · refine ⟨by rw [RunCore.knows, hstate]; rfl, hretie, hf, ?_, fun w hw => (nomatch hw), fun h => absurd rfl h⟩
      rw [hstate]
      exact ⟨fun h => (nomatch h), fun h => (nomatch h)⟩
    · exact ⟨rfl, fun _ => rfl, ⟨fun _ h => (nomatch h), fun _ => hf.mpr hstate⟩, ⟨fun h => (nomatch h), fun h => (nomatch h)⟩,
        fun w hw => (nomatch hw), fun h => absurd rfl h⟩
  · obtain ⟨c, hc, hcf⟩ := Dig.furthest?_some.mp hf
    obtain ⟨c', hc', rfl⟩ := Option.map_eq_some_iff.mp hc
    refine Dig.furthest?_eq hc' ?_
    rcases hcases c' with ⟨-, he⟩ | ⟨-, he⟩ <;> rw [he] at hcf <;> exact hcf
  · rintro ⟨c, hc, hd⟩
    obtain ⟨c', -, rfl⟩ := Option.map_eq_some_iff.mp hc
    obtain ⟨hstop, harmed⟩ := RunState.not_stopped hd
    rcases hcases c' with ⟨hstate, he⟩ | ⟨-, he⟩ <;> rw [he] at hstop harmed
    · exact harmed hstate
    · cases hstop

theorem Settings.law_reset : Store.reset.settings.law := by decide

theorem State.dig_clearStore (s : State) (row : Instr) : (s.clearStore row).dig = Dig.idle Store.reset.settings := by
  unfold State.clearStore
  dsimp only
  rw [State.dig_updPort]
  rfl

theorem State.Happens.dig_law {s t : State} (h : s.Happens t) (hs : s.dig.law) : t.dig.law := by
  cases h with
  | completeCommit p c id d hc hclaim hdraft => rwa [State.dig_completeCommit]
  | lookForWork => rwa [State.dig_lookForWork]
  | finishRecheck f hf => rwa [State.dig_finishRecheck]
  | link f hf => exact hs
  | frame f => exact State.dig_law_finishFrame hs f
  | transition ch => exact State.dig_law_validTransition hs ch
  | invalid => exact hs
  | timer => exact State.dig_law_expireTimer hs
  | waitOver hd =>
    rw [State.no, State.dig_reply]
    exact (State.digsStill_endWait s).law hs
  | tie hr ha =>
    have ha : s.runState? = some .armed := beq_iff_eq.mp ha
    obtain ⟨c, hc, hstate⟩ := State.dig_run_of_state ha
    have ht := State.dig_taken s .cab (.tie .cab [])
    exact State.dig_law_startWait (by rwa [ht]) (by rwa [ht]) .tie _ hstate (by decide)
  | retie args mm hr hstop hlow hhigh =>
    obtain ⟨c, hc, hstop⟩ := State.stopped_dig.mp hstop
    have ht := State.dig_taken s .cab (.retie .cab args)
    refine State.dig_law_startWait (by rwa [ht]) (by rwa [ht]) .retie _ hstop ?_
    have hF : 0 ≤ s.reachedF ∧ s.reachedF ≤ 2400000 := by
      unfold State.reachedF
      cases hf : s.furthest? with
      | none => decide
      | some f => exact hs.2.1 f (by rwa [State.furthest?_dig] at hf)
    have hb : 0 ≤ s.settings.backup ∧ s.settings.backup ≤ 5000 := Settings.law.backup hs.1.settings
    omega
  | restart => exact State.dig_law_restart hs
  | clear row hi =>
    rw [State.dig_clearStore]
    exact Dig.law_idle Settings.law_reset
  | power powered resetLow => exact hs
  | powerRestart powered resetLow => exact State.dig_law_restart (s := { s with powered := powered, resetLow := resetLow }) hs

theorem State.Moves.dig_law {s t : State} (h : s.Moves t) (hids : s.store.idsAscending) (hhand : s.handLaw) (hs : s.dig.law) : t.dig.law := by
  cases h with
  | stays => exact hs
  | port p hq => rwa [State.dig_updPort]
  | act p row r hr hw =>
    rw [State.dig_reply]
    refine hw.dig_law (by rwa [State.taken_store]) (fun hp => ?_) (by rwa [State.dig_taken])
    subst hp
    exact hhand.no_wait hr.2.2
  | event h => exact h.dig_law hs

theorem keptByMoves_digLaw : KeptByMoves State.digLaw := by
  refine ⟨fun s time pending hs => hs, fun s t h hs => ?_⟩
  obtain ⟨hids, hone, hhand, hruns, hreach⟩ := digLaw_iff.mp hs
  obtain ⟨-, b, hb, halter⟩ := h.writes
  obtain ⟨hruns', hreach'⟩ := Dig.law_iff.mp (h.dig_law hids hhand (Dig.law_iff.mpr ⟨hruns, hreach⟩))
  exact digLaw_iff.mpr ⟨Store.altersTo_idsAscending halter (hb.idsAscending hids), Store.altersTo_oneActive halter (hb.oneActive hids hone), h.handLaw hhand,
    hruns', hreach'⟩

/-- Settles O10: each move keeps the law of the dig, on the view of the state that it speaks of. -/
theorem stepKeepsTheDigLaw : Obligations.StepKeepsTheDigLaw := fun _ _ hs h => keptByMoves_digLaw.step h hs

end Sys2Proof.Machine
end

section
/-! PROOF. O4: the module as it leaves the factory. Each law is a finite fact about the closed state `State.reset`. -/
namespace Sys2Proof.Machine

theorem State.reset_tableLaw : State.reset.tableLaw := by decide
theorem State.reset_poolLaw : State.reset.poolLaw := by decide
theorem State.reset_collisionLaw : State.reset.store.collisionLaw := by decide
theorem State.reset_recheckLaw : State.reset.recheck.law := by decide
theorem State.reset_coverLaw : State.reset.coverLaw := by decide
theorem State.reset_portLaw : State.reset.portLaw := by decide
theorem State.reset_digLaw : State.reset.digLaw := by decide
theorem State.reset_forestLaw : State.reset.store.forestLaw := ⟨List.Pairwise.nil, fun l hl => (nomatch hl), fun l hl => (nomatch hl)⟩
theorem State.reset_closedLaw : State.reset.closedLaw := by
  refine ⟨State.reset_tableLaw, State.reset_portLaw, Settings.law_reset, fun c hc => (nomatch hc), fun c hc => (nomatch hc), fun l hl => (nomatch hl)⟩

/-- Settles O4: the factory contents are read off the definition, and the laws hold of it. -/
theorem resetHoldsFactoryContentsAndTheLaws : Obligations.ResetHoldsFactoryContentsAndTheLaws := by
  refine ⟨rfl, by decide, fun n => ?_, rfl, fun p => ?_, rfl, rfl, rfl, rfl, rfl, rfl, rfl, rfl, rfl, rfl, by decide, rfl, rfl, rfl, rfl, rfl, rfl,
    State.reset_tableLaw, State.reset_poolLaw, State.reset_collisionLaw, State.reset_recheckLaw, State.reset_coverLaw, State.reset_portLaw,
    State.reset_digLaw, State.reset_forestLaw, State.reset_closedLaw⟩
  · cases n <;> exact ⟨rfl, rfl⟩
  · cases p <;> exact ⟨rfl, rfl, rfl, rfl, rfl, rfl, rfl, by decide⟩

end Sys2Proof.Machine
end

section
/-! PROOF. The segments of a line (R4, R7, R8, R9): what an alteration of one record makes of its law and of its CLOSED segments. -/
namespace Sys2Proof.Machine

/-! ## A profile by its indices -/

theorem Line.points_getElem? (l : Line) (k : Nat) : l.points[k]? = (l.profile[k]?).map (fun b => b.point) := List.getElem?_map ..

theorem getElem?_zipIdx_map {α β : Type} (g : α × Nat → β) (bs : List α) (k : Nat) : (bs.zipIdx.map g)[k]? = (bs[k]?).map (fun b => g (b, k)) := by
  rw [List.getElem?_map, List.getElem?_zipIdx, Option.map_map]
  simp only [Nat.zero_add]
  rfl

theorem getElem?_updNth (k : Nat) (f : Breakpoint → Breakpoint) (bs : List Breakpoint) (i : Nat) :
    (updNth k f bs)[i]? = (bs[i]?).map (fun b => if i = k then f b else b) := getElem?_zipIdx_map _ bs i

/-- The record's points stand where the point of every breakpoint does. -/
theorem Line.points_of_getElem? {l m : Line}
    (h : ∀ k : Nat, (m.profile[k]?).map (fun b => b.point) = (l.profile[k]?).map (fun b => b.point)) :
    m.points = l.points := by
  refine List.ext_getElem? (fun k => ?_)
  rw [Line.points_getElem?, Line.points_getElem?, h]

/-! ## CLOSED segments -/

/-- Segment k of the line is CLOSED: its breakpoint is `b`. -/
def Line.closedAt (l : Line) (k : Nat) (b : Breakpoint) : Prop := l.profile[k]? = some b ∧ ∃ c, b.closure = some c ∧ c.state = .closed

/-- Every CLOSED segment of the line ends at or below a chainage (R8). -/
def Line.closedBelow (l : Line) (x : Int) : Prop := ∀ k b, l.closedAt k b → ∃ p, l.points[k + 1]? = some p ∧ p.chainage ≤ x

theorem Line.closedBelow.mono {l : Line} {x y : Int} (h : l.closedBelow x) (hxy : x ≤ y) : l.closedBelow y := by
  intro k b hb
  obtain ⟨p, hp, hx⟩ := h k b hb
  exact ⟨p, hp, hx.trans hxy⟩

theorem Line.unentered.not_closed {l : Line} (h : l.unentered) (k : Nat) (b : Breakpoint) : ¬l.closedAt k b := by
  rintro ⟨hb, c, hc, -⟩
  have := h b (List.mem_of_getElem? hb)
  rw [hc] at this
  cases this

/-- The law of a line's segments, in the words of `points`. -/
theorem Line.segmentLaw_iff {l : Line} : l.segmentLaw ↔ laidOut l.points ∧ (∀ st ∈ l.staged?, laidOut st.profile)
    ∧ (l.lifecycle = .planned → l.unentered) ∧ ∀ r ∈ l.run?, (r.state = .armed → r.furthest = none) ∧ (r.furthest = none → l.unentered)
      ∧ ∀ f ∈ r.furthest, f < l.length ∧ l.closedBelow f := by
  have hclosed : ∀ f, (∀ (k : Nat) (b : Breakpoint) (c : Closure), l.profile[k]? = some b → b.closure = some c → c.state = .closed →
      ∃ e, l.profile[k + 1]? = some e ∧ e.point.chainage ≤ f) ↔ l.closedBelow f := by
    intro f
    constructor
    · rintro h k b ⟨hb, c, hc, hs⟩
      obtain ⟨e, he, hf⟩ := h k b c hb hc hs
      exact ⟨e.point, by rw [Line.points_getElem?, he]; rfl, hf⟩
    · intro h k b c hb hc hs
      obtain ⟨p, hp, hf⟩ := h k b ⟨hb, c, hc, hs⟩
      rw [Line.points_getElem?, Option.map_eq_some_iff] at hp
      obtain ⟨e, he, rfl⟩ := hp
      exact ⟨e, he, hf⟩
  unfold Line.segmentLaw
  simp only [hclosed]

/-- The CLOSED segments stand in a later record that keeps their breakpoints and the points. -/
theorem Line.closedStand_of {l m : Line} (hb : ∀ k b, l.closedAt k b → m.profile[k]? = some b)
    (hp : ∀ k b p, l.closedAt k b → l.points[k + 1]? = some p → m.points[k + 1]? = some p) : l.closedStand m := by
  intro k b e c hk hc hs he
  refine ⟨hb k b ⟨hk, c, hc, hs⟩, ?_⟩
  rw [← Line.points_getElem?]
  exact hp k b e.point ⟨hk, c, hc, hs⟩ (by rw [Line.points_getElem?, he]; rfl)

theorem Line.closedStand_refl (l : Line) : l.closedStand l := Line.closedStand_of (fun _ _ h => h.1) (fun _ _ _ _ h => h)

theorem Line.closedStand_of_not_closed {l m : Line} (h : ∀ k b, ¬l.closedAt k b) : l.closedStand m :=
  Line.closedStand_of (fun k b hb => absurd hb (h k b)) (fun k b _ hb => absurd hb (h k b))

theorem Line.closedStand_trans {l m n : Line} (h : l.closedStand m) (h' : m.closedStand n) : l.closedStand n := by
  intro k b e c hk hc hs he
  obtain ⟨hm, hme⟩ := h k b e c hk hc hs he
  obtain ⟨e', he', hpoint⟩ := Option.map_eq_some_iff.mp hme
  obtain ⟨hn, hne⟩ := h' k b e' c hm hc hs he'
  exact ⟨hn, hpoint ▸ hne⟩

/-! ## The law on the way of an advance -/

/-- The law of segments while F advances and has come to `x` on the way: F is set and not tested against the length. -/
def Line.lawAt (x : Int) (l : Line) : Prop := laidOut l.points ∧ (∀ st ∈ l.staged?, laidOut st.profile)
  ∧ (l.lifecycle = .planned → l.unentered) ∧ ∀ r ∈ l.run?, r.state ≠ .armed ∧ r.furthest ≠ none ∧ l.closedBelow x

theorem Line.lawAt.mono {x y : Int} {l : Line} (h : l.lawAt x) (hxy : x ≤ y) : l.lawAt y := by
  obtain ⟨h1, h2, h3, h4⟩ := h
  refine ⟨h1, h2, h3, fun r hr => ?_⟩
  obtain ⟨ha, hf, hc⟩ := h4 r hr
  exact ⟨ha, hf, hc.mono hxy⟩

theorem Line.run?_none_of_not_active {l : Line} (h : l.isActive = false) : l.run? = none := by
  rw [Line.isActive_run] at h
  exact Option.isSome_eq_false_iff.mp h |> Option.isNone_iff_eq_none.mp

/-- A line that is not ACTIVE has the law on the way as it has the law. -/
theorem Line.lawAt_of_not_active {x : Int} {l : Line} (hl : l.isActive = false) : l.lawAt x ↔ l.segmentLaw := by
  rw [Line.segmentLaw_iff, Line.lawAt, Line.run?_none_of_not_active hl]
  simp

/-- With F at `x` the law gives the law on the way. -/
theorem Line.lawAt_of_law {x : Int} {l : Line} (h : l.segmentLaw) (hf : ∀ r ∈ l.run?, r.furthest = some x) : l.lawAt x := by
  obtain ⟨h1, h2, h3, h4⟩ := Line.segmentLaw_iff.mp h
  refine ⟨h1, h2, h3, fun r hr => ?_⟩
  obtain ⟨ha, -, hlaw⟩ := h4 r hr
  have hfr := hf r hr
  refine ⟨fun h0 => (nomatch (ha h0).symm.trans hfr), fun h0 => (nomatch h0.symm.trans hfr), (hlaw x hfr).2⟩

/-! ## An alteration that leaves the segments -/

/-- The record's segments stand: its points, and which are entered and which are CLOSED; a staged revision stands or goes, and the run
keeps F and does not become ARMED. -/
structure Line.segSame (l m : Line) : Prop where
  id : m.id = l.id
  points : m.points = l.points
  closed : ∀ k b, m.closedAt k b ↔ l.closedAt k b
  unentered : l.unentered → m.unentered
  staged : ∀ st ∈ m.staged?, ∃ st' ∈ l.staged?, st.profile = st'.profile
  planned : m.lifecycle = .planned → l.lifecycle = .planned
  run : ∀ r ∈ m.run?, ∃ r' ∈ l.run?, r.furthest = r'.furthest ∧ (r.state = .armed → r'.state = .armed)

theorem Line.segSame_refl (l : Line) : l.segSame l :=
  ⟨rfl, rfl, fun _ _ => Iff.rfl, fun h => h, fun st h => ⟨st, h, rfl⟩, fun h => h, fun r h => ⟨r, h, rfl, fun h => h⟩⟩

theorem Line.segSame.trans {l m n : Line} (h : l.segSame m) (h' : m.segSame n) : l.segSame n := by
  refine ⟨h'.id.trans h.id, h'.points.trans h.points, fun k b => (h'.closed k b).trans (h.closed k b), fun hu => h'.unentered (h.unentered hu),
    fun st hst => ?_, fun hp => h.planned (h'.planned hp), fun r hr => ?_⟩
  · obtain ⟨st', hst', he'⟩ := h'.staged st hst
    obtain ⟨st'', hst'', he⟩ := h.staged st' hst'
    exact ⟨st'', hst'', he'.trans he⟩
  · obtain ⟨r', hr', hf', ha'⟩ := h'.run r hr
    obtain ⟨r'', hr'', hf, ha⟩ := h.run r' hr'
    exact ⟨r'', hr'', hf'.trans hf, fun h0 => ha (ha' h0)⟩

/-- Where the profile stands, only the rest is to be seen to. -/
theorem Line.segSame_of_profile {l m : Line} (hid : m.id = l.id) (hp : m.profile = l.profile)
    (hstaged : ∀ st ∈ m.staged?, ∃ st' ∈ l.staged?, st.profile = st'.profile) (hplanned : m.lifecycle = .planned → l.lifecycle = .planned)
    (hrun : ∀ r ∈ m.run?, ∃ r' ∈ l.run?, r.furthest = r'.furthest ∧ (r.state = .armed → r'.state = .armed)) : l.segSame m := by
  refine ⟨hid, by rw [Line.points, hp]; rfl, fun k b => by rw [Line.closedAt, hp]; rfl, fun hu => ?_, hstaged, hplanned, hrun⟩
  unfold Line.unentered
  rwa [hp]

theorem Line.segSame.closedStand {l m : Line} (h : l.segSame m) : l.closedStand m :=
  Line.closedStand_of (fun k b hb => ((h.closed k b).mpr hb).1) (fun _ _ _ _ hp => by rwa [h.points])

theorem Line.segSame.closedBelow {l m : Line} (h : l.segSame m) {x : Int} (hl : l.closedBelow x) : m.closedBelow x := by
  intro k b hb
  rw [h.points]
  exact hl k b ((h.closed k b).mp hb)

theorem Line.segSame.law {l m : Line} (h : l.segSame m) (hl : l.segmentLaw) : m.segmentLaw := by
  obtain ⟨h1, h2, h3, h4⟩ := Line.segmentLaw_iff.mp hl
  refine Line.segmentLaw_iff.mpr ⟨by rwa [h.points], fun st hst => ?_, fun hp => h.unentered (h3 (h.planned hp)), fun r hr => ?_⟩
  · obtain ⟨st', hst', he⟩ := h.staged st hst
    rw [he]
    exact h2 st' hst'
  · obtain ⟨r', hr', hf, ha⟩ := h.run r hr
    obtain ⟨hlaw1, hlaw2, hlaw3⟩ := h4 r' hr'
    rw [hf]
    refine ⟨fun h0 => hlaw1 (ha h0), fun h0 => h.unentered (hlaw2 h0), fun f hf' => ?_⟩
    obtain ⟨hlen, hbelow⟩ := hlaw3 f hf'
    exact ⟨by rwa [Line.length, h.points], h.closedBelow hbelow⟩

theorem Line.segSame.lawAt {l m : Line} (h : l.segSame m) {x : Int} (hl : l.lawAt x) : m.lawAt x := by
  obtain ⟨h1, h2, h3, h4⟩ := hl
  refine ⟨by rwa [h.points], fun st hst => ?_, fun hp => h.unentered (h3 (h.planned hp)), fun r hr => ?_⟩
  · obtain ⟨st', hst', he⟩ := h.staged st hst
    rw [he]
    exact h2 st' hst'
  · obtain ⟨r', hr', hf, ha⟩ := h.run r hr
    obtain ⟨hlaw1, hlaw2, hlaw3⟩ := h4 r' hr'
    rw [hf]
    exact ⟨fun h0 => hlaw1 (ha h0), hlaw2, h.closedBelow hlaw3⟩

/-! ## Records that keep their segments -/

theorem Line.staged?_setStaged (l : Line) (st : Option Staged) : (l.setStaged st).staged? = if l.isActive then st else l.staged? := by
  unfold Line.setStaged Line.staged? Line.isActive Lifecycle.kind
  rcases h : l.lifecycle <;> simp [h]

theorem Line.lifecycle_planned_iff {l m : Line} (h : m.lifecycle.kind = l.lifecycle.kind) (hm : m.lifecycle = .planned) : l.lifecycle = .planned := by
  rw [hm] at h
  rcases hl : l.lifecycle <;> simp [hl, Lifecycle.kind] at h ⊢

/-- A staged revision discarded, or replaced by one of the same profile. -/
theorem Line.segSame_setStaged (l : Line) {st : Option Staged} (h : ∀ x ∈ st, ∃ y ∈ l.staged?, x.profile = y.profile) : l.segSame (l.setStaged st) := by
  refine Line.segSame_of_profile (l.setStaged_id st) (by rw [Line.setStaged_profile]) (fun x hx => ?_)
    (Line.lifecycle_planned_iff (by rw [Line.setStaged_kind])) (fun r hr => ⟨r, by rwa [Line.setStaged_run?] at hr, rfl, fun h => h⟩)
  rw [Line.staged?_setStaged] at hx
  split at hx
  · exact h x hx
  · exact ⟨x, hx, rfl⟩

theorem Line.segSame_unstaged (l : Line) : l.segSame (l.setStaged none) := l.segSame_setStaged (fun _ hx => (nomatch hx))

theorem Line.segSame_status (l : Line) (x : CheckStatus) : l.segSame { l with status := x } :=
  Line.segSame_of_profile rfl rfl (fun st h => ⟨st, h, rfl⟩) (fun h => h) (fun r h => ⟨r, h, rfl, fun h => h⟩)

theorem Line.segSame_marked (l : Line) : l.segSame l.marked := l.segSame_unstaged.trans (Line.segSame_status _ _)

/-- A run context changed, F standing and not becoming ARMED. -/
theorem Line.segSame_updRun (l : Line) {f : RunContext → RunContext} (hf : ∀ r, (f r).furthest = r.furthest ∧ ((f r).state = .armed → r.state = .armed)) :
    l.segSame (l.updRun f) := by
  refine Line.segSame_of_profile (l.updRun_id f) (l.updRun_profile f) (fun st h => ⟨st, by rwa [Line.updRun_staged?] at h, rfl⟩)
    (Line.lifecycle_planned_iff (by rw [Line.updRun_kind])) (fun r hr => ?_)
  rw [Line.updRun_run?] at hr
  obtain ⟨r', hr', rfl⟩ := Option.map_eq_some_iff.mp hr
  exact ⟨r', hr', (hf r').1, (hf r').2⟩

/-- A breakpoint whose closure part changes within OPEN alone. -/
def Breakpoint.sameState (b d : Breakpoint) : Prop :=
  d.point = b.point ∧ (b.closure = none → d.closure = none) ∧ (b.isOpen = true → d.isOpen = true) ∧ (b.isOpen = false → d = b)

theorem Breakpoint.sameState_refl (b : Breakpoint) : b.sameState b := ⟨rfl, fun h => h, fun h => h, fun _ => rfl⟩

theorem Breakpoint.sameState_updOpen (b : Breakpoint) {f : Closure → Closure} (hf : ∀ c, (f c).state = c.state) : b.sameState (b.updOpen f) := by
  unfold Breakpoint.updOpen
  split
  · rename_i c hc
    split
    · rename_i ho
      refine ⟨rfl, fun h => (nomatch h.symm.trans hc), fun _ => ?_, fun h => ?_⟩
      · simp [Breakpoint.isOpen, hf, ho]
      · simp [Breakpoint.isOpen, hc, ho] at h
    · exact b.sameState_refl
  · exact b.sameState_refl

theorem Breakpoint.not_open_of_closed {b : Breakpoint} {c : Closure} (hc : b.closure = some c) (hs : c.state = .closed) : b.isOpen = false := by
  simp [Breakpoint.isOpen, hc, hs]

theorem Breakpoint.sameState.closed {b d : Breakpoint} (h : b.sameState d) : (∃ c, d.closure = some c ∧ c.state = .closed) → d = b := by
  rintro ⟨c, hc, hs⟩
  obtain ⟨-, -, hopen, hnot⟩ := h
  have hd := Breakpoint.not_open_of_closed hc hs
  cases hb : b.isOpen with
  | false => exact hnot hb
  | true => exact (nomatch hd.symm.trans (hopen hb))

/-- The profile changed index by index, each closure part within OPEN alone. -/
theorem Line.segSame_profile (l : Line) (g : Breakpoint × Nat → Breakpoint) (hg : ∀ (b : Breakpoint) (k : Nat), l.profile[k]? = some b → b.sameState (g (b, k))) :
    l.segSame { l with profile := l.profile.zipIdx.map g } := by
  have hget : ∀ k, ({ l with profile := l.profile.zipIdx.map g } : Line).profile[k]? = (l.profile[k]?).map (fun b => g (b, k)) :=
    fun k => getElem?_zipIdx_map g l.profile k
  refine ⟨rfl, Line.points_of_getElem? (fun k => ?_), fun k b => ?_, fun hu b hb => ?_, fun st h => ⟨st, h, rfl⟩, fun h => h,
    fun r h => ⟨r, h, rfl, fun h => h⟩⟩
  · rw [hget]
    cases hb : l.profile[k]? with
    | none => rfl
    | some b => exact congrArg some (hg b k hb).1
  · unfold Line.closedAt
    rw [hget]
    constructor
    · rintro ⟨hb, hc⟩
      obtain ⟨b', hb', rfl⟩ := Option.map_eq_some_iff.mp hb
      have he := (hg b' k hb').closed hc
      rw [he] at hc ⊢
      exact ⟨hb', hc⟩
    · rintro ⟨hb, c, hc, hs⟩
      refine ⟨?_, c, hc, hs⟩
      rw [hb]
      exact congrArg some ((hg b k hb).2.2.2 (Breakpoint.not_open_of_closed hc hs))
  · obtain ⟨k, hk⟩ := List.mem_iff_getElem?.mp hb
    rw [hget] at hk
    obtain ⟨b', hb', rfl⟩ := Option.map_eq_some_iff.mp hk
    exact (hg b' k hb').2.1 (hu b' (List.mem_of_getElem? hb'))

/-! ## Entered, applied, ended (R7, R128, R129, R130, R157) -/

/-- The points before an index are below it. -/
theorem ascending.lt {ps : List Point} (h : ascending ps) {i j : Nat} {p q : Point} (hi : ps[i]? = some p) (hj : ps[j]? = some q) (hij : i < j) :
    p.chainage < q.chainage := by
  obtain ⟨hlt, rfl⟩ := List.getElem?_eq_some_iff.mp hi
  obtain ⟨hlt', rfl⟩ := List.getElem?_eq_some_iff.mp hj
  exact List.pairwise_iff_getElem.mp h.1 i j hlt hlt' hij

theorem ascending.index_le {ps : List Point} (h : ascending ps) {i j : Nat} {p q : Point} (hi : ps[i]? = some p) (hj : ps[j]? = some q)
    (hpq : p.chainage ≤ q.chainage) : i ≤ j := by
  by_contra hn
  have := h.lt hj hi (not_le.mp hn)
  omega

theorem lengthOf_of_getLast {ps : List Point} {z : Point} (h : ps.getLast? = some z) : lengthOf ps = z.chainage := by
  unfold lengthOf
  rw [h]

theorem lengthOf_of_getElem? {ps : List Point} {z : Point} (h : ps[ps.length - 1]? = some z) : lengthOf ps = z.chainage := by
  rw [← List.getLast?_eq_getElem?] at h
  exact lengthOf_of_getLast h

/-- An inner breakpoint lies below the length. -/
theorem ascending.lt_length {ps : List Point} (h : ascending ps) {k : Nat} {p : Point} (hk : ps[k]? = some p) (hlt : k + 1 < ps.length) :
    p.chainage < lengthOf ps := by
  obtain ⟨z, hz⟩ : ∃ z, ps[ps.length - 1]? = some z := ⟨_, List.getElem?_eq_getElem (by omega)⟩
  rw [lengthOf_of_getElem? hz]
  exact h.lt hk hz (by omega)

/-- The line with segment k entered. -/
def Line.entered (l : Line) (k : Nat) : Line := { l with profile := updNth k (fun b => { b with closure := some Closure.entered }) l.profile }

theorem Line.entered_getElem? (l : Line) (k i : Nat) :
    (l.entered k).profile[i]? = (l.profile[i]?).map (fun b => if i = k then { b with closure := some Closure.entered } else b) :=
  getElem?_updNth k (fun b => { b with closure := some Closure.entered }) l.profile i

theorem Line.entered_points (l : Line) (k : Nat) : (l.entered k).points = l.points := by
  refine Line.points_of_getElem? (fun i => ?_)
  rw [Line.entered_getElem?, Option.map_map]
  congr 1
  funext b
  show (if i = k then ({ b with closure := some Closure.entered } : Breakpoint) else b).point = b.point
  split <;> rfl

/-- The CLOSED segments of a line with a segment entered are those before, the segment entered apart. -/
theorem Line.closedAt_entered {l : Line} {k i : Nat} {b : Breakpoint} : (l.entered k).closedAt i b ↔ i ≠ k ∧ l.closedAt i b := by
  unfold Line.closedAt
  rw [Line.entered_getElem?]
  by_cases hik : i = k
  · constructor
    · rintro ⟨hb, c, hc, hs⟩
      simp only [if_pos hik] at hb
      obtain ⟨b', -, rfl⟩ := Option.map_eq_some_iff.mp hb
      cases hc
      cases hs
    · rintro ⟨hne, -⟩
      exact absurd hik hne
  · simp [hik]

/-- A segment entered at its start, above every CLOSED segment's end. -/
theorem Line.lawAt_entered {l : Line} {x : Int} (h : l.lawAt x) (hact : l.isActive = true) {k : Nat} {p : Point} (hk : l.points[k]? = some p)
    (hx : x < p.chainage) : (l.entered k).lawAt p.chainage ∧ l.closedStand (l.entered k) := by
  obtain ⟨h1, h2, -, h4⟩ := h
  have hpoints := l.entered_points k
  have hnot : ∀ i b, l.closedAt i b → l.closedBelow x → i ≠ k := by
    rintro i b hb hbelow rfl
    obtain ⟨q, hq, hqx⟩ := hbelow i b hb
    have := h1.1.lt hk hq (Nat.lt_succ_self i)
    omega
  rw [Line.isActive_run] at hact
  obtain ⟨r, hr⟩ := Option.isSome_iff_exists.mp hact
  have hbelow := (h4 r hr).2.2
  refine ⟨⟨by rwa [hpoints], h2, fun hpl => ?_, fun r hr => ?_⟩, Line.closedStand_of (fun i b hb => ?_) (fun i b q _ hq => by rwa [hpoints])⟩
  · rw [show (l.entered k).lifecycle = l.lifecycle from rfl, Line.lifecycle_of_run hr] at hpl
    cases hpl
  · obtain ⟨ha, hf, hc⟩ := h4 r hr
    refine ⟨ha, hf, fun i b hb => ?_⟩
    obtain ⟨-, hb⟩ := Line.closedAt_entered.mp hb
    obtain ⟨q, hq, hqx⟩ := hc i b hb
    exact ⟨q, by rwa [hpoints], hqx.trans hx.le⟩
  · exact (Line.closedAt_entered.mpr ⟨hnot i b hb hbelow, hb⟩).1

/-! ## The freeze condition (R150, R151) -/

theorem meetsFreeze_iff {st : Store} {l : Line} {f : Option Int} {pts : List Point} {spans : List Span} :
    meetsFreeze st l f pts spans = true ↔ keepsPoints (freezeChainage st l f) l.points pts = true
      ∧ keepsSpans (freezeChainage st l f) l.spans spans = true ∧ ∀ x ∈ f, x < lengthOf pts := by
  unfold meetsFreeze
  cases f <;> simp [and_assoc]

/-- The lists keep the points up to the first at or above the freeze chainage. -/
theorem keepsPoints_getElem? {freeze : Int} {current lists : List Point} (h : keepsPoints freeze current lists = true) {j : Nat}
    (hj : j ≤ current.findIdx (fun p => decide (freeze ≤ p.chainage))) : lists[j]? = current[j]? := by
  unfold keepsPoints at h
  dsimp only at h
  rw [Bool.and_eq_true, beq_iff_eq] at h
  have h1 := congrArg (fun ps => ps[j]?) h.2
  simp only [List.getElem?_take] at h1
  rwa [if_pos (by omega), if_pos (by omega)] at h1

/-- A point at or below the freeze chainage is kept, with those before it. -/
theorem keepsPoints_le {freeze : Int} {current lists : List Point} (hasc : ascending current) (h : keepsPoints freeze current lists = true)
    {k : Nat} {p : Point} (hk : current[k]? = some p) (hp : p.chainage ≤ freeze) {j : Nat} (hj : j ≤ k) : lists[j]? = current[j]? := by
  refine keepsPoints_getElem? h (hj.trans ?_)
  by_contra hn
  rw [not_le] at hn
  obtain ⟨hlt, -⟩ := List.getElem?_eq_some_iff.mp hk
  have hlt' : current.findIdx (fun p => decide (freeze ≤ p.chainage)) < current.length := by omega
  have hfound := List.findIdx_getElem (p := fun p : Point => decide (freeze ≤ p.chainage)) (w := hlt')
  have := hasc.lt (List.getElem?_eq_getElem hlt') hk hn
  have := of_decide_eq_true hfound
  omega

theorem Line.applied_points (l : Line) (st : Staged) : (l.applied st).points = st.profile := by
  refine List.ext_getElem? (fun k => ?_)
  rw [Line.points_getElem?]
  show ((st.profile.zipIdx.map _)[k]?).map _ = _
  rw [getElem?_zipIdx_map, Option.map_map]
  cases st.profile[k]? <;> rfl

theorem Line.applied_profile_getElem? (l : Line) (st : Staged) (k : Nat) : (l.applied st).profile[k]? =
    (st.profile[k]?).map (fun p => { point := p, closure := (l.profile[k]?).bind (fun b => b.closure) }) := getElem?_zipIdx_map _ _ k

/-- A CLOSED segment of the applied lists is one of the line with its points kept. -/
theorem Line.applied_closed {l : Line} {st : Staged} {x freeze : Int} (hasc : ascending l.points) (hbelow : l.closedBelow x) (hx : x ≤ freeze)
    (hkeeps : keepsPoints freeze l.points st.profile = true) {k : Nat} {b : Breakpoint} (hb : l.closedAt k b) :
    (l.applied st).profile[k]? = some b ∧ st.profile[k + 1]? = l.points[k + 1]? := by
  obtain ⟨p, hp, hpx⟩ := hbelow k b hb
  have hkept := fun j (hj : j ≤ k + 1) => keepsPoints_le hasc hkeeps hp (hpx.trans hx) hj
  refine ⟨?_, hkept _ (le_refl _)⟩
  rw [Line.applied_profile_getElem?, hkept k (Nat.le_succ k), Line.points_getElem?, hb.1]
  rfl

theorem Line.closedAt_of_applied {l : Line} {st : Staged} {k : Nat} {b : Breakpoint} (hb : (l.applied st).closedAt k b) : ∃ b', l.closedAt k b' := by
  obtain ⟨hb, c, hc, hs⟩ := hb
  rw [Line.applied_profile_getElem?] at hb
  obtain ⟨p, -, rfl⟩ := Option.map_eq_some_iff.mp hb
  obtain ⟨b', hb', hc'⟩ := Option.bind_eq_some_iff.mp hc
  exact ⟨b', hb', c, hc', hs⟩

theorem Line.applied_staged? {l : Line} {st : Staged} : (l.applied st).staged? = none := l.setStaged_none_staged?
theorem Line.applied_planned {l : Line} {st : Staged} (h : (l.applied st).lifecycle = .planned) : l.lifecycle = .planned :=
  Line.lifecycle_planned_iff (m := l.setStaged none) (by rw [Line.setStaged_kind]) h

theorem Line.applied_unentered {l : Line} {st : Staged} (h : l.unentered) : (l.applied st).unentered := by
  intro b hb
  obtain ⟨k, hk⟩ := List.mem_iff_getElem?.mp hb
  rw [Line.applied_profile_getElem?] at hk
  obtain ⟨p, -, rfl⟩ := Option.map_eq_some_iff.mp hk
  cases hb' : l.profile[k]? with
  | none => rfl
  | some b' => exact h b' (List.mem_of_getElem? hb')

/-- The CLOSED segments below the freeze chainage stand in the applied lists. -/
theorem Line.applied_closedStand {l : Line} {st : Staged} {x freeze : Int} (hasc : ascending l.points) (hbelow : l.closedBelow x) (hx : x ≤ freeze)
    (hkeeps : keepsPoints freeze l.points st.profile = true) : l.closedStand (l.applied st) := by
  refine Line.closedStand_of (fun k b hb => (Line.applied_closed hasc hbelow hx hkeeps hb).1) (fun k b p hb hp => ?_)
  rw [Line.applied_points, (Line.applied_closed hasc hbelow hx hkeeps hb).2, hp]

theorem Line.applied_closedBelow {l : Line} {st : Staged} {x freeze : Int} (hasc : ascending l.points) (hbelow : l.closedBelow x) (hx : x ≤ freeze)
    (hkeeps : keepsPoints freeze l.points st.profile = true) : (l.applied st).closedBelow x := by
  intro k b hb
  obtain ⟨b', hb'⟩ := Line.closedAt_of_applied hb
  obtain ⟨p, hp, hpx⟩ := hbelow k b' hb'
  exact ⟨p, by rw [Line.applied_points, (Line.applied_closed hasc hbelow hx hkeeps hb').2, hp], hpx⟩

/-- The freeze chainage is not below an F that is below the length. -/
theorem le_freezeChainage {st : Store} {l : Line} {f : Int} (hlead : 0 ≤ st.settings.freezeLead) (hf : f ≤ l.length) :
    f ≤ freezeChainage st l (some f) := by
  show f ≤ min (f + st.settings.freezeLead) l.length
  omega

/-- An application at F, on the way of an advance. -/
theorem Line.lawAt_applied {l : Line} {st : Staged} {b : Store} {x : Int} (h : l.lawAt x) (hact : l.isActive = true) (hst : l.staged? = some st)
    (hlead : 0 ≤ b.settings.freezeLead) (hx : x ≤ l.length) (hfreeze : meetsFreeze b l (some x) st.profile st.spans = true) :
    (l.applied st).lawAt x ∧ l.closedStand (l.applied st) := by
  obtain ⟨h1, h2, h3, h4⟩ := h
  obtain ⟨hkeeps, -, -⟩ := meetsFreeze_iff.mp hfreeze
  have hle := le_freezeChainage (st := b) hlead hx
  rw [Line.isActive_run] at hact
  obtain ⟨r, hr⟩ := Option.isSome_iff_exists.mp hact
  have hbelow := (h4 r hr).2.2
  refine ⟨⟨?_, fun st' hst' => ?_, fun hp => Line.applied_unentered (h3 (Line.applied_planned hp)), fun r' hr' => ?_⟩,
    Line.applied_closedStand h1.1 hbelow hle hkeeps⟩
  · rw [Line.applied_points]
    exact h2 st hst
  · rw [Line.applied_staged?] at hst'
    cases hst'
  · rw [Line.applied_run?] at hr'
    obtain ⟨ha, hf, -⟩ := h4 r' hr'
    exact ⟨ha, hf, Line.applied_closedBelow h1.1 hbelow hle hkeeps⟩

/-- An application while the run does not dig. -/
theorem Line.law_applied {l : Line} {st : Staged} {b : Store} {r : RunContext} (h : l.segmentLaw) (hr : l.run? = some r) (hst : l.staged? = some st)
    (hlead : 0 ≤ b.settings.freezeLead) (hfreeze : meetsFreeze b l r.furthest st.profile st.spans = true) :
    (l.applied st).segmentLaw ∧ l.closedStand (l.applied st) := by
  obtain ⟨h1, h2, h3, h4⟩ := Line.segmentLaw_iff.mp h
  obtain ⟨ha, hnone, hsome⟩ := h4 r hr
  obtain ⟨hkeeps, -, hlen⟩ := meetsFreeze_iff.mp hfreeze
  have hlaid : laidOut (l.applied st).points := by
    rw [Line.applied_points]
    exact h2 st hst
  have hstaged : ∀ st' ∈ (l.applied st).staged?, laidOut st'.profile := by
    rw [Line.applied_staged?]
    exact fun st' hst' => (nomatch hst')
  have hplanned : (l.applied st).lifecycle = .planned → (l.applied st).unentered := fun hp => Line.applied_unentered (h3 (Line.applied_planned hp))
  have hrun : ∀ r' ∈ (l.applied st).run?, r' = r := by
    rw [Line.applied_run?, hr]
    exact fun r' hr' => (Option.some.inj hr').symm
  cases hf : r.furthest with
  | none =>
    have hu := hnone hf
    refine ⟨Line.segmentLaw_iff.mpr ⟨hlaid, hstaged, hplanned, fun r' hr' => ?_⟩, Line.closedStand_of_not_closed hu.not_closed⟩
    rw [hrun r' hr', hf]
    exact ⟨fun _ => rfl, fun _ => Line.applied_unentered hu, fun f hf' => (nomatch hf')⟩
  | some f =>
    obtain ⟨hlt, hbelow⟩ := hsome f hf
    rw [hf] at hkeeps hlen
    have hle := le_freezeChainage (st := b) hlead hlt.le
    refine ⟨Line.segmentLaw_iff.mpr ⟨hlaid, hstaged, hplanned, fun r' hr' => ?_⟩, Line.applied_closedStand h1.1 hbelow hle hkeeps⟩
    rw [hrun r' hr', hf]
    refine ⟨fun h0 => (nomatch (ha h0).symm.trans hf), fun h0 => (nomatch h0), fun f' hf' => ?_⟩
    cases hf'
    exact ⟨by rw [Line.length, Line.applied_points]; exact hlen f rfl, Line.applied_closedBelow h1.1 hbelow hle hkeeps⟩

/-! ## Closing (R8, R129, R130) -/

theorem Breakpoint.close_closed {b : Breakpoint} (h : ∃ c, b.closure = some c ∧ c.state = .closed) : b.updOpen Closure.close = b := by
  obtain ⟨c, hc, hs⟩ := h
  unfold Breakpoint.updOpen
  rw [hc]
  simp [hs]

theorem Breakpoint.updOpen_point (b : Breakpoint) (f : Closure → Closure) : (b.updOpen f).point = b.point := by
  unfold Breakpoint.updOpen
  split
  · split <;> rfl
  · rfl

theorem Line.closeAll_points (l : Line) : l.closeAll.points = l.points := by
  unfold Line.points Line.closeAll
  rw [List.map_map]
  congr 1
  funext b
  exact b.updOpen_point _

theorem Line.closeAll_closedStand (l : Line) : l.closedStand l.closeAll := by
  refine Line.closedStand_of (fun k b hb => ?_) (fun k b p _ hp => by rwa [Line.closeAll_points])
  show (l.profile.map _)[k]? = some b
  rw [List.getElem?_map, hb.1]
  exact congrArg some (Breakpoint.close_closed hb.2)

/-- The profile with the segments closed that end at F − BACKUP or before. -/
def Line.closePassed (l : Line) (backup f : Int) : Line := { l with profile := closeEnded l.profile backup f }

theorem Line.closePassed_getElem? (l : Line) (backup f : Int) (k : Nat) : (l.closePassed backup f).profile[k]? =
    (l.profile[k]?).map (fun b => if closesAt l.profile k b backup f then b.updOpen Closure.close else b) := getElem?_zipIdx_map _ _ k

theorem Line.closePassed_points (l : Line) (backup f : Int) : (l.closePassed backup f).points = l.points := by
  refine Line.points_of_getElem? (fun k => ?_)
  rw [Line.closePassed_getElem?, Option.map_map]
  congr 1
  funext b
  show (if _ then b.updOpen Closure.close else b).point = b.point
  split
  · exact b.updOpen_point _
  · rfl

theorem closesAt_end {bs : List Breakpoint} {k : Nat} {b : Breakpoint} {backup f : Int} (h : closesAt bs k b backup f = true) :
    ∃ e, bs[k + 1]? = some e ∧ e.point.chainage + backup ≤ f := by
  unfold closesAt segmentEnd? at h
  rw [Bool.and_eq_true, Option.any_eq_true] at h
  obtain ⟨-, stop, hstop, hle⟩ := h
  obtain ⟨e, he, rfl⟩ := Option.map_eq_some_iff.mp hstop
  exact ⟨e, he, of_decide_eq_true hle⟩

theorem Line.closePassed_law {l : Line} {x f backup : Int} (hbelow : l.closedBelow x) (hx : x ≤ f) (hb : 0 ≤ backup) :
    (l.closePassed backup f).closedBelow f ∧ l.closedStand (l.closePassed backup f) := by
  refine ⟨fun k b hb' => ?_, Line.closedStand_of (fun k b hb' => ?_) (fun k b p _ hp => by rwa [Line.closePassed_points])⟩
  · rw [Line.closePassed_points]
    obtain ⟨hk, hc⟩ := hb'
    rw [Line.closePassed_getElem?] at hk
    obtain ⟨b', hk', rfl⟩ := Option.map_eq_some_iff.mp hk
    split at hc
    · rename_i hclose
      obtain ⟨e, he, hle⟩ := closesAt_end hclose
      exact ⟨e.point, by rw [Line.points_getElem?, he]; rfl, by omega⟩
    · obtain ⟨p, hp, hpx⟩ := hbelow k b' ⟨hk', hc⟩
      exact ⟨p, hp, hpx.trans hx⟩
  · rw [Line.closePassed_getElem?, hb'.1]
    show some (if _ then b.updOpen Closure.close else b) = _
    rw [Breakpoint.close_closed hb'.2, ite_self]

end Sys2Proof.Machine
end

section
/-! PROOF. The segments of the lines under the module's own work (R4 to R9): the operations that leave them, and those of the advance of
F that enter, close or replace them. -/
namespace Sys2Proof.Machine

/-! ## Operations that leave the segments -/

/-- The records keep their segments. -/
def State.segSame (s t : State) : Prop := ∃ f : Line → Line, t.store.lines = s.store.lines.map f ∧ ∀ l : Line, l.segSame (f l)

theorem State.segSame_of_lines {s t : State} (h : t.store.lines = s.store.lines) : s.segSame t :=
  ⟨fun l => l, by rw [h, List.map_id'], Line.segSame_refl⟩

theorem State.segSame_refl (s : State) : s.segSame s := State.segSame_of_lines rfl

theorem State.segSame.trans {s t u : State} (h : s.segSame t) (h' : t.segSame u) : s.segSame u := by
  obtain ⟨f, hf, hl⟩ := h
  obtain ⟨g, hg, hl'⟩ := h'
  exact ⟨g ∘ f, by rw [hg, hf, List.map_map], fun l => (hl l).trans (hl' _)⟩

theorem State.segSame_mapLines (s : State) {f : Line → Line} (hf : ∀ l : Line, l.segSame (f l)) : s.segSame (s.mapLines f) := ⟨f, rfl, hf⟩

theorem State.segSame_updActive (s : State) {f : Line → Line} (hf : ∀ l : Line, l.segSame (f l)) : s.segSame (s.updActive f) :=
  s.segSame_mapLines (fun l => by split; exacts [hf l, l.segSame_refl])

theorem State.segSame_updRun (s : State) {f : RunContext → RunContext}
    (hf : ∀ r, (f r).furthest = r.furthest ∧ ((f r).state = .armed → r.state = .armed)) : s.segSame (s.updRun f) :=
  s.segSame_updActive (fun l => l.segSame_updRun hf)

/-- A change of the run contexts that leaves run state and F. -/
theorem State.segSame_updRun_still (s : State) {f : RunContext → RunContext} (hf : ∀ r, (f r).furthest = r.furthest ∧ (f r).state = r.state) :
    s.segSame (s.updRun f) := s.segSame_updRun (fun r => ⟨(hf r).1, fun h => (hf r).2.symm.trans h⟩)

theorem State.segSame_ite {s t : State} {c : Prop} [Decidable c] (h : s.segSame t) : s.segSame (if c then t else s) := by
  split
  · exact h
  · exact s.segSame_refl

theorem State.segSame_noteDropIf (s : State) (l : Line) (r : DropReason) : s.segSame (s.noteDropIf l r) :=
  State.segSame_ite (State.segSame_of_lines rfl)

theorem State.segSame_markLines (s : State) (hit : Line → Bool) : s.segSame (s.markLines hit) := by
  obtain ⟨hlines, -⟩ := State.markLines_marked s hit
  exact ⟨_, hlines, fun l => by split; exacts [l.segSame_marked, l.segSame_refl]⟩

theorem State.segSame_markingChange (s : State) (c : Change) : s.segSame (s.markingChange c) :=
  State.segSame.trans (State.segSame_of_lines (t := s.reach c) rfl) (State.segSame_markLines _ _)

theorem State.segSame_unitWorks {s t : State} (h : State.unitWorks s t) : s.segSame t := by
  obtain ⟨-, hst, -⟩ := h
  exact State.segSame_of_lines (by rw [hst])

theorem State.segSame_status (s : State) (id : Nat) (x : CheckStatus) : s.segSame (s.updLine id (fun l => { l with status := x })) :=
  s.segSame_mapLines (fun l => by split; exacts [l.segSame_status x, l.segSame_refl])

theorem State.segSame_checkWritten (s : State) (f : InFlight) : s.segSame (s.checkWritten f) := by
  unfold State.checkWritten
  split
  · exact s.segSame_refl
  · split
    · exact s.segSame_refl
    · unfold State.writeResult
      split
      · exact s.segSame_status _ _
      · exact State.segSame.trans (s.segSame_status _ _) (State.segSame_of_lines rfl)

theorem State.segSame_updRecheck (s : State) (f : Recheck → Recheck) : s.segSame (s.updRecheck f) := State.segSame_of_lines rfl

theorem State.segSame_finishRecheck (s : State) (f : InFlight) : s.segSame (s.finishRecheck f) := by
  rw [State.finishRecheck_eq]
  exact ((((s.segSame_checkWritten f).trans (State.segSame_updRecheck _ _)).trans (State.segSame_unitWorks (State.unitWorks_carryAfter _ _))).trans
    (State.segSame_unitWorks (State.unitWorks_sweptTest _))).trans (State.segSame_unitWorks (State.unitWorks_lookForWork _))

theorem State.segSame_changeRun (s : State) {r : RunState} (hr : r ≠ .armed) : s.segSame (s.changeRun r) := by
  have h : s.segSame (s.updRun (fun c => { c with state := r })) := s.segSame_updRun (fun c => ⟨rfl, fun h => absurd h hr⟩)
  exact h.trans (State.segSame_of_lines (congrArg Store.lines (s.changeRun_store r)))

theorem State.segSame_haltDigging (s : State) (h : HaltReason) : s.segSame (s.haltDigging h) :=
  State.segSame_ite (s.segSame_changeRun (fun h => (nomatch h)))

theorem State.segSame_haltGrade (s : State) : s.segSame s.haltGrade := State.segSame_ite (s.segSame_changeRun (fun h => (nomatch h)))

theorem State.segSame_suspendDigging (s : State) (r : SuspendReason) : s.segSame (s.suspendDigging r) :=
  State.segSame_ite (s.segSame_changeRun (fun h => (nomatch h)))

theorem State.segSame_enterCoasting (s : State) : s.segSame s.enterCoasting := by
  have h : s.segSame ((s.updRunUnit (fun u => { u with coast := 0 })).changeRun .coasting) :=
    State.segSame.trans (State.segSame_of_lines rfl) (State.segSame_changeRun _ (fun h => (nomatch h)))
  unfold State.enterCoasting
  dsimp only
  split
  · exact h.trans (State.segSame_changeRun _ (fun h => (nomatch h)))
  · exact h

theorem State.segSame_afterSwitch (s : State) : s.segSame s.afterSwitch := by
  unfold State.afterSwitch
  split
  · split
    · exact State.segSame_of_lines rfl
    · exact s.segSame_enterCoasting
  · exact s.segSame_refl

theorem State.segSame_moveServing (s : State) (held : Option StationId) : s.segSame (s.moveServing held) := by
  unfold State.moveServing
  split
  · dsimp only
    split
    · exact s.segSame_refl
    · exact State.segSame.trans (State.segSame_of_lines rfl) (State.segSame_afterSwitch _)
  · exact State.segSame_ite (State.segSame_of_lines rfl)

theorem State.segSame_dropStaged (s : State) (l : Line) (r : DropReason) : s.segSame (s.dropStaged l r) :=
  (s.segSame_updActive (fun k => k.segSame_unstaged)).trans (State.segSame_of_lines rfl)

theorem State.segSame_fitToLength (s : State) (old : Line) : s.segSame (s.fitToLength old) := by
  unfold State.fitToLength
  split
  · exact s.segSame_refl
  · rename_i l _
    have h : s.segSame (s.updRun (fun r => { r with mark1 := keepMark l.length r.mark1, mark2 := keepMark l.length r.mark2 })) :=
      s.segSame_updRun_still (fun r => ⟨rfl, rfl⟩)
    dsimp only
    split
    · exact h.trans (State.segSame_of_lines rfl)
    · exact h

theorem State.segSame_setSettled (s : State) (b : Bool) : s.segSame (s.setSettled b) :=
  s.segSame_updActive (fun l => l.segSame_setStaged (fun x hx => by
    obtain ⟨st, hst, rfl⟩ := Option.map_eq_some_iff.mp hx
    exact ⟨st, hst, rfl⟩))

/-- The profile of the ACTIVE line changed index by index, closure parts within OPEN alone. -/
theorem State.segSame_profile (s : State) {g : Line → Breakpoint × Nat → Breakpoint} (hg : ∀ (l : Line) (b : Breakpoint) (k : Nat), b.sameState (g l (b, k))) :
    s.segSame (s.updActive (fun l => { l with profile := l.profile.zipIdx.map (g l) })) :=
  s.segSame_updActive (fun l => l.segSame_profile (g l) (fun b k _ => hg l b k))

theorem State.segSame_accrue (s : State) (err : Option Int) : s.segSame (s.accrue err) := by
  refine s.segSame_profile (g := fun l e => if e.2 = segmentIndex l.points s.chainage then
    e.1.updOpen (fun k => k.accrue err s.eval.gradeFlag) else e.1) (fun l b k => ?_)
  dsimp only
  split
  · exact b.sameState_updOpen (fun _ => rfl)
  · exact b.sameState_refl

theorem accrueSegment_sameState (bs : List Breakpoint) (old new : Int) (k : Nat) (b : Breakpoint) : b.sameState (accrueSegment bs old new k b) := by
  unfold accrueSegment
  split
  · exact b.sameState_refl
  · exact b.sameState_updOpen (fun _ => rfl)

theorem State.segSame_accrueCoast (s : State) (old new : Int) : s.segSame (s.accrueCoast old new) :=
  s.segSame_profile (g := fun l e => accrueSegment l.profile old new e.2 e.1) (fun l b k => accrueSegment_sameState l.profile old new k b)

theorem State.segSame_addCoast (s : State) (d : Int) : s.segSame (s.addCoast d) := by
  have h : s.segSame (s.updRunUnit (fun u => { u with coast := u.coast + d })) := State.segSame_of_lines rfl
  exact h.trans (State.segSame_ite (State.segSame_changeRun _ (fun h => (nomatch h))))

theorem State.segSame_backtrackTest (s : State) : s.segSame s.backtrackTest := by
  unfold State.backtrackTest
  split
  · exact s.segSame_refl
  · exact State.segSame_ite (s.segSame_haltDigging _)

theorem State.segSame_setReference (s : State) (rd : Reading) : s.segSame (s.setReference rd) := by
  unfold State.setReference
  split
  · exact State.segSame_of_lines rfl
  · exact s.segSame_refl

theorem State.segSame_evaluate (s : State) (rd : Reading) : s.segSame (s.evaluate rd) := by
  have h1 : ∀ out err, s.segSame ((s.updateGrade out).accrue err) := by
    intro out err
    obtain ⟨n, flag, -, h⟩ := s.updateGrade_eq out
    refine State.segSame.trans (State.segSame_of_lines ?_) (State.segSame_accrue _ err)
    rcases h with h | h <;> rw [h] <;> rfl
  unfold State.evaluate
  dsimp only
  split
  · exact (h1 _ _).trans (State.segSame_haltGrade _)
  · exact (h1 _ _).trans (State.segSame.trans (State.segSame_of_lines rfl) (State.segSame_setReference _ rd))

theorem State.segSame_handEvaluator (s : State) (r : EvalRoute) (rd : Reading) : s.segSame (s.handEvaluator r rd) := by
  cases r with
  | evaluation => exact State.segSame.trans (t := s.startTimer _) (State.segSame_of_lines rfl) (State.segSame_evaluate _ rd)
  | coastEnd =>
    have h : s.segSame s.endCoast := (s.segSame_changeRun (r := .cutting) (fun h => (nomatch h))).trans (State.segSame_of_lines rfl)
    exact h.trans (State.segSame_evaluate _ rd)
  | reference => exact s.segSame_setReference rd
  | comparison =>
    show s.segSame (s.compareHandoff rd)
    unfold State.compareHandoff
    split
    · exact State.segSame_ite (s.segSame_haltDigging _)
    · exact s.segSame_refl
  | nothing => exact s.segSame_refl

theorem State.segSame_retieSucceeds (s : State) (c : Int) : s.segSame (s.retieSucceeds c) := by
  have h : s.segSame ((s.updChain (fun k => { k with known := true, position := c * 1000 })).updRun (fun r => { r with retie := false })) :=
    s.segSame_updRun_still (fun r => ⟨rfl, rfl⟩)
  exact h.trans (State.segSame_moveServing _ _)

theorem State.segSame_restart (s : State) : s.segSame s.restart := by
  refine ⟨Line.afterRestart, rfl, fun l => l.segSame_unstaged.trans (Line.segSame_updRun _ (fun r => ?_))⟩
  unfold RunContext.afterRestart
  split
  · exact ⟨rfl, fun h => h⟩
  · exact ⟨rfl, fun h => (nomatch h)⟩

/-! ## Alterations that change the segments -/

/-- The records are altered in place; one that has the law `P` has the law `Q` then, and its CLOSED segments stand. -/
def State.laysAs (P Q : Line → Prop) (s t : State) : Prop :=
  ∃ f : Line → Line, t.store.lines = s.store.lines.map f ∧ ∀ l ∈ s.store.lines, (f l).id = l.id ∧ (P l → Q (f l) ∧ l.closedStand (f l))

theorem State.laysAs.trans {P Q R : Line → Prop} {s t u : State} (h : State.laysAs P Q s t) (h' : State.laysAs Q R t u) : State.laysAs P R s u := by
  obtain ⟨f, hf, hl⟩ := h
  obtain ⟨g, hg, hl'⟩ := h'
  refine ⟨g ∘ f, by rw [hg, hf, List.map_map], fun l hm => ?_⟩
  obtain ⟨hid, hlay⟩ := hl l hm
  obtain ⟨hid', hlay'⟩ := hl' (f l) (by rw [hf]; exact List.mem_map_of_mem hm)
  refine ⟨hid'.trans hid, fun hp => ?_⟩
  obtain ⟨hq, hs⟩ := hlay hp
  obtain ⟨hr, hs'⟩ := hlay' hq
  exact ⟨hr, Line.closedStand_trans hs hs'⟩

theorem State.laysAs_of_lines {P Q : Line → Prop} {s t : State} (h : t.store.lines = s.store.lines) (hpq : ∀ l ∈ s.store.lines, P l → Q l) :
    State.laysAs P Q s t :=
  ⟨fun l => l, by rw [h, List.map_id'], fun l hl => ⟨rfl, fun hp => ⟨hpq l hl hp, l.closedStand_refl⟩⟩⟩

theorem State.laysAs.mono {P Q R : Line → Prop} {s t : State} (h : State.laysAs P Q s t) (hqr : ∀ l, Q l → R l) : State.laysAs P R s t :=
  h.trans (State.laysAs_of_lines rfl (fun l _ => hqr l))

theorem State.segSame.lays {s t : State} (h : s.segSame t) : State.laysAs Line.segmentLaw Line.segmentLaw s t := by
  obtain ⟨f, hf, hl⟩ := h
  exact ⟨f, hf, fun l _ => ⟨(hl l).id, fun hp => ⟨(hl l).law hp, (hl l).closedStand⟩⟩⟩

theorem State.segSame.laysAt {s t : State} (h : s.segSame t) (x : Int) : State.laysAs (Line.lawAt x) (Line.lawAt x) s t := by
  obtain ⟨f, hf, hl⟩ := h
  exact ⟨f, hf, fun l _ => ⟨(hl l).id, fun hp => ⟨(hl l).lawAt hp, (hl l).closedStand⟩⟩⟩

/-- The ACTIVE line altered. -/
theorem State.laysAs_updActive {P Q : Line → Prop} {s : State} {f : Line → Line} (hid : ∀ l : Line, (f l).id = l.id)
    (hact : ∀ l ∈ s.store.lines, l.isActive = true → P l → Q (f l) ∧ l.closedStand (f l))
    (hnot : ∀ l ∈ s.store.lines, l.isActive = false → P l → Q l) : State.laysAs P Q s (s.updActive f) := by
  refine ⟨_, rfl, fun l hl => ?_⟩
  cases h : l.isActive with
  | true => exact ⟨hid l, hact l hl h⟩
  | false => exact ⟨rfl, fun hp => ⟨hnot l hl h hp, l.closedStand_refl⟩⟩

/-- The one ACTIVE line altered. -/
theorem State.laysAs_active {P Q : Line → Prop} {s : State} {f : Line → Line} (hone : s.store.oneActive) {k : Line} (hk : s.active? = some k)
    (hid : ∀ l : Line, (f l).id = l.id) (hact : P k → Q (f k) ∧ k.closedStand (f k)) (hnot : ∀ l : Line, l.isActive = false → P l → Q l) :
    State.laysAs P Q s (s.updActive f) := by
  obtain ⟨hkm, hka⟩ := State.active?_mem hk
  refine State.laysAs_updActive hid (fun l hl ha hp => ?_) (fun l _ => hnot l)
  obtain rfl := Store.oneActive_unique hone hl ha hkm hka
  exact hact hp

theorem Line.lawAt_change_not_active {x y : Int} {l : Line} (hl : l.isActive = false) (h : l.lawAt x) : l.lawAt y :=
  (Line.lawAt_of_not_active hl).mpr ((Line.lawAt_of_not_active hl).mp h)

/-! ## The advance (R102, R128 to R130, R157) -/

theorem Line.lawAt_setFurthest {x : Int} {l : Line} (h : l.lawAt x) (f : Int) :
    (l.updRun (fun r => { r with furthest := some f })).lawAt x ∧ l.closedStand (l.updRun (fun r => { r with furthest := some f })) := by
  obtain ⟨h1, h2, h3, h4⟩ := h
  have hp : (l.updRun (fun r => { r with furthest := some f })).profile = l.profile := l.updRun_profile _
  have hpoints : (l.updRun (fun r => { r with furthest := some f })).points = l.points := by rw [Line.points, hp]; rfl
  have hclosed : ∀ k b, (l.updRun (fun r => { r with furthest := some f })).closedAt k b ↔ l.closedAt k b := fun k b => by
    rw [Line.closedAt, hp]
    rfl
  refine ⟨⟨by rwa [hpoints], fun st hst => h2 st (by rwa [Line.updRun_staged?] at hst), fun hpl => ?_, fun r hr => ?_⟩,
    Line.closedStand_of (fun k b hb => by rw [hp]; exact hb.1) (fun _ _ _ _ h => by rwa [hpoints])⟩
  · unfold Line.unentered
    rw [hp]
    exact h3 (Line.lifecycle_planned_iff (by rw [Line.updRun_kind]) hpl)
  · rw [Line.updRun_run?] at hr
    obtain ⟨r', hr', rfl⟩ := Option.map_eq_some_iff.mp hr
    obtain ⟨ha, -, hc⟩ := h4 r' hr'
    refine ⟨ha, fun h0 => (nomatch h0), fun k b hb => ?_⟩
    rw [hpoints]
    exact hc k b ((hclosed k b).mp hb)

theorem State.laysAt_setFurthest (s : State) (x f : Int) : State.laysAs (Line.lawAt x) (Line.lawAt x) s (s.setFurthest f) :=
  State.laysAs_updActive (fun l => l.updRun_id _) (fun _ _ _ hp => Line.lawAt_setFurthest hp f) (fun _ _ _ hp => hp)

/-- A segment entered at its start. -/
theorem State.laysAt_enterSegment {s : State} (hone : s.store.oneActive) {l : Line} (hl : s.active? = some l) {x : Int} {k : Nat} {p : Point}
    (hk : l.points[k]? = some p) (hx : x < p.chainage) : State.laysAs (Line.lawAt x) (Line.lawAt p.chainage) s (s.enterSegment k) :=
  State.laysAs_active (f := fun l => l.entered k) hone hl (fun _ => rfl)
    (fun hp => Line.lawAt_entered hp (State.active?_mem hl).2 hk hx) (fun _ => Line.lawAt_change_not_active)

theorem State.segSame_applyRest (s : State) (l : Line) (marks : Line → Bool) (held : Option StationId) :
    s.segSame ((((((s.reach (.parent l.id)).discardCheck l.id).markLines marks).fitToLength l).moveServing held).raise .revised) := by
  have h : s.segSame ((s.reach (.parent l.id)).discardCheck l.id) := State.segSame_of_lines rfl
  exact (((h.trans (State.segSame_markLines _ _)).trans (State.segSame_fitToLength _ _)).trans (State.segSame_moveServing _ _)).trans
    (State.segSame_of_lines rfl)

/-- A staged revision applied on the way of an advance, or dropped. -/
theorem State.laysAt_applyOrDrop {s : State} (hone : s.store.oneActive) {l : Line} (hl : s.active? = some l) {st : Staged}
    (hst : l.staged? = some st) (hlead : 0 ≤ s.settings.freezeLead) {x : Int} (hf : s.furthest? = some x) (hx : x ≤ l.length) :
    State.laysAs (Line.lawAt x) (Line.lawAt x) s (s.applyOrDrop l st) := by
  unfold State.applyOrDrop
  rw [hf]
  split
  · rename_i hfreeze
    have h : State.laysAs (Line.lawAt x) (Line.lawAt x) s (s.proceedChecks.updActive (fun l => l.applied st)) :=
      State.laysAs_active (s := s.proceedChecks) hone hl (fun l => l.applied_id st)
        (fun hp => Line.lawAt_applied hp (State.active?_mem hl).2 hst hlead hx hfreeze) (fun _ _ hp => hp)
    exact h.trans ((State.segSame_applyRest _ l _ _).laysAt x)
  · exact (s.segSame_dropStaged l _).laysAt x

/-- A staged revision applied at once, or dropped (R153). -/
theorem State.lays_applyOrDrop {s : State} (hone : s.store.oneActive) {l : Line} (hl : s.active? = some l) {st : Staged}
    (hst : l.staged? = some st) (hlead : 0 ≤ s.settings.freezeLead) :
    State.laysAs Line.segmentLaw Line.segmentLaw s (s.applyOrDrop l st) := by
  obtain ⟨r, hr⟩ : ∃ r, l.run? = some r := by
    have := (State.active?_mem hl).2
    rw [Line.isActive_run] at this
    exact Option.isSome_iff_exists.mp this
  have hf : s.furthest? = r.furthest := by
    rw [State.furthest?, State.context?_of hl hr]
    rfl
  unfold State.applyOrDrop
  rw [hf]
  split
  · rename_i hfreeze
    have h : State.laysAs Line.segmentLaw Line.segmentLaw s (s.proceedChecks.updActive (fun l => l.applied st)) :=
      State.laysAs_active (s := s.proceedChecks) hone hl (fun l => l.applied_id st)
        (fun hp => Line.law_applied hp hr hst hlead hfreeze) (fun _ _ hp => hp)
    exact h.trans (State.segSame_applyRest _ l _ _).lays
  · exact (s.segSame_dropStaged l _).lays

/-- A line that leaves ACTIVE, closed, for a lifecycle that is not PLANNED. -/
theorem Line.law_left {l : Line} (hlaid : laidOut l.points) {x : Lifecycle} (hx : x.kind ≠ .active ∧ x ≠ .planned) :
    ({ l.closeAll with lifecycle := x } : Line).segmentLaw ∧ l.closedStand { l.closeAll with lifecycle := x } := by
  have hstaged : ({ l.closeAll with lifecycle := x } : Line).staged? = none ∧ ({ l.closeAll with lifecycle := x } : Line).run? = none := by
    cases x with
    | active r st => exact absurd rfl hx.1
    | _ => exact ⟨rfl, rfl⟩
  refine ⟨Line.segmentLaw_iff.mpr ⟨?_, ?_, fun hp => absurd hp hx.2, ?_⟩, l.closeAll_closedStand⟩
  · rw [show ({ l.closeAll with lifecycle := x } : Line).points = l.closeAll.points from rfl, Line.closeAll_points]
    exact hlaid
  · rw [hstaged.1]
    exact fun st h => (nomatch h)
  · rw [hstaged.2]
    exact fun r h => (nomatch h)

theorem State.updActive_updActive (s : State) {f : Line → Line} (hf : ∀ l : Line, (f l).isActive = l.isActive) (g : Line → Line) :
    (s.updActive f).updActive g = s.updActive (fun l => g (f l)) := by
  refine congrArg s.setLines ((List.map_map ..).trans (List.map_congr_left (fun l _ => ?_)))
  cases h : l.isActive with
  | true => simp [h, hf]
  | false => simp [h]

theorem State.complete_lines (s : State) (l : Line) :
    (s.complete l).store.lines = (s.updActive (fun k => { k.closeAll with lifecycle := .complete })).store.lines := by
  rw [← State.updActive_updActive s (f := Line.closeAll) (fun _ => rfl) (fun k => { k with lifecycle := .complete })]
  unfold State.complete State.noteDropIf
  dsimp only
  split <;> split <;> rfl

/-- The line completes: it is COMPLETE with every segment CLOSED. -/
theorem State.laysAt_complete (s : State) (l : Line) (x y : Int) : State.laysAs (Line.lawAt x) (Line.lawAt y) s (s.complete l) := by
  refine State.laysAs.trans ?_ (State.laysAs_of_lines (s.complete_lines l) (fun _ _ h => h))
  refine State.laysAs_updActive (fun _ => rfl) (fun k _ _ hp => ?_) (fun k _ ha hp => Line.lawAt_change_not_active ha hp)
  obtain ⟨hlaw, hstand⟩ := Line.law_left (l := k) hp.1 (x := .complete) ⟨fun h => (nomatch h), fun h => (nomatch h)⟩
  exact ⟨(Line.lawAt_of_not_active (l := { k.closeAll with lifecycle := .complete }) rfl).mpr hlaw, hstand⟩

end Sys2Proof.Machine
end

section
/-! PROOF. The walk of an advance (R102) comes to its end: every point met takes away one of those ahead, and the fuel is no less than
they are. So the new F lies below the length, or the line has completed. -/
namespace Sys2Proof.Machine

/-! ## The order of the points -/

theorem Meeting.before_iff {x y : Meeting} :
    x.before y = true ↔ x.chainage < y.chainage ∨ x.chainage = y.chainage ∧ x.kind.rank < y.kind.rank := by
  simp [Meeting.before]

theorem Meeting.not_before_iff {x y : Meeting} :
    x.before y = false ↔ y.chainage < x.chainage ∨ x.chainage = y.chainage ∧ y.kind.rank ≤ x.kind.rank := by
  rw [← Bool.not_eq_true, Meeting.before_iff]
  omega

/-- Nothing in the list comes before the earliest. -/
theorem earliest_first {ms : List Meeting} {m : Meeting} (h : earliest ms = some m) : ∀ y ∈ ms, y.before m = false := by
  induction ms generalizing m with
  | nil => cases h
  | cons x xs ih =>
    unfold earliest at h
    split at h
    · rename_i hn
      cases h
      rw [earliest_eq_none.mp hn]
      intro y hy
      rw [List.mem_singleton.mp hy, Meeting.not_before_iff]
      omega
    · rename_i z hz
      have hfirst := ih hz
      split at h
      · rename_i hzx
        cases h
        intro y hy
        rcases List.mem_cons.mp hy with rfl | hy
        · rw [Meeting.before_iff] at hzx
          rw [Meeting.not_before_iff]
          omega
        · exact hfirst y hy
      · rename_i hzx
        cases h
        rw [Bool.not_eq_true, Meeting.not_before_iff] at hzx
        intro y hy
        rcases List.mem_cons.mp hy with rfl | hy
        · rw [Meeting.not_before_iff]
          omega
        · have := Meeting.not_before_iff.mp (hfirst y hy)
          rw [Meeting.not_before_iff]
          omega

/-! ## The points ahead -/

/-- What the points of the ACTIVE line come from: its points, the profile of a staged revision, the marks. -/
structure Course where
  points : List Point
  staged : Option (List Point)
  mark1 : Option Mark
  mark2 : Option Mark

def Line.course? (l : Line) : Option Course :=
  l.run?.map (fun r => { points := l.points, staged := l.staged?.map (fun st => st.profile), mark1 := r.mark1, mark2 := r.mark2 })

def State.course? (s : State) : Option Course := s.active?.bind Line.course?

/-- The inner points of a profile, which F crosses. -/
def innerPoints (ps : List Point) : List Point := (ps.drop 1).dropLast

/-- How many points the walk can still meet above `x`: crossings, those of a staged revision and an end warning that its application may
renew, marks, the end warning, completion. -/
def Course.ahead (c : Course) (warned : Bool) (x : Int) : Nat :=
  ((innerPoints c.points).filter (fun p => decide (x < p.chainage))).length + (c.staged.map (fun ps => ps.length + 1)).getD 0
    + c.mark1.toList.length + c.mark2.toList.length + (if warned then 0 else 1) + 1

def State.ahead (s : State) (x : Int) : Nat := (s.course?.map (fun c => c.ahead s.chain.endWarned x)).getD 0

/-- The completion of a course. -/
def Course.completion (c : Course) : Meeting := { chainage := lengthOf c.points, kind := .completion }

theorem State.course?_of {s : State} {l : Line} {r : RunContext} (hl : s.active? = some l) (hr : l.run? = some r) :
    s.course? = some { points := l.points, staged := l.staged?.map (fun st => st.profile), mark1 := r.mark1, mark2 := r.mark2 } := by
  rw [State.course?, hl]
  show l.course? = _
  rw [Line.course?, hr]
  rfl

theorem State.active?_of_course {s : State} {c : Course} (h : s.course? = some c) : ∃ l r, s.active? = some l ∧ l.run? = some r
    ∧ c = { points := l.points, staged := l.staged?.map (fun st => st.profile), mark1 := r.mark1, mark2 := r.mark2 } := by
  obtain ⟨l, hl, hc⟩ := Option.bind_eq_some_iff.mp h
  obtain ⟨r, hr, hc⟩ := Option.map_eq_some_iff.mp hc
  exact ⟨l, r, hl, hr, hc.symm⟩

theorem Line.isActive_course (l : Line) : l.isActive = l.course?.isSome := by
  rw [Line.isActive_run, Line.course?, Option.isSome_map]

theorem State.course?_updActive {s : State} {f : Line → Line} (hf : ∀ l : Line, (f l).course? = l.course?) : (s.updActive f).course? = s.course? := by
  rw [State.course?, State.updActive_active? (fun l h => by rwa [Line.isActive_course, hf, ← Line.isActive_course])]
  show (s.active?.map f).bind _ = s.active?.bind _
  cases s.active? with
  | none => rfl
  | some l => exact hf l

/-- A change of run contexts seen in the course. -/
theorem State.course?_updRun (s : State) {f : RunContext → RunContext} {g : Course → Course}
    (hg : ∀ ps st r, ({ points := ps, staged := st, mark1 := (f r).mark1, mark2 := (f r).mark2 } : Course)
      = g { points := ps, staged := st, mark1 := r.mark1, mark2 := r.mark2 }) : (s.updRun f).course? = s.course?.map g := by
  unfold State.course?
  rw [State.updRun_active?]
  cases s.active? with
  | none => rfl
  | some l =>
    show (l.updRun f).course? = l.course?.map g
    have hp : (l.updRun f).points = l.points := by
      rw [Line.points, Line.updRun_profile]
      rfl
    rw [Line.course?, Line.course?, Line.updRun_run?, Line.updRun_staged?, hp, Option.map_map, Option.map_map]
    congr 1
    funext r
    exact hg _ _ r

theorem State.course?_updRun_still (s : State) {f : RunContext → RunContext} (hf : ∀ r, (f r).mark1 = r.mark1 ∧ (f r).mark2 = r.mark2) :
    (s.updRun f).course? = s.course? := by
  rw [s.course?_updRun (g := fun c => c) (fun ps st r => by rw [(hf r).1, (hf r).2]), Option.map_id']

theorem State.course?_changeRun (s : State) (r : RunState) : (s.changeRun r).course? = s.course? := by
  rw [State.course?, State.changeRun_active?, ← State.updRun_active?]
  exact s.course?_updRun_still (fun _ => ⟨rfl, rfl⟩)

theorem State.course?_suspendDigging (s : State) (r : SuspendReason) : (s.suspendDigging r).course? = s.course? := by
  unfold State.suspendDigging
  split
  · exact s.course?_changeRun _
  · rfl

theorem State.course?_enterCoasting (s : State) : s.enterCoasting.course? = s.course? := by
  have h : ((s.updRunUnit (fun u => { u with coast := 0 })).changeRun .coasting).course? = s.course? := State.course?_changeRun _ _
  unfold State.enterCoasting
  dsimp only
  split
  · rw [State.course?_changeRun, h]
  · exact h

theorem State.course?_moveServing (s : State) (held : Option StationId) : (s.moveServing held).course? = s.course? := by
  unfold State.moveServing State.afterSwitch
  split
  · dsimp only
    split
    · rfl
    · split
      · split
        · rfl
        · exact State.course?_enterCoasting _
      · rfl
  · split <;> rfl

theorem State.course?_setFurthest (s : State) (f : Int) : (s.setFurthest f).course? = s.course? := s.course?_updRun_still (fun _ => ⟨rfl, rfl⟩)

theorem State.course?_enterSegment (s : State) (k : Nat) : (s.enterSegment k).course? = s.course? :=
  State.course?_updActive (f := fun l => l.entered k) (fun l => by rw [Line.course?, Line.course?, Line.entered_points]; rfl)

theorem State.course?_actMark (s : State) (m : Option Mark) : (s.actMark m).course? = s.course? := by
  unfold State.actMark
  dsimp only
  split
  · exact State.course?_suspendDigging _ _
  · rfl

theorem State.course?_meetMark1 (s : State) (c : Int) : (s.meetMark1 c).course? = s.course?.map (fun x => { x with mark1 := none }) := by
  unfold State.meetMark1
  rw [State.course?_updRun _ (g := fun x => { x with mark1 := none }) (fun _ _ _ => rfl), State.course?_actMark, State.course?_setFurthest]

theorem State.course?_meetMark2 (s : State) (c : Int) : (s.meetMark2 c).course? = s.course?.map (fun x => { x with mark2 := none }) := by
  unfold State.meetMark2
  rw [State.course?_updRun _ (g := fun x => { x with mark2 := none }) (fun _ _ _ => rfl), State.course?_actMark, State.course?_setFurthest]

theorem State.chain_suspendDigging (s : State) (r : SuspendReason) : (s.suspendDigging r).chain = s.chain := by
  unfold State.suspendDigging
  split
  · exact s.changeRun_chain _
  · rfl

theorem State.chain_actMark (s : State) (m : Option Mark) : (s.actMark m).chain = s.chain := by
  unfold State.actMark
  dsimp only
  split
  · exact State.chain_suspendDigging _ _
  · rfl

theorem State.chain_meetMark (s : State) (c : Int) : (s.meetMark1 c).chain = s.chain ∧ (s.meetMark2 c).chain = s.chain :=
  ⟨State.chain_actMark _ _, State.chain_actMark _ _⟩

theorem State.course?_complete (s : State) (l : Line) : (s.complete l).course? = none := by
  have h : (s.complete l).active? = none := by
    show (s.complete l).store.lines.find? Line.isActive = none
    rw [s.complete_lines l]
    exact State.updActive_none (f := fun k => { k.closeAll with lifecycle := .complete }) (fun _ => rfl) s
  rw [State.course?, h]
  rfl

theorem keepMark_length (n : Int) (m : Option Mark) : (keepMark n m).toList.length ≤ m.toList.length := by
  cases m with
  | none => exact le_refl _
  | some k =>
    show ((some k).bind _).toList.length ≤ 1
    rw [Option.bind_some]
    split <;> simp

/-- What an application or a discard makes of the course: no staged revision, no more marks, and the line's points or the staged ones,
which reach beyond F. -/
theorem State.course?_applyOrDrop {s : State} {l : Line} {r : RunContext} (hl : s.active? = some l) (hr : l.run? = some r) {st : Staged} {x : Int}
    (hf : s.furthest? = some x) : ∃ c, (s.applyOrDrop l st).course? = some c ∧ c.staged = none
      ∧ c.mark1.toList.length ≤ r.mark1.toList.length ∧ c.mark2.toList.length ≤ r.mark2.toList.length
      ∧ (c.points = l.points ∨ c.points = st.profile ∧ x < lengthOf st.profile) := by
  have hunstaged : ∀ k : Line, k.isActive = true → (k.setStaged none).isActive = true := fun k h => by rwa [Line.setStaged_isActive]
  unfold State.applyOrDrop
  split
  · rename_i hfreeze
    rw [hf] at hfreeze
    have happlied : ((s.proceedChecks.updActive (fun l => l.applied st)).reach (.parent l.id) |>.discardCheck l.id).active? = some (l.applied st) := by
      show (s.proceedChecks.updActive (fun l => l.applied st)).active? = _
      rw [State.updActive_active? (fun k h => by rwa [Line.isActive_run, Line.applied_run?, ← Line.isActive_run])]
      show s.active?.map _ = _
      rw [hl]
      rfl
    unfold State.applyStaged
    dsimp only
    show ∃ c, (State.moveServing _ _).course? = some c ∧ _
    rw [State.course?_moveServing]
    obtain ⟨m, hm, hmp, hms, hmr⟩ : ∃ m, (State.markLines _ fun k : Line =>
        s.proceedChecks.marksLine (.parent l.id) k || (k.id == l.id && l.status != .checked)).active? = some m
        ∧ m.points = st.profile ∧ m.staged? = none ∧ m.run? = some r := by
      refine ⟨_, State.markLines_active? happlied _, ?_, ?_, ?_⟩
      · split
        · show (Line.marked _).points = _
          rw [Line.points, Line.marked, Line.setStaged_profile]
          exact l.applied_points st
        · exact l.applied_points st
      · split
        · exact Line.setStaged_none_staged? _
        · exact Line.applied_staged?
      · split
        · rw [Line.marked_run?, Line.applied_run?, hr]
        · rw [Line.applied_run?, hr]
    obtain ⟨hfit, -⟩ := State.fitToLength_spec (old := l) hm
    have hrun := Line.updRun_run? m (fun r => { r with mark1 := keepMark m.length r.mark1, mark2 := keepMark m.length r.mark2 })
    rw [hmr] at hrun
    refine ⟨_, State.course?_of hfit hrun, ?_, keepMark_length _ _, keepMark_length _ _, .inr ⟨?_, (meetsFreeze_iff.mp hfreeze).2.2 x rfl⟩⟩
    · show (Line.staged? _).map _ = none
      rw [Line.updRun_staged?, hms]
      rfl
    · show Line.points _ = _
      rw [Line.points, Line.updRun_profile]
      exact hmp
  · have hact : (s.dropStaged l .frozen).active? = some (l.setStaged none) := by
      show (s.updActive (fun k => k.setStaged none)).active? = _
      rw [State.updActive_active? hunstaged, hl]
      rfl
    refine ⟨_, State.course?_of hact (by rw [Line.setStaged_run?]; exact hr), ?_, le_refl _, le_refl _, .inl ?_⟩
    · show (Line.staged? _).map _ = none
      rw [Line.setStaged_none_staged?]
      rfl
    · show Line.points _ = _
      rw [Line.points, Line.setStaged_profile]
      rfl

/-! ## The points of a line -/

theorem mem_crossings {bs : List Breakpoint} {m : Meeting} (h : m ∈ crossings bs) :
    ∃ k b, 0 < k ∧ k + 1 < bs.length ∧ bs[k]? = some b ∧ m = { chainage := b.point.chainage, kind := .crossing k } := by
  obtain ⟨⟨b, k⟩, he, rfl⟩ := List.mem_map.mp h
  obtain ⟨i, hi⟩ := List.mem_iff_getElem?.mp he
  rw [List.getElem?_dropLast] at hi
  split at hi
  · rename_i hlt
    rw [List.length_drop, List.length_zipIdx] at hlt
    rw [List.getElem?_drop, List.getElem?_zipIdx, Option.map_eq_some_iff] at hi
    obtain ⟨b', hb', heq⟩ := hi
    cases heq
    exact ⟨0 + (1 + i), b, by omega, by omega, by simpa using hb', rfl⟩
  · cases hi

theorem mem_innerPoints {ps : List Point} {k : Nat} {p : Point} (h0 : 0 < k) (hlt : k + 1 < ps.length) (hk : ps[k]? = some p) : p ∈ innerPoints ps := by
  refine List.mem_iff_getElem?.mpr ⟨k - 1, ?_⟩
  rw [innerPoints, List.getElem?_dropLast, if_pos (by rw [List.length_drop]; omega), List.getElem?_drop]
  rw [show 1 + (k - 1) = k by omega]
  exact hk

theorem mem_markMeeting {o : Option Mark} {k : PointKind} {m : Meeting} (h : m ∈ markMeeting o k) : ∃ x, o = some x ∧ m = { chainage := x.chainage, kind := k } := by
  cases o with
  | none => cases h
  | some x => exact ⟨x, rfl, List.mem_singleton.mp h⟩

/-- A point of the ACTIVE line is one of its kinds. -/
inductive State.HasPoint (s : State) (l : Line) (r : RunContext) : Meeting → Prop
  | crossing (k : Nat) (b : Breakpoint) (h0 : 0 < k) (hlt : k + 1 < l.profile.length) (hb : l.profile[k]? = some b) :
    HasPoint s l r { chainage := b.point.chainage, kind := .crossing k }
  | firstMark (x : Mark) (hx : r.mark1 = some x) : HasPoint s l r { chainage := x.chainage, kind := .firstMark }
  | secondMark (x : Mark) (hx : r.mark2 = some x) : HasPoint s l r { chainage := x.chainage, kind := .secondMark }
  | endWarning (hw : s.chain.endWarned = false) : HasPoint s l r { chainage := s.endWarningPoint l, kind := .endWarning }
  | completion : HasPoint s l r { chainage := l.length, kind := .completion }

theorem State.mem_points {s : State} {m : Meeting} (h : m ∈ s.points) : ∃ l r, s.active? = some l ∧ l.run? = some r ∧ s.HasPoint l r m := by
  unfold State.points at h
  split at h
  · rename_i l r hl hr
    have hr : l.run? = some r := by
      rw [State.context?, hl] at hr
      exact hr
    refine ⟨l, r, hl, hr, ?_⟩
    rw [List.mem_append, List.mem_append, List.mem_append, List.mem_append] at h
    rcases h with (((h | h) | h) | h) | h
    · obtain ⟨k, b, h0, hlt, hb, rfl⟩ := mem_crossings h
      exact .crossing k b h0 hlt hb
    · obtain ⟨x, hx, rfl⟩ := mem_markMeeting h
      exact .firstMark x hx
    · obtain ⟨x, hx, rfl⟩ := mem_markMeeting h
      exact .secondMark x hx
    · split at h
      · cases h
      · rename_i hw
        rw [List.mem_singleton.mp h]
        exact .endWarning (Bool.not_eq_true _ ▸ hw)
    · rw [List.mem_singleton.mp h]
      exact .completion
  · cases h

theorem State.completion_mem_points {s : State} {l : Line} {r : RunContext} (hl : s.active? = some l) (hr : l.run? = some r) :
    { chainage := l.length, kind := .completion } ∈ s.points := by
  unfold State.points
  rw [hl, State.context?_of hl hr]
  exact List.mem_append_right _ (List.mem_singleton.mpr rfl)

/-- The next point is completion, or it comes before it. -/
theorem State.nextPoint?_before {s : State} {last m : Meeting} {changedAt : Option Int} {new : Int} (h : s.nextPoint? last changedAt new = some m)
    {l : Line} {r : RunContext} (hl : s.active? = some l) (hr : l.run? = some r)
    (hlast : last.before { chainage := l.length, kind := .completion } = true) (hm : m.kind.rank < 4) :
    m.before { chainage := l.length, kind := .completion } = true := by
  obtain ⟨-, -, hnew, -⟩ := State.nextPoint?_some h
  rw [Meeting.before_iff]
  show m.chainage < l.length ∨ m.chainage = l.length ∧ m.kind.rank < 4
  by_cases hlen : l.length ≤ new
  · have hmem : { chainage := l.length, kind := .completion } ∈ s.points.filter
        (fun m => last.before m && decide (m.chainage ≤ new) && !m.isLeft changedAt) := by
      refine List.mem_filter.mpr ⟨State.completion_mem_points hl hr, ?_⟩
      rw [hlast, Bool.true_and]
      exact Bool.and_eq_true_iff.mpr ⟨decide_eq_true hlen, rfl⟩
    have hfirst := Meeting.not_before_iff.mp (earliest_first h _ hmem)
    have hfirst : m.chainage < l.length ∨ l.length = m.chainage ∧ m.kind.rank ≤ 4 := hfirst
    omega
  · omega

/-! ## One point met -/

theorem length_filter_lt {α : Type} {ls : List α} {p q : α → Bool} (hpq : ∀ a, p a = true → q a = true) {a : α} (ha : a ∈ ls) (hq : q a = true)
    (hp : p a = false) : (ls.filter p).length < (ls.filter q).length := by
  have h : ls.filter p = (ls.filter q).filter p := by
    rw [List.filter_filter]
    refine List.filter_congr (fun x _ => ?_)
    cases hx : p x with
    | true => simp [hpq x hx]
    | false => simp
  rw [h]
  exact List.length_filter_lt_length_iff_exists.mpr ⟨a, List.mem_filter.mpr ⟨ha, hq⟩, by simp [hp]⟩

theorem length_filter_mono {α : Type} (ls : List α) {p q : α → Bool} (hpq : ∀ a, p a = true → q a = true) :
    (ls.filter p).length ≤ (ls.filter q).length := (List.monotone_filter_right ls hpq).length_le

/-- As F goes up the crossings ahead are no more. -/
theorem crossings_mono (ps : List Point) {x y : Int} (h : x ≤ y) : ((innerPoints ps).filter (fun p => decide (y < p.chainage))).length
    ≤ ((innerPoints ps).filter (fun p => decide (x < p.chainage))).length :=
  length_filter_mono _ (fun _ hp => decide_eq_true (h.trans_lt (of_decide_eq_true hp)))

theorem crossings_lt {ps : List Point} {p : Point} (hp : p ∈ innerPoints ps) {x : Int} (h : x < p.chainage) :
    ((innerPoints ps).filter (fun q => decide (p.chainage < q.chainage))).length
      < ((innerPoints ps).filter (fun q => decide (x < q.chainage))).length :=
  length_filter_lt (fun _ hq => decide_eq_true (h.trans (of_decide_eq_true hq))) hp (decide_eq_true h) (decide_eq_false (lt_irrefl _))

theorem length_crossings_le (ps : List Point) (x : Int) : ((innerPoints ps).filter (fun p => decide (x < p.chainage))).length ≤ ps.length := by
  refine (List.length_filter_le _ _).trans ?_
  rw [innerPoints, List.length_dropLast, List.length_drop]
  omega

theorem State.ahead_of {s : State} {c : Course} (h : s.course? = some c) (x : Int) : s.ahead x = c.ahead s.chain.endWarned x := by
  rw [State.ahead, h]
  rfl

/-- What one point met on the way does: the law on the way is kept, completion stays ahead, and fewer points are. -/
structure State.Met (s t : State) (x y : Int) (m : Meeting) : Prop where
  lays : State.laysAs (Line.lawAt x) (Line.lawAt y) s t
  completion : ∀ c, t.course? = some c → m.before c.completion = true
  ahead : t.ahead y < s.ahead x

theorem State.laysAt_mono (s : State) {x y : Int} (h : x ≤ y) : State.laysAs (Line.lawAt x) (Line.lawAt y) s s :=
  State.laysAs_of_lines rfl (fun _ _ hl => hl.mono h)

theorem State.laysAt_actMark (s : State) (m : Option Mark) (x : Int) : State.laysAs (Line.lawAt x) (Line.lawAt x) s (s.actMark m) := by
  have h : s.segSame (s.actMark m) := by
    unfold State.actMark
    dsimp only
    split
    · exact State.segSame.trans (State.segSame_of_lines rfl) (State.segSame_suspendDigging _ _)
    · exact State.segSame_of_lines rfl
  exact h.laysAt x

theorem State.laysAt_meetMark1 (s : State) (c x : Int) : State.laysAs (Line.lawAt x) (Line.lawAt x) s (s.meetMark1 c) := by
  have h : ∀ t : State, t.segSame (t.updRun (fun r => { r with mark1 := none })) := fun t => t.segSame_updRun_still (fun _ => ⟨rfl, rfl⟩)
  exact ((s.laysAt_setFurthest x c).trans (State.laysAt_actMark _ _ x)).trans ((h _).laysAt x)

theorem State.laysAt_meetMark2 (s : State) (c x : Int) : State.laysAs (Line.lawAt x) (Line.lawAt x) s (s.meetMark2 c) := by
  have h : ∀ t : State, t.segSame (t.updRun (fun r => { r with mark2 := none })) := fun t => t.segSame_updRun_still (fun _ => ⟨rfl, rfl⟩)
  exact ((s.laysAt_setFurthest x c).trans (State.laysAt_actMark _ _ x)).trans ((h _).laysAt x)

/-- The two steps with which a crossing begins. -/
theorem State.cross_enters {s : State} (hone : s.store.oneActive) {l : Line} {r : RunContext} (hl : s.active? = some l) (hr : l.run? = some r)
    {k : Nat} {p : Point} (hk : l.points[k]? = some p) {x : Int} (hx : x < p.chainage) :
    State.laysAs (Line.lawAt x) (Line.lawAt p.chainage) s ((s.setFurthest p.chainage).enterSegment k)
      ∧ ((s.setFurthest p.chainage).enterSegment k).furthest? = some p.chainage
      ∧ ((s.setFurthest p.chainage).enterSegment k).course? = s.course?
      ∧ ((s.setFurthest p.chainage).enterSegment k).store.oneActive := by
  have hl' : (s.setFurthest p.chainage).active? = some (l.updRun (fun r => { r with furthest := some p.chainage })) := by
    rw [State.setFurthest, State.updRun_active?, hl]
    rfl
  have hone' : (s.setFurthest p.chainage).store.oneActive := Store.altersTo_oneActive (s.altersTo_setFurthest _).2.1 hone
  have hpoints : (l.updRun (fun r => { r with furthest := some p.chainage })).points[k]? = some p := by
    rw [Line.points, Line.updRun_profile]
    exact hk
  refine ⟨(s.laysAt_setFurthest x _).trans (State.laysAt_enterSegment hone' hl' hpoints hx), ?_, ?_,
    Store.altersTo_oneActive (State.altersTo_enterSegment _ k).2.1 hone'⟩
  · have hc : ((s.setFurthest p.chainage).enterSegment k).context? = (s.setFurthest p.chainage).context? :=
      State.updActive_context? (f := fun l => l.entered k) (fun _ => rfl) _
    rw [State.furthest?, hc, State.setFurthest, State.updRun_context?, State.context?_of hl hr]
    rfl
  · rw [State.course?_enterSegment, State.course?_setFurthest]

theorem Settings.law.freezeLead {t : Settings} (h : t.law) : 0 ≤ t.freezeLead := by
  obtain ⟨hlow, -⟩ : 1000 ≤ t.freezeLead ∧ t.freezeLead ≤ 50000 := h .freezeLead (by decide) _ rfl
  omega

theorem Settings.law.endWarn {t : Settings} (h : t.law) : 0 ≤ t.endWarn := (h .endWarn (by decide) _ rfl).1

/-- A breakpoint crossing (R103, R128, R156). -/
theorem State.met_crossing {s : State} (hone : s.store.oneActive) (hset : s.settings.law) {l : Line} {r : RunContext} (hl : s.active? = some l)
    (hr : l.run? = some r) (hlaid : laidOut l.points) {k : Nat} {p : Point} (h0 : 0 < k) (hlt : k + 1 < l.points.length) (hk : l.points[k]? = some p)
    {x : Int} (hx : x < p.chainage) : s.Met (s.cross k p.chainage) x p.chainage { chainage := p.chainage, kind := .crossing k } := by
  obtain ⟨hlays, hf, hcourse, hone'⟩ := State.cross_enters hone hl hr hk hx
  have hsettings : ((s.setFurthest p.chainage).enterSegment k).settings = s.settings := rfl
  have hc := State.course?_of hl hr
  have hlen := hlaid.1.lt_length hk hlt
  have hbefore : ∀ n, p.chainage < n → Meeting.before { chainage := p.chainage, kind := .crossing k } { chainage := n, kind := .completion } = true :=
    fun n hn => Meeting.before_iff.mpr (.inl hn)
  have hfewer := crossings_lt (mem_innerPoints h0 hlt hk) hx
  have hwarned : ∀ b c : Bool, (if b then 0 else 1 : Nat) ≤ (if c then 0 else 1) + 1 := fun b c => by split <;> split <;> omega
  have hsame : ∀ t : State, State.laysAs (Line.lawAt p.chainage) (Line.lawAt p.chainage) ((s.setFurthest p.chainage).enterSegment k) t →
      t.course? = s.course? → t.chain = s.chain → s.Met t x p.chainage { chainage := p.chainage, kind := .crossing k } := by
    intro t ht htc hchain
    refine ⟨hlays.trans ht, fun c hcc => ?_, ?_⟩
    · rw [htc, hc] at hcc
      cases hcc
      exact hbefore _ hlen
    · rw [State.ahead_of hc, State.ahead_of (htc.trans hc), hchain]
      unfold Course.ahead
      dsimp only
      omega
  unfold State.cross
  dsimp only
  split
  · rename_i m st hm hst
    have hmst : m.staged? = some st := (State.staged?_of hm).symm.trans hst
    split
    · obtain ⟨rm, hrm⟩ : ∃ rm, m.run? = some rm := by
        have := (State.active?_mem hm).2
        rw [Line.isActive_run] at this
        exact Option.isSome_iff_exists.mp this
      have hmc := State.course?_of hm hrm
      rw [hcourse, hc] at hmc
      have hmc := Option.some.inj hmc
      have hpts : m.points = l.points := (congrArg Course.points hmc).symm
      have hstaged : l.staged?.map (fun st => st.profile) = some st.profile := by
        have h := congrArg Course.staged hmc
        rw [show l.staged?.map (fun st => st.profile) = _ from h, hmst]
        rfl
      have hm1 : r.mark1 = rm.mark1 := congrArg Course.mark1 hmc
      have hm2 : r.mark2 = rm.mark2 := congrArg Course.mark2 hmc
      obtain ⟨c, hcc, hcs, hc1, hc2, hcp⟩ := State.course?_applyOrDrop (st := st) hm hrm hf
      refine ⟨hlays.trans (State.laysAt_applyOrDrop hone' hm hmst (by rw [hsettings]; exact hset.freezeLead) hf ?_), fun c' hc' => ?_, ?_⟩
      · rw [Line.length, hpts]
        exact hlen.le
      · rw [hcc] at hc'
        cases hc'
        rcases hcp with hcp | ⟨hcp, hgt⟩ <;> rw [Course.completion, hcp]
        · rw [hpts]
          exact hbefore _ hlen
        · exact hbefore _ hgt
      · rw [State.ahead_of hc, State.ahead_of hcc]
        unfold Course.ahead
        dsimp only
        rw [hcs, hstaged]
        show _ + 0 + _ + _ + _ + 1 < _ + (st.profile.length + 1) + _ + _ + _ + 1
        have hw := hwarned (State.chain (State.applyOrDrop ((s.setFurthest p.chainage).enterSegment k) m st)).endWarned s.chain.endWarned
        rw [← hm1] at hc1
        rw [← hm2] at hc2
        rcases hcp with hcp | ⟨hcp, -⟩ <;> rw [hcp]
        · rw [hpts]
          omega
        · have := length_crossings_le st.profile p.chainage
          omega
    · exact hsame _ (State.laysAs_of_lines rfl (fun _ _ h => h)) hcourse rfl
  · exact hsame _ (State.laysAs_of_lines rfl (fun _ _ h => h)) hcourse rfl

/-- Each point the walk meets (R102). -/
theorem State.met_next {s : State} (hone : s.store.oneActive) (hset : s.settings.law) {last m : Meeting} {changedAt : Option Int} {new : Int}
    (hlaw : ∀ l ∈ s.store.lines, l.lawAt last.chainage) (hlast : ∀ c, s.course? = some c → last.before c.completion = true)
    (h : s.nextPoint? last changedAt new = some m) : s.Met (s.meet m) last.chainage m.chainage m := by
  obtain ⟨hmem, hbefore, -, -⟩ := State.nextPoint?_some h
  obtain ⟨l, r, hl, hr, hpoint⟩ := State.mem_points hmem
  have hc := State.course?_of hl hr
  have hlaid := (hlaw l (State.active?_mem hl).1).1
  have hle : last.chainage ≤ m.chainage := by
    rw [Meeting.before_iff] at hbefore
    omega
  have hnext := State.nextPoint?_before h hl hr (hlast _ hc)
  have hfewer := crossings_mono l.points hle
  cases hpoint with
  | crossing k b h0 hlt hb =>
    have hlen : k + 1 < l.points.length := by
      rw [Line.points, List.length_map]
      exact hlt
    refine State.met_crossing hone hset hl hr hlaid h0 hlen (by rw [Line.points_getElem?, hb]; rfl) ?_
    rcases Meeting.before_iff.mp hbefore with hlt | ⟨-, hrank⟩
    · exact hlt
    · exact absurd hrank (Nat.not_lt_zero _)
  | firstMark x hx =>
    have hcm := s.course?_meetMark1 x.chainage
    rw [hc] at hcm
    refine ⟨(s.laysAt_meetMark1 _ _).trans (State.laysAt_mono _ hle), fun c hcc => ?_, ?_⟩
    · cases hcm.symm.trans hcc
      exact hnext (show (1 : Nat) < 4 by decide)
    · show (s.meetMark1 x.chainage).ahead x.chainage < _
      rw [State.ahead_of hc, State.ahead_of hcm]
      show Course.ahead _ (s.meetMark1 x.chainage).chain.endWarned _ < _
      rw [(s.chain_meetMark x.chainage).1]
      unfold Course.ahead
      dsimp only at hfewer ⊢
      rw [hx]
      show _ + _ + 0 + _ + _ + 1 < _ + _ + 1 + _ + _ + 1
      omega
  | secondMark x hx =>
    have hcm := s.course?_meetMark2 x.chainage
    rw [hc] at hcm
    refine ⟨(s.laysAt_meetMark2 _ _).trans (State.laysAt_mono _ hle), fun c hcc => ?_, ?_⟩
    · cases hcm.symm.trans hcc
      exact hnext (show (2 : Nat) < 4 by decide)
    · show (s.meetMark2 x.chainage).ahead x.chainage < _
      rw [State.ahead_of hc, State.ahead_of hcm]
      show Course.ahead _ (s.meetMark2 x.chainage).chain.endWarned _ < _
      rw [(s.chain_meetMark x.chainage).2]
      unfold Course.ahead
      dsimp only at hfewer ⊢
      rw [hx]
      show _ + _ + _ + 0 + _ + 1 < _ + _ + _ + 1 + _ + 1
      omega
  | endWarning hw =>
    have hcm : s.warnEnd.course? = _ := hc
    refine ⟨(State.laysAt_mono s hle).trans (State.laysAs_of_lines rfl (fun _ _ h => h)), fun c hcc => ?_, ?_⟩
    · cases hc.symm.trans hcc
      exact hnext (show (3 : Nat) < 4 by decide)
    · show s.warnEnd.ahead (s.endWarningPoint l) < _
      rw [State.ahead_of hc, State.ahead_of hcm]
      show Course.ahead _ true _ < _
      unfold Course.ahead
      dsimp only at hfewer ⊢
      rw [hw]
      show _ + _ + _ + _ + 0 + 1 < _ + _ + _ + _ + 1 + 1
      omega
  | completion =>
    show s.Met (match s.active? with | some l => s.complete l | none => s) _ _ _
    rw [hl]
    have hnone := s.course?_complete l
    refine ⟨s.laysAt_complete l _ _, fun c hcc => (nomatch hnone.symm.trans hcc), ?_⟩
    rw [State.ahead_of hc, State.ahead, hnone]
    exact Nat.succ_pos _

/-! ## The walk to its end -/

/-- The walk keeps the law on the way, and with fuel for the points ahead it ends with the new F below the length, or with the line
COMPLETE. -/
theorem State.walk_lays (n : Nat) {s : State} (hone : s.store.oneActive) (hset : s.settings.law) {last : Meeting} {changedAt : Option Int} {new : Int}
    (hlaw : ∀ l ∈ s.store.lines, l.lawAt last.chainage) (hlast : ∀ c, s.course? = some c → last.before c.completion = true)
    (hnew : last.chainage ≤ new) (hfuel : s.ahead last.chainage ≤ n) :
    ∃ y ≤ new, State.laysAs (Line.lawAt last.chainage) (Line.lawAt y) s (s.walk n last changedAt new)
      ∧ ∀ c, (s.walk n last changedAt new).course? = some c → new < lengthOf c.points := by
  induction n generalizing s last changedAt with
  | zero =>
    refine ⟨last.chainage, hnew, State.laysAt_mono s (le_refl _), fun c hc => ?_⟩
    have hc : s.course? = some c := hc
    rw [State.ahead_of hc] at hfuel
    exact absurd hfuel (Nat.not_succ_le_zero _)
  | succ n ih =>
    cases hnext : s.nextPoint? last changedAt new with
    | none =>
      rw [State.walk_none hnext]
      refine ⟨last.chainage, hnew, State.laysAt_mono s (le_refl _), fun c hc => ?_⟩
      obtain ⟨l, r, hl, hr, rfl⟩ := State.active?_of_course hc
      by_contra hge
      exact (nomatch (State.nextPoint?_none.mp hnext _ (State.completion_mem_points hl hr) (hlast _ hc) (not_lt.mp hge)))
    | some m =>
      rw [State.walk_some hnext]
      obtain ⟨hlays, hcompletion, hahead⟩ := State.met_next hone hset hlaw hlast hnext
      obtain ⟨-, -, hmnew, -⟩ := State.nextPoint?_some hnext
      have halter := (s.altersTo_meet m).2.1
      have hlaw' : ∀ l ∈ (s.meet m).store.lines, l.lawAt m.chainage := by
        obtain ⟨f, hf, hl⟩ := hlays
        rw [hf]
        intro l hl'
        obtain ⟨k, hk, rfl⟩ := List.mem_map.mp hl'
        exact ((hl k hk).2 (hlaw k hk)).1
      have hset' : (s.meet m).settings.law := by
        rw [show (s.meet m).settings = s.settings from halter.2.1]
        exact hset
      obtain ⟨y, hy, hlays', hlen⟩ := ih (Store.altersTo_oneActive halter hone) hset' hlaw' hcompletion hmnew (by omega)
      exact ⟨y, hy, hlays.trans hlays', hlen⟩

/-- The fuel of the walk is no less than the points ahead. -/
theorem State.ahead_le_walkFuel (s : State) (x : Int) : s.ahead x ≤ s.walkFuel := by
  cases hc : s.course? with
  | none =>
    rw [State.ahead, hc]
    exact Nat.zero_le _
  | some c =>
    rw [State.ahead_of hc]
    obtain ⟨l, r, hl, -, rfl⟩ := State.active?_of_course hc
    have h1 := length_crossings_le l.points x
    have h2 : l.points.length = l.profile.length := List.length_map _
    have hmark : ∀ o : Option Mark, o.toList.length ≤ 1 := fun o => by cases o <;> simp
    have hw : (if s.chain.endWarned then 0 else 1 : Nat) ≤ 1 := by split <;> omega
    have h3 := hmark r.mark1
    have h4 := hmark r.mark2
    unfold Course.ahead State.walkFuel
    rw [hl]
    dsimp only
    unfold Line.slots
    cases l.staged? with
    | none =>
      show _ + 0 + _ + _ + _ + 1 ≤ _ + 0 + 5
      omega
    | some st =>
      show _ + (st.profile.length + 1) + _ + _ + _ + 1 ≤ _ + st.profile.length + 5
      omega

end Sys2Proof.Machine
end

section
/-! PROOF. O13: every step keeps the segments of the lines in order, and their CLOSED segments as they are (R4, R7, R8, R9). -/
namespace Sys2Proof.Machine

/-! ## The records after a move -/

/-- Every record has the law of segments, and the CLOSED segments of the records before stand, until a record is removed. -/
def Store.keepsSegments (a b : Store) : Prop :=
  (∀ m ∈ b.lines, m.segmentLaw) ∧ ∀ l ∈ a.lines, b.line? l.id = none ∨ ∃ m, b.line? l.id = some m ∧ l.closedStand m

theorem find?_map_of_id {f : Line → Line} {ls : List Line} (hf : ∀ l ∈ ls, (f l).id = l.id) (id : Nat) :
    (ls.map f).find? (fun l => l.id == id) = (ls.find? (fun l => l.id == id)).map f := by
  rw [List.find?_map]
  congr 1
  refine List.find?_congr (fun l hl => ?_)
  show ((f l).id == id) = _
  rw [hf l hl]

theorem State.laysAs.line? {P Q : Line → Prop} {s t : State} (h : State.laysAs P Q s t) :
    ∃ f : Line → Line, t.store.lines = s.store.lines.map f ∧ (∀ l ∈ s.store.lines, P l → Q (f l) ∧ l.closedStand (f l))
      ∧ ∀ id, t.store.line? id = (s.store.line? id).map f := by
  obtain ⟨f, hf, hl⟩ := h
  refine ⟨f, hf, fun l hm => (hl l hm).2, fun id => ?_⟩
  rw [Store.line?, hf]
  exact find?_map_of_id (fun l hm => (hl l hm).1) id

theorem Store.line?_of_mem {st : Store} (hids : st.idsAscending) {l : Line} (hl : l ∈ st.lines) : st.line? l.id = some l :=
  (Store.line?_eq_some hids).mpr ⟨hl, rfl⟩

theorem State.laysAs.keeps {s t : State} (h : State.laysAs Line.segmentLaw Line.segmentLaw s t) (hids : s.store.idsAscending)
    (hlaw : ∀ l ∈ s.store.lines, l.segmentLaw) : s.store.keepsSegments t.store := by
  obtain ⟨f, hf, hl, hline⟩ := h.line?
  refine ⟨fun m hm => ?_, fun l hm => .inr ⟨f l, ?_, (hl l hm (hlaw l hm)).2⟩⟩
  · rw [hf] at hm
    obtain ⟨l, hl', rfl⟩ := List.mem_map.mp hm
    exact (hl l hl' (hlaw l hl')).1
  · rw [hline, Store.line?_of_mem hids hm]
    rfl

theorem Store.keepsSegments.segSame {a : Store} {t u : State} (h : a.keepsSegments t.store) (h' : t.segSame u) : a.keepsSegments u.store := by
  obtain ⟨hlaw, hstand⟩ := h
  obtain ⟨f, hf, hl, hline⟩ := h'.lays.line?
  refine ⟨fun m hm => ?_, fun l hm => ?_⟩
  · rw [hf] at hm
    obtain ⟨k, hk, rfl⟩ := List.mem_map.mp hm
    exact (hl k hk (hlaw k hk)).1
  · rw [hline]
    rcases hstand l hm with hn | ⟨m, hm', hs⟩
    · exact .inl (by rw [hn]; rfl)
    · have hmem : m ∈ t.store.lines := List.mem_of_find?_eq_some hm'
      exact .inr ⟨f m, by rw [hm']; rfl, Line.closedStand_trans hs (hl m hmem (hlaw m hmem)).2⟩

theorem Store.keepsSegments_of_lines {a b : Store} (h : b.lines = a.lines) (hids : a.idsAscending) (hlaw : ∀ l ∈ a.lines, l.segmentLaw) :
    a.keepsSegments b := by
  refine ⟨by rwa [h], fun l hl => .inr ⟨l, ?_, l.closedStand_refl⟩⟩
  rw [Store.line?, h]
  exact Store.line?_of_mem hids hl

/-! ## The writes -/

theorem mem_take_or_drop {α : Type} {x : α} {ls : List α} (h : x ∈ ls) (n : Nat) : x ∈ ls.take n ∨ x ∈ ls.drop n := by
  rw [← List.mem_append, List.take_append_drop]
  exact h

/-- A commit that has passed its check has a draft in order, of 5,000 mm or more (R48, R50). -/
theorem State.Completes.laidOut {s : State} {p : Port} {c : CommitRun} {id : Nat} {d : Draft} (h : s.Completes p c id d)
    (hlaw : (s.port p).passedLaw) : laidOut (present d.points) := by
  have hcheck := h.check
  unfold CheckRun.result at hcheck
  split at hcheck
  · cases hcheck
  · rename_i hnone
    have hrest := firstFailure_none hcheck
    obtain ⟨horder, hlength⟩ : (CheckTest.order ∈ (d.subject id).tests.take c.check.made → ascending (present d.points))
        ∧ (CheckTest.length ∈ (d.subject id).tests.take c.check.made → 5000 ≤ lengthOf (present d.points)) :=
      hlaw c h.commit id h.claim d h.draft hnone
    have hmem : ∀ t ∈ [CheckTest.order, CheckTest.length], t ∈ (d.subject id).tests := by
      intro t ht
      unfold Subject.tests
      simp only [List.mem_cons, List.mem_append] at ht ⊢
      rcases ht with rfl | rfl | ht <;> simp_all
    constructor
    · rcases mem_take_or_drop (hmem .order (by simp)) c.check.made with ht | ht
      · exact horder ht
      · exact ascending_of_orderTest (u := d.subject id) (hrest _ ht)
    · rcases mem_take_or_drop (hmem .length (by simp)) c.check.made with ht | ht
      · exact hlength ht
      · exact length_of_lengthTest (u := d.subject id) (hrest _ ht)

theorem plainProfile_points (ps : List Point) : (plainProfile ps).map (fun b => b.point) = ps := by
  unfold plainProfile
  rw [List.map_map]
  exact List.map_id' ps

theorem plainProfile_unentered {l : Line} {ps : List Point} (h : l.profile = plainProfile ps) : l.unentered := by
  intro b hb
  rw [h, plainProfile] at hb
  obtain ⟨p, -, rfl⟩ := List.mem_map.mp hb
  rfl

/-- A record newly laid out, of a line that is not ACTIVE. -/
theorem Line.law_of_plain {l : Line} {ps : List Point} (hp : l.profile = plainProfile ps) (hlaid : laidOut ps) (ha : l.isActive = false) :
    l.segmentLaw := by
  have hstaged : l.staged? = none := by
    unfold Line.staged?
    split
    · rename_i hl
      simp [Line.isActive, hl, Lifecycle.kind] at ha
    · rfl
  refine Line.segmentLaw_iff.mpr ⟨?_, ?_, fun _ => plainProfile_unentered hp, ?_⟩
  · rw [Line.points, hp, plainProfile_points]
    exact hlaid
  · rw [hstaged]
    exact fun st h => (nomatch h)
  · rw [Line.run?_none_of_not_active ha]
    exact fun r h => (nomatch h)

/-- One record altered by its id. -/
theorem Store.keepsSegments_updLine {a b : Store} {id : Nat} {f : Line → Line} (hb : b.lines = a.lines.map (fun k => if k.id = id then f k else k))
    (hids : a.idsAscending) (hlaw : ∀ l ∈ a.lines, l.segmentLaw) (hid : ∀ l : Line, (f l).id = l.id)
    (hf : ∀ l ∈ a.lines, l.id = id → (f l).segmentLaw ∧ l.closedStand (f l)) : a.keepsSegments b := by
  have hline : ∀ i, b.line? i = (a.line? i).map (fun k => if k.id = id then f k else k) := by
    intro i
    rw [Store.line?, hb]
    exact find?_map_of_id (fun l _ => by split; exacts [hid l, rfl]) i
  refine ⟨fun m hm => ?_, fun l hl => .inr ⟨_, by rw [hline, Store.line?_of_mem hids hl]; rfl, ?_⟩⟩
  · rw [hb] at hm
    obtain ⟨l, hl, rfl⟩ := List.mem_map.mp hm
    split
    · exact (hf l hl (by assumption)).1
    · exact hlaw l hl
  · show l.closedStand (if l.id = id then f l else l)
    split
    · exact (hf l hl (by assumption)).2
    · exact l.closedStand_refl

/-- A staged revision laid out by its commit (R77). -/
theorem Line.law_stagedOn {l : Line} (h : l.segmentLaw) {d : Draft} (hlaid : laidOut (present d.points)) (k : Line) (reached : Bool) :
    (d.stagedOn k reached l).segmentLaw ∧ l.closedStand (d.stagedOn k reached l) := by
  have hp : (d.stagedOn k reached l).profile = l.profile := l.setStaged_profile _
  have hstand : l.closedStand (d.stagedOn k reached l) := by
    unfold Line.closedStand
    rw [hp]
    exact l.closedStand_refl
  have hsame : l.segSame (d.stagedOn k true l) := (l.segSame_unstaged).trans
    (Line.segSame_of_profile rfl rfl (fun st h => ⟨st, h, rfl⟩) (fun h => h) (fun r h => ⟨r, h, rfl, fun h => h⟩))
  obtain ⟨h1, h2, h3, h4⟩ := Line.segmentLaw_iff.mp (hsame.law h)
  have hp' : (d.stagedOn k true l).profile = l.profile := l.setStaged_profile _
  have hrun : ∀ b, (d.stagedOn k b l).run? = l.run? := fun b => l.setStaged_run? _
  have hplan : (d.stagedOn k reached l).lifecycle = .planned → l.lifecycle = .planned :=
    Line.lifecycle_planned_iff (m := l.setStaged (if reached then none else some (d.stagedFor k))) (by rw [Line.setStaged_kind])
  obtain ⟨l1, l2, l3, l4⟩ := Line.segmentLaw_iff.mp h
  have hpoints : (d.stagedOn k reached l).points = l.points := by
    rw [Line.points, hp]
    rfl
  refine ⟨Line.segmentLaw_iff.mpr ⟨by rwa [hpoints], fun st hst => ?_, fun hpl => ?_, fun r hr => ?_⟩, hstand⟩
  · have hst' : st ∈ (l.setStaged (if reached then none else some (d.stagedFor k))).staged? := hst
    rw [Line.staged?_setStaged] at hst'
    split at hst'
    · split at hst'
      · cases hst'
      · cases hst'
        exact hlaid
    · exact l2 st hst'
  · unfold Line.unentered
    rw [hp]
    exact l3 (hplan hpl)
  · rw [hrun] at hr
    obtain ⟨ha, hn, hf⟩ := l4 r hr
    refine ⟨ha, fun h0 => ?_, fun f hf' => ?_⟩
    · unfold Line.unentered
      rw [hp]
      exact hn h0
    · obtain ⟨hlen, hbelow⟩ := hf f hf'
      refine ⟨by rwa [Line.length, hpoints], fun i b hb => ?_⟩
      rw [hpoints]
      refine hbelow i b ?_
      rw [Line.closedAt, hp] at hb
      exact hb

/-- A PLANNED line that becomes ACTIVE (R112). -/
theorem Line.law_selected {l : Line} (h : l.segmentLaw) (hpl : l.lifecycle = .planned) :
    ({ l with lifecycle := .active RunContext.selected none } : Line).segmentLaw
      ∧ l.closedStand { l with lifecycle := .active RunContext.selected none } := by
  obtain ⟨h1, -, h3, -⟩ := Line.segmentLaw_iff.mp h
  refine ⟨Line.segmentLaw_iff.mpr ⟨h1, fun st h => (nomatch h), fun h => (nomatch h), fun r hr => ?_⟩, l.closedStand_refl⟩
  cases hr
  exact ⟨fun _ => rfl, fun _ => h3 hpl, fun f hf => (nomatch hf)⟩

/-- Every write keeps the segments. -/
theorem State.Writes.keepsSegments {s : State} {b : Store} (h : s.Writes b) (hids : s.store.idsAscending) (hlaw : ∀ l ∈ s.store.lines, l.segmentLaw)
    (hcommit : ∀ p, (s.port p).commitLaw) (hpassed : ∀ p, (s.port p).passedLaw) : s.store.keepsSegments b := by
  have hb := h.idsAscending hids
  cases h with
  | nothing => exact Store.keepsSegments_of_lines rfl hids hlaw
  | create p c id d h hl =>
    refine ⟨fun m hm => ?_, fun l hl => .inr ⟨l, ?_, l.closedStand_refl⟩⟩
    · rcases mem_insertLine.mp hm with rfl | hm
      · exact Line.law_of_plain rfl (h.laidOut (hpassed p)) rfl
      · exact hlaw m hm
    · exact Store.line?_of_mem hb (mem_insertLine.mpr (.inr hl))
  | replace p c id d l h hl ha =>
    refine Store.keepsSegments_updLine rfl hids hlaw d.replaced_id (fun k hk hid => ?_)
    obtain ⟨hlm, hlid⟩ := (Store.line?_eq_some hids).mp hl
    obtain rfl := Store.eq_of_id hids hk hlm (hid.trans hlid.symm)
    have hact : (d.replaced k).isActive = false := by rw [d.replaced_isActive]; exact ha
    refine ⟨Line.law_of_plain rfl (h.laidOut (hpassed p)) hact, Line.closedStand_of_not_closed ?_⟩
    have hnl := h.not_laid (hcommit p) hl
    have hpl : k.lifecycle = .planned := by
      unfold Line.isLaid at hnl
      rcases hk' : k.lifecycle with _ | ⟨r, st⟩ | _ | _
      · rfl
      · simp [Line.isActive, hk', Lifecycle.kind] at ha
      · simp [hk'] at hnl
      · simp [hk'] at hnl
    obtain ⟨-, -, h3, -⟩ := Line.segmentLaw_iff.mp (hlaw k hk)
    exact (h3 hpl).not_closed
  | stage p c id d l h hl ha =>
    exact Store.keepsSegments_updLine rfl hids hlaw (d.stagedOn_id l c.reached)
      (fun k hk _ => Line.law_stagedOn (hlaw k hk) (h.laidOut (hpassed p)) l c.reached)
  | retire id hpass =>
    refine ⟨fun m hm => hlaw m (List.mem_filter.mp hm).1, fun l hl => ?_⟩
    by_cases hid : l.id = id
    · left
      exact Store.line?_eq_none.mpr (fun m hm he => bne_iff_ne.mp (List.mem_filter.mp hm).2 (he.trans hid))
    · right
      exact ⟨l, Store.line?_of_mem hb (List.mem_filter.mpr ⟨hl, bne_iff_ne.mpr hid⟩), l.closedStand_refl⟩
  | station n x h => exact Store.keepsSegments_of_lines rfl hids hlaw
  | settings name v word hv hpass => exact Store.keepsSegments_of_lines rfl hids hlaw
  | select id l hidle hl hsel =>
    refine Store.keepsSegments_updLine rfl hids hlaw (fun _ => rfl) (fun k hk hid => ?_)
    obtain ⟨hlm, hlid⟩ := (Store.line?_eq_some hids).mp hl
    obtain rfl := Store.eq_of_id hids hk hlm (hid.trans hlid.symm)
    exact Line.law_selected (hlaw k hk) (State.selectable_iff.mp hsel).1
  | clear => exact ⟨fun m hm => (nomatch hm), fun l _ => .inl rfl⟩

/-- Every write keeps the settings in range. -/
theorem State.Writes.settingsLaw {s : State} {b : Store} (h : s.Writes b) (hs : s.settings.law) : b.settings.law := by
  cases h with
  | settings name v word hv hpass => exact Settings.law_put hs hv
  | clear => exact Settings.law_reset
  | _ => exact hs

/-! ## The advance of F -/

/-- What keeps the segments through the module's work: one ACTIVE line, settings in range, and the law itself. -/
structure State.laidLaw (s : State) : Prop where
  one : s.store.oneActive
  settings : s.settings.law
  lines : ∀ l ∈ s.store.lines, l.segmentLaw

theorem State.laidLaw.of_lays {s t : State} (hs : s.laidLaw) (h : State.laysAs Line.segmentLaw Line.segmentLaw s t) (halter : s.altersTo t) :
    t.laidLaw := by
  obtain ⟨-, hst, -⟩ := halter
  refine ⟨Store.altersTo_oneActive hst hs.one, ?_, fun m hm => ?_⟩
  · rw [show t.settings = s.settings from hst.2.1]
    exact hs.settings
  · obtain ⟨f, hf, hl⟩ := h
    rw [hf] at hm
    obtain ⟨l, hl', rfl⟩ := List.mem_map.mp hm
    exact ((hl l hl').2 (hs.lines l hl')).1

/-- The law again at the end of an advance, when F stands below the length. -/
theorem Line.law_of_lawAt {l : Line} {x f : Int} (h : l.lawAt x) (hf : ∀ r ∈ l.run?, r.furthest = some f) (hx : x ≤ f)
    (hlen : l.isActive = true → f < l.length) : l.segmentLaw := by
  obtain ⟨h1, h2, h3, h4⟩ := h
  refine Line.segmentLaw_iff.mpr ⟨h1, h2, h3, fun r hr => ?_⟩
  obtain ⟨ha, -, hc⟩ := h4 r hr
  rw [hf r hr]
  refine ⟨fun h0 => absurd h0 ha, fun h0 => (nomatch h0), fun f' hf' => ?_⟩
  cases hf'
  exact ⟨hlen (by rw [Line.isActive_run]; exact Option.isSome_iff_exists.mpr ⟨r, hr⟩), hc.mono hx⟩

theorem State.lays_setFurthest {s : State} (hone : s.store.oneActive) {k : Line} (hk : s.active? = some k) {x f : Int} (hx : x ≤ f)
    (hlen : f < k.length) : State.laysAs (Line.lawAt x) Line.segmentLaw s (s.setFurthest f) := by
  refine State.laysAs_active hone hk (fun l => l.updRun_id _) (fun hp => ?_) (fun l hl hp => (Line.lawAt_of_not_active hl).mp hp)
  obtain ⟨hlaw, hstand⟩ := Line.lawAt_setFurthest hp f
  refine ⟨Line.law_of_lawAt hlaw (fun r hr => ?_) hx (fun _ => ?_), hstand⟩
  · rw [Line.updRun_run?] at hr
    obtain ⟨r', -, rfl⟩ := Option.map_eq_some_iff.mp hr
    rfl
  · rw [Line.length, Line.points, Line.updRun_profile]
    exact hlen

/-- The segments that a new F ends are CLOSED (R129). -/
theorem Line.law_closePassed {l : Line} (h : l.segmentLaw) {r : RunContext} (hr : l.run? = some r) {f backup : Int} (hf : r.furthest = some f)
    (hb : 0 ≤ backup) : (l.closePassed backup f).segmentLaw ∧ l.closedStand (l.closePassed backup f) := by
  obtain ⟨h1, h2, h3, h4⟩ := Line.segmentLaw_iff.mp h
  obtain ⟨ha, -, hlaw⟩ := h4 r hr
  obtain ⟨hlen, hbelow⟩ := hlaw f hf
  obtain ⟨hbelow', hstand⟩ := Line.closePassed_law hbelow (le_refl f) hb
  have hpoints := l.closePassed_points backup f
  refine ⟨Line.segmentLaw_iff.mpr ⟨by rwa [hpoints], h2, fun hpl => ?_, fun r' hr' => ?_⟩, hstand⟩
  · rw [show (l.closePassed backup f).lifecycle = l.lifecycle from rfl, Line.lifecycle_of_run hr] at hpl
    cases hpl
  · cases hr.symm.trans hr'
    rw [hf]
    refine ⟨fun h0 => (nomatch (ha h0).symm.trans hf), fun h0 => (nomatch h0), fun f' hf' => ?_⟩
    cases hf'
    exact ⟨by rwa [Line.length, hpoints], hbelow'⟩

theorem State.lays_closePassed {s : State} (hs : s.laidLaw) {f : Int} (hf : ∀ g, s.furthest? = some g → g = f) (hset : ∀ k, s.active? = some k →
    s.furthest? ≠ none) : State.laysAs Line.segmentLaw Line.segmentLaw s (s.closePassed f) := by
  unfold State.closePassed
  split
  · exact s.segSame_refl.lays
  · rename_i k hk
    split
    · obtain ⟨r, hr⟩ : ∃ r, k.run? = some r := by
        have := (State.active?_mem hk).2
        rw [Line.isActive_run] at this
        exact Option.isSome_iff_exists.mp this
      have hfr : s.furthest? = r.furthest := by
        rw [State.furthest?, State.context?_of hk hr]
        rfl
      obtain ⟨g, hg⟩ := Option.ne_none_iff_exists'.mp (hset k hk)
      obtain rfl := hf g hg
      have h : State.laysAs Line.segmentLaw Line.segmentLaw s (s.updActive (fun l => l.closePassed s.settings.backup g)) :=
        State.laysAs_active hs.one hk (fun _ => rfl)
          (fun hp => Line.law_closePassed hp hr (hfr.symm.trans hg) (Settings.law.backup hs.settings).1) (fun _ _ hp => hp)
      exact h.trans (State.laysAs_of_lines rfl (fun _ _ hp => hp))
    · exact s.segSame_refl.lays

/-- The new F handed on (R100, R125, R129, R145). -/
theorem State.lays_handOn {s : State} (hone : s.store.oneActive) (hset : s.settings.law) {x new : Int} (hlaw : ∀ l ∈ s.store.lines, l.lawAt x)
    (hx : x ≤ new) (hlen : ∀ c, s.course? = some c → new < lengthOf c.points) (old : Int) (coasting : Bool) :
    State.laysAs (Line.lawAt x) Line.segmentLaw s (s.handOn old new coasting) := by
  unfold State.handOn
  split
  · rename_i hn
    have hnot : ∀ l ∈ s.store.lines, l.isActive = false := fun l hl => by simpa using List.find?_eq_none.mp hn l hl
    exact State.laysAs_of_lines rfl (fun l hl hp => (Line.lawAt_of_not_active (hnot l hl)).mp hp)
  · rename_i k hk
    obtain ⟨r, hr⟩ : ∃ r, k.run? = some r := by
      have := (State.active?_mem hk).2
      rw [Line.isActive_run] at this
      exact Option.isSome_iff_exists.mp this
    have h1 := State.lays_setFurthest hone hk hx (hlen _ (State.course?_of hk hr))
    have hs1 : (s.setFurthest new).laidLaw := by
      refine ⟨Store.altersTo_oneActive (s.altersTo_setFurthest new).2.1 hone, hset, fun m hm => ?_⟩
      obtain ⟨f, hf, hl⟩ := h1
      rw [hf] at hm
      obtain ⟨l, hl', rfl⟩ := List.mem_map.mp hm
      exact ((hl l hl').2 (hlaw l hl')).1
    have hf1 : (s.setFurthest new).dig.furthest? = some new := by
      rw [State.dig_setFurthest, Dig.furthest?]
      show (s.context?.map _ |>.map _).bind _ = _
      rw [State.context?_of hk hr]
      rfl
    have hclose : ∀ t : State, t.laidLaw → t.dig.furthest? = some new → State.laysAs Line.segmentLaw Line.segmentLaw t (t.closePassed new) := by
      intro t ht hf
      have hf : t.furthest? = some new := (State.furthest?_dig t).trans hf
      exact State.lays_closePassed ht (fun g hg => Option.some.inj (hg.symm.trans hf)) (fun _ _ h0 => (nomatch h0.symm.trans hf))
    dsimp only
    split
    · have h2 := ((s.setFurthest new).segSame_accrueCoast old new).trans (State.segSame_addCoast _ (new - old))
      have h2' := ((s.setFurthest new).altersTo_accrueCoast old new).trans (State.altersTo_addCoast _ (new - old))
      refine h1.trans (h2.lays.trans (hclose _ (hs1.of_lays h2.lays h2') ?_))
      rw [State.furthest?_addCoast, State.dig_accrueCoast]
      exact hf1
    · exact h1.trans (hclose _ hs1 hf1)

/-- An advance of F to a greater chainage keeps the segments (R100, R102). -/
theorem State.lays_advance {s : State} (hs : s.laidLaw) {old : Int} (hf : s.furthest? = some old) {new : Int} (hlt : old ≤ new) (coasting : Bool) :
    State.laysAs Line.segmentLaw Line.segmentLaw s (s.advance new coasting) := by
  have hat : ∀ l ∈ s.store.lines, l.segmentLaw → l.lawAt old := by
    intro l hl hlaw
    cases ha : l.isActive with
    | false => exact (Line.lawAt_of_not_active ha).mpr hlaw
    | true =>
      obtain ⟨k, hk⟩ : ∃ k, s.active? = some k := by
        refine Option.ne_none_iff_exists'.mp (fun hn => ?_)
        simpa [ha] using List.find?_eq_none.mp hn l hl
      obtain ⟨hkm, hka⟩ := State.active?_mem hk
      obtain rfl := Store.oneActive_unique hs.one hl ha hkm hka
      refine Line.lawAt_of_law hlaw (fun r hr => ?_)
      rw [← hf, State.furthest?, State.context?_of hk hr]
      rfl
  have hwarn : (s.warnLate old).store = s.store := by
    unfold State.warnLate
    split
    · rfl
    · split <;> rfl
  have h0 : State.laysAs Line.segmentLaw (Line.lawAt old) s (s.warnLate old) := State.laysAs_of_lines (by rw [hwarn]) hat
  have hcourse : (s.warnLate old).course? = s.course? := by
    rw [State.course?, State.active?, hwarn]
    rfl
  have hlast : ∀ c, (s.warnLate old).course? = some c → Meeting.before { chainage := old, kind := .completion } c.completion = true := by
    intro c hc
    rw [hcourse] at hc
    obtain ⟨l, r, hl, hr, rfl⟩ := State.active?_of_course hc
    obtain ⟨-, -, -, h4⟩ := Line.segmentLaw_iff.mp (hs.lines l (State.active?_mem hl).1)
    have hfr : r.furthest = some old := by
      rw [← hf, State.furthest?, State.context?_of hl hr]
      rfl
    exact Meeting.before_iff.mpr (.inl ((h4 r hr).2.2 old hfr).1)
  have hone : (s.warnLate old).store.oneActive := by rw [hwarn]; exact hs.one
  have hset : (s.warnLate old).settings.law := by rw [State.settings, hwarn]; exact hs.settings
  have hlines : ∀ l ∈ (s.warnLate old).store.lines, l.lawAt old := by
    rw [hwarn]
    exact fun l hl => hat l hl (hs.lines l hl)
  obtain ⟨y, hy, hlays, hlen⟩ := State.walk_lays (s.warnLate old).walkFuel hone hset (last := { chainage := old, kind := .completion })
    (changedAt := none) hlines hlast hlt (State.ahead_le_walkFuel _ _)
  have halter := (State.altersTo_walk (s.warnLate old).walkFuel (s.warnLate old) { chainage := old, kind := .completion } none new).2.1
  unfold State.advance
  rw [hf]
  refine h0.trans (hlays.trans (State.lays_handOn (Store.altersTo_oneActive halter hone) ?_ (fun m hm => ?_) hy hlen old coasting))
  · show Settings.law (Store.settings _)
    rw [halter.2.1]
    exact hset
  · obtain ⟨f, hfm, hl⟩ := hlays
    rw [hfm] at hm
    obtain ⟨l, hl', rfl⟩ := List.mem_map.mp hm
    exact ((hl l hl').2 (hlines l hl')).1

/-! ## Counts, strikes and the commands of the run -/

theorem State.lays_handChainage {s : State} (hs : s.laidLaw) (wasDigging wasCoasting : Bool) :
    State.laysAs Line.segmentLaw Line.segmentLaw s (s.handChainage wasDigging wasCoasting) := by
  have h1 : State.laysAs Line.segmentLaw Line.segmentLaw s (s.backtrackTest.moveServing s.servingStation?) :=
    (s.segSame_backtrackTest.trans (State.segSame_moveServing _ _)).lays
  have hs1 := hs.of_lays h1 (s.altersTo_backtrackTest.trans (State.altersTo_moveServing _ _))
  unfold State.handChainage
  dsimp only
  split
  · exact h1
  · rename_i f hf
    split
    · rename_i hgo
      rw [Bool.and_eq_true, decide_eq_true_iff] at hgo
      exact h1.trans (State.lays_advance hs1 hf hgo.2.le _)
    · exact h1

theorem State.lays_count {s : State} (hs : s.laidLaw) (forward : Bool) : State.laysAs Line.segmentLaw Line.segmentLaw s (s.count forward) := by
  unfold State.count
  dsimp only
  split
  · split
    · exact State.laysAs_of_lines rfl (fun _ _ h => h)
    · have hs1 : (s.updChain (fun k => { k with position := s.chain.position + s.countLength forward })).laidLaw :=
        ⟨hs.one, hs.settings, hs.lines⟩
      exact State.laysAs.trans (State.laysAs_of_lines rfl (fun _ _ h => h)) (State.lays_handChainage hs1 _ _)
  · exact s.segSame_refl.lays

theorem State.lays_validTransition {s : State} (hs : s.laidLaw) (ch : Channel) :
    State.laysAs Line.segmentLaw Line.segmentLaw s (s.validTransition ch) := by
  have h0 : (s.takeLevels (changeChannel s.chain.levels ch)).laidLaw := ⟨hs.one, hs.settings, hs.lines⟩
  have h1 : State.laysAs Line.segmentLaw Line.segmentLaw s (s.takeLevels (changeChannel s.chain.levels ch)) :=
    State.laysAs_of_lines rfl (fun _ _ h => h)
  unfold State.validTransition State.applyCount
  dsimp only
  split
  · exact h1.trans (State.lays_count h0 _)
  · exact h1.trans (State.lays_count h0 _)
  · exact h1

/-- The dig starts: F is 0 and segment 0 is entered (R115). -/
theorem Line.law_tied {l : Line} (h : l.segmentLaw) {r : RunContext} (hr : l.run? = some r) (harmed : r.state = .armed) :
    (((l.updRun (fun r => { r with furthest := some 0 })).entered 0).updRun (fun c => { c with state := .cutting })).segmentLaw
      ∧ l.closedStand (((l.updRun (fun r => { r with furthest := some 0 })).entered 0).updRun (fun c => { c with state := .cutting })) := by
  obtain ⟨h1, h2, h3, h4⟩ := Line.segmentLaw_iff.mp h
  obtain ⟨ha, hn, -⟩ := h4 r hr
  have hu := hn (ha harmed)
  set m := (l.updRun (fun r => { r with furthest := some 0 })).entered 0 with hm
  have hmp : m.profile = (l.entered 0).profile := by
    rw [hm, Line.entered, Line.entered, Line.updRun_profile]
  have hpoints : m.points = l.points := by
    rw [Line.points, hmp]
    exact l.entered_points 0
  have hclosed : ∀ k b, ¬m.closedAt k b := by
    intro k b hb
    rw [Line.closedAt, hmp] at hb
    exact hu.not_closed k b (Line.closedAt_entered.mp hb).2
  have hmr : m.run? = some { r with furthest := some 0 } := by
    show (l.updRun _).run? = _
    rw [Line.updRun_run?, hr]
    rfl
  have hms : m.staged? = l.staged? := l.updRun_staged? _
  have hactive : ∀ x : Line, x.run? = some { r with furthest := some 0, state := .cutting } → x.lifecycle ≠ .planned := by
    intro x hx hpl
    rw [Line.lifecycle_of_run hx] at hpl
    cases hpl
  have hrun : (m.updRun (fun c => { c with state := .cutting })).run? = some { r with furthest := some 0, state := .cutting } := by
    rw [Line.updRun_run?, hmr]
    rfl
  have hpoints' : (m.updRun (fun c => { c with state := .cutting })).points = l.points := by
    rw [Line.points, Line.updRun_profile]
    exact hpoints
  refine ⟨Line.segmentLaw_iff.mpr ⟨by rwa [hpoints'], fun st hst => h2 st (by rwa [Line.updRun_staged?, hms] at hst),
    fun hpl => absurd hpl (hactive _ hrun), fun r' hr' => ?_⟩, Line.closedStand_of_not_closed hu.not_closed⟩
  cases hrun.symm.trans hr'
  refine ⟨fun h0 => (nomatch h0), fun h0 => (nomatch h0), fun f hf => ?_⟩
  cases hf
  refine ⟨?_, fun k b hb => ?_⟩
  · rw [Line.length, hpoints']
    have := h1.2
    omega
  · rw [Line.closedAt, Line.updRun_profile] at hb
    exact absurd hb (hclosed k b)

theorem State.lays_tieSucceeds {s : State} (hs : s.laidLaw) {k : Line} {r : RunContext} (hk : s.active? = some k) (hr : k.run? = some r)
    (harmed : r.state = .armed) (l : Line) : State.laysAs Line.segmentLaw Line.segmentLaw s (s.tieSucceeds l) := by
  have hlines : (s.tieSucceeds l).store.lines = (s.updActive (fun l =>
      ((l.updRun (fun r => { r with furthest := some 0 })).entered 0).updRun (fun c => { c with state := .cutting }))).store.lines := by
    have h1 := State.updActive_updActive s (f := fun l => l.updRun (fun r => { r with furthest := some 0 })) (fun l => l.updRun_isActive _)
      (fun l => l.entered 0)
    have h2 := State.updActive_updActive s (f := fun l => (l.updRun (fun r => { r with furthest := some 0 })).entered 0)
      (fun l => l.updRun_isActive _) (fun l => l.updRun (fun c => { c with state := .cutting }))
    rw [← h2, ← h1]
    have hwarn : ((s.updChain (fun k => { k with known := true, position := 0 })).warnAtTie l).store = s.store := by
      unfold State.warnAtTie
      dsimp only
      split <;> rfl
    show (State.changeRun _ .cutting).store.lines = _
    rw [State.changeRun_store]
    show (List.map _ (List.map _ (List.map _ _))) = List.map _ (List.map _ (List.map _ _))
    rw [hwarn]
    rfl
  refine State.laysAs.trans ?_ (State.laysAs_of_lines hlines (fun _ _ h => h))
  exact State.laysAs_active hs.one hk (fun l => by rw [Line.updRun_id]; exact l.updRun_id _) (fun hp => Line.law_tied hp hr harmed) (fun _ _ hp => hp)

theorem State.laysAs_reply {P Q : Line → Prop} {s t : State} (h : State.laysAs P Q s t) (p : Port) (r : Reply) : State.laysAs P Q s (t.reply p r) :=
  h.trans (State.laysAs_of_lines (by rw [State.reply_store]) (fun _ _ h => h))

theorem State.lays_judgeTie {s : State} (hs : s.laidLaw) {c : RunCore} (hc : s.dig.run = some c) (harmed : c.state = .armed) (rd : Reading) :
    State.laysAs Line.segmentLaw Line.segmentLaw s (s.judgeTie rd) := by
  have hreply : ∀ r, State.laysAs Line.segmentLaw Line.segmentLaw s (s.reply .cab r) := fun r => State.laysAs_reply s.segSame_refl.lays .cab r
  unfold State.judgeTie
  split
  · rename_i l r hl hr
    split
    · exact hreply _
    · split
      · dsimp only
        split
        · exact hreply _
        · have hr' : l.run? = some r := by
            rw [State.context?, hl] at hr
            exact hr
          have hc' : s.context?.map RunContext.core = some c := hc
          rw [hr] at hc'
          cases hc'
          exact State.laysAs_reply (State.lays_tieSucceeds hs hl hr' harmed l) .cab _
      · exact hreply _
  · exact hreply _

theorem State.lays_judgeRetie (s : State) (m : Int) (rd : Reading) : State.laysAs Line.segmentLaw Line.segmentLaw s (s.judgeRetie m rd) := by
  have hreply : ∀ r, State.laysAs Line.segmentLaw Line.segmentLaw s (s.reply .cab r) := fun r => State.laysAs_reply s.segSame_refl.lays .cab r
  unfold State.judgeRetie
  split
  · split
    · dsimp only
      split
      · exact hreply _
      · exact State.laysAs_reply (s.segSame_retieSucceeds m).lays .cab _
    · exact hreply _
  · exact hreply _

theorem State.lays_route {s : State} (hs : s.laidLaw) (n : StationId) (rd : Reading) :
    State.laysAs Line.segmentLaw Line.segmentLaw s (s.route n rd) := by
  have h1 := (s.segSame_handEvaluator (s.evalRoute n) rd).lays
  have hs1 := hs.of_lays h1 (s.altersTo_handEvaluator (s.evalRoute n) rd)
  unfold State.route
  dsimp only
  split
  · rename_i w hw
    obtain ⟨c, hc, hkind⟩ := State.waitFor?_run hw
    have hd := State.not_digging_of hc (hkind.imp (fun h => h.2) (fun h => h.2))
    have hc' := (State.handEvaluator_run hd n rd).trans hc
    refine h1.trans ?_
    unfold State.judgeWait
    rcases hkind with ⟨hk, hstate⟩ | ⟨hk, -⟩ <;> rw [hk]
    · exact State.lays_judgeTie (s := State.endWait _) ⟨hs1.one, hs1.settings, hs1.lines⟩ hc' hstate rd
    · exact State.lays_judgeRetie (State.endWait _) _ rd
  · split
    · exact h1.trans (State.laysAs_of_lines rfl (fun _ _ h => h))
    · exact h1

theorem State.lays_finishFrame {s : State} (hs : s.laidLaw) (f : Frame) : State.laysAs Line.segmentLaw Line.segmentLaw s (s.finishFrame f) := by
  have hunt : s.hunt.laidLaw := ⟨hs.one, hs.settings, hs.lines⟩
  have h0 : ∀ t : State, t.store.lines = s.store.lines → State.laysAs Line.segmentLaw Line.segmentLaw s t :=
    fun t h => State.laysAs_of_lines h (fun _ _ h => h)
  unfold State.finishFrame State.judgeFrame
  split
  · exact h0 _ rfl
  · split
    · exact h0 _ rfl
    · split
      · exact h0 _ rfl
      · exact State.laysAs.trans (h0 (s.hunt.updLive _ _) rfl) (State.lays_route (s := s.hunt.updLive _ _) ⟨hunt.one, hunt.settings, hunt.lines⟩ _ _)

/-- The line leaves ARMED, never entered (R113). -/
theorem State.lays_deselectLine {s : State} (hs : s.laidLaw) (ha : s.isArmed = true) :
    State.laysAs Line.segmentLaw Line.segmentLaw s s.deselectLine := by
  unfold State.deselectLine
  split
  · rename_i k hk
    obtain ⟨r, hr⟩ : ∃ r, k.run? = some r := by
      have := (State.active?_mem hk).2
      rw [Line.isActive_run] at this
      exact Option.isSome_iff_exists.mp this
    have harmed : r.state = .armed := by
      have h := beq_iff_eq.mp ha
      rw [State.runState?_of hk hr] at h
      exact Option.some.inj h
    have h : State.laysAs Line.segmentLaw Line.segmentLaw s (s.updActive (fun l => { l with lifecycle := .planned })) := by
      refine State.laysAs_active hs.one hk (fun _ => rfl) (fun hp => ?_) (fun _ _ hp => hp)
      obtain ⟨h1, -, -, h4⟩ := Line.segmentLaw_iff.mp hp
      obtain ⟨ha, hn, -⟩ := h4 r hr
      exact ⟨Line.segmentLaw_iff.mpr ⟨h1, fun st h => (nomatch h), fun _ => hn (ha harmed), fun r h => (nomatch h)⟩, k.closedStand_refl⟩
    exact (h.trans (State.laysAs_of_lines (t := s.leaveActive .planned) rfl (fun _ _ h => h))).trans (State.segSame_noteDropIf _ _ _).lays
  · exact s.segSame_refl.lays

/-- The line given up, every segment CLOSED (R121). -/
theorem State.lays_abandonLine (s : State) : State.laysAs Line.segmentLaw Line.segmentLaw s s.abandonLine := by
  unfold State.abandonLine
  split
  · have h : State.laysAs Line.segmentLaw Line.segmentLaw s (s.proceedChecks.updActive (fun l => { l.closeAll with lifecycle := .abandoned })) :=
      State.laysAs_updActive (s := s.proceedChecks) (fun _ => rfl)
        (fun l _ _ hp => Line.law_left (Line.segmentLaw_iff.mp hp).1 ⟨fun h => (nomatch h), fun h => (nomatch h)⟩) (fun _ _ _ hp => hp)
    rw [← State.updActive_updActive s.proceedChecks (f := Line.closeAll) (fun _ => rfl) (fun k => { k with lifecycle := .abandoned })] at h
    have h' : State.laysAs Line.segmentLaw Line.segmentLaw s ((s.proceedChecks.updActive Line.closeAll).leaveActive .abandoned) :=
      h.trans (State.laysAs_of_lines rfl (fun _ _ h => h))
    exact (h'.trans (State.segSame_noteDropIf _ _ _).lays).trans (State.segSame_markingChange _ _).lays
  · exact s.segSame_refl.lays

theorem State.lays_resumeDig {s : State} (hs : s.laidLaw) (k : Strike) : State.laysAs Line.segmentLaw Line.segmentLaw s (s.resumeDig k) := by
  have h : s.segSame (s.enterCutting k) := (s.segSame_changeRun (r := .cutting) (fun h => (nomatch h))).trans (State.segSame_of_lines rfl)
  have hs1 := hs.of_lays h.lays (s.altersTo_enterCutting k)
  unfold State.resumeDig
  dsimp only
  split
  · rename_i hlt
    refine h.lays.trans ?_
    cases hf : (s.enterCutting k).furthest? with
    | none =>
      unfold State.advance
      rw [hf]
      exact (State.segSame_refl _).lays
    | some f =>
      rw [State.reachedF, hf] at hlt
      exact State.lays_advance hs1 hf (le_of_lt hlt) _
  · exact h.lays

/-! ## Every move -/

theorem State.staged?_active {s : State} {l : Line} {st : Staged} (hl : s.active? = some l) (h : s.staged? = some st) : l.staged? = some st :=
  (State.staged?_of hl).symm.trans h

theorem State.Acts.keepsSegments {u w : State} {p : Port} (h : u.Acts p w) (hids : u.store.idsAscending) (hs : u.laidLaw)
    (hcommit : ∀ p, (u.port p).commitLaw) (hpassed : ∀ p, (u.port p).passedLaw) : u.store.keepsSegments w.store := by
  have hlays : ∀ t, State.laysAs Line.segmentLaw Line.segmentLaw u t → u.store.keepsSegments t.store := fun t h => h.keeps hids hs.lines
  have hwrite : ∀ (b : Store) (t : State), u.Writes b → ({ u with store := b } : State).segSame t → u.store.keepsSegments t.store :=
    fun b t hb ht => Store.keepsSegments.segSame (t := { u with store := b }) (hb.keepsSegments hids hs.lines hcommit hpassed) ht
  have hmarked : ∀ (t : State) (c : Change), t.store.lines = u.store.lines → u.store.keepsSegments (t.markingChange c).store :=
    fun t c h => hlays _ ((State.segSame_of_lines h).trans (t.segSame_markingChange c)).lays
  have hsame : ∀ t : State, t.store.lines = u.store.lines → u.store.keepsSegments t.store := fun t h => hlays _ (State.segSame_of_lines h).lays
  cases h with
  | retire id hclaim hpass =>
    refine hwrite _ _ (.retire id hpass) (State.segSame_of_lines ?_)
    rw [State.emptyClaim, State.updPort_store]
    show ((((u.proceedChecks.reach (.parent id)).setLines _).unqueue id).discardCheck id).store.lines = _
    obtain ⟨-, hst, -⟩ := State.keepsMachine_unitOnly (State.unitOnly_unqueue
      ((u.proceedChecks.reach (.parent id)).setLines ((u.proceedChecks.reach (.parent id)).store.lines.filter (fun l => l.id != id))) id)
    exact congrArg Store.lines hst
  | recheck id l hl hm => exact hmarked _ _ rfl
  | define n sig label hn hc => exact hsame _ rfl
  | plane n d state mm hstate hn huse => exact hmarked _ _ rfl
  | withdraw n d hn huse => exact hmarked _ _ rfl
  | restore n d hn hc => exact hmarked _ _ rfl
  | forget n d hn huse => exact hsame _ rfl
  | zeroCounters => exact hsame _ rfl
  | select id l hidle hl hsel => exact hwrite _ _ (.select id l hidle hl hsel) (State.segSame_of_lines rfl)
  | deselect ha => exact hlays _ (State.lays_deselectLine hs ha)
  | suspend hd => exact hlays _ (u.segSame_suspendDigging _).lays
  | resume k hp hpass hk => exact hlays _ (State.lays_resumeDig hs k)
  | abandon ha => exact hlays _ u.lays_abandonLine
  | mark f hr =>
    refine hlays _ (u.segSame_updRun_still (fun r => ?_)).lays
    unfold RunContext.setMark
    split <;> exact ⟨rfl, rfl⟩
  | setSettled b => exact hlays _ (u.segSame_setSettled b).lays
  | settle l st hl hst hd =>
    exact hlays _ (State.lays_applyOrDrop hs.one hl (State.staged?_active hl hst) hs.settings.freezeLead)
  | unstage l hl => exact hlays _ (u.segSame_dropStaged l _).lays
  | trim a b c => exact hlays _ (State.segSame_updRun_still (f := fun r => r.ramp a b c) u (fun _ => ⟨rfl, rfl⟩)).lays
  | set name v word hv hpass =>
    refine hlays _ (State.segSame.lays ?_)
    unfold State.changeSetting
    dsimp only
    split
    · exact State.segSame.trans (t := u.proceedChecks.setSettings _) (State.segSame_of_lines rfl) (State.segSame_markingChange _ _)
    · split
      · have hr : ∀ r : RunContext, (r.rewriteRamp u.settings.trimRamp).furthest = r.furthest ∧ (r.rewriteRamp u.settings.trimRamp).state = r.state := by
          intro r
          have h := Line.core_rewriteRamp r u.settings.trimRamp
          exact ⟨congrArg RunCore.furthest h, congrArg RunCore.state h⟩
        exact (u.segSame_updRun_still hr).trans (State.segSame_of_lines rfl)
      · exact State.segSame_of_lines rfl

theorem State.segSame_writeActive {s t : State} (hstore : t.store = s.store) (l : Line) (d : Draft) (reached : Bool) :
    ({ s with store := { s.store with lines := s.store.lines.map (fun k => if k.id = l.id then d.stagedOn l reached k else k) } } : State).segSame
      (t.writeActive l d reached) := by
  have hset : ∀ k, k = (if reached then none else some (d.stagedFor l)) →
      ({ s with store := { s.store with lines := s.store.lines.map (fun k => if k.id = l.id then d.stagedOn l reached k else k) } } : State).segSame
        (t.updLine l.id (fun m => { m.setStaged k with label := d.label })) := by
    rintro _ rfl
    refine State.segSame_of_lines ?_
    show List.map _ t.store.lines = _
    rw [hstore]
    rfl
  cases reached with
  | true => exact ((hset none rfl).trans (State.segSame_of_lines rfl)).trans (State.segSame_markLines _ _)
  | false => exact hset _ rfl

/-- The write of a commit, and the marks after it, as the segments see them. -/
theorem State.writeCommit_segSame {s : State} {p : Port} {c : CommitRun} {id : Nat} {d : Draft} (h : s.Completes p c id d) :
    ∃ b : Store, s.Writes b ∧ ({ s with store := b } : State).segSame ((s.commitOver p).writeCommit id d c.reached) := by
  have hline : (s.commitOver p).proceedChecks.line? id = s.line? id := by cases p <;> rfl
  have hstore : (s.commitOver p).proceedChecks.store = s.store := by cases p <;> rfl
  have hmark : ∀ {a t : State} (hit : Line → Bool), a.segSame t → a.segSame (t.markLines hit) := fun hit h => h.trans (State.segSame_markLines _ hit)
  unfold State.writeCommit
  dsimp only
  rw [hline]
  split
  · rename_i hl
    refine ⟨_, .create p c id d h hl, ?_⟩
    have h1 : ({ s with store := { s.store with lines := insertLine (d.newLine id) s.store.lines } } : State).segSame
        (((s.commitOver p).proceedChecks.setLines (insertLine (d.newLine id) (s.commitOver p).proceedChecks.store.lines)).reach (.parent id)) :=
      State.segSame_of_lines (by rw [hstore]; rfl)
    unfold State.writeNew
    dsimp only
    split
    · exact hmark _ h1
    · exact h1
  · rename_i l hl
    split
    · rename_i hlc
      refine ⟨_, .stage p c id d l h hl (by simp [Line.isActive, hlc, Lifecycle.kind]), ?_⟩
      exact State.segSame_writeActive (hstore := hstore) l d c.reached
    · rename_i hlc
      have hna : l.isActive = false := by
        rw [← Bool.not_eq_true, Line.isActive_iff]
        rintro ⟨r, st, hr⟩
        exact hlc r st hr
      refine ⟨_, .replace p c id d l h hl hna, ?_⟩
      have h1 : ({ s with store := { s.store with lines := s.store.lines.map (fun k => if k.id = id then d.replaced k else k) } } :
          State).segSame (((s.commitOver p).proceedChecks.updLine id d.replaced).reach (.parent id)) := by
        refine State.segSame_of_lines ?_
        show (List.map _ (s.commitOver p).proceedChecks.store.lines) = _
        rw [hstore]
      have hunqueue : ∀ t : State, t.segSame (t.unqueue id) := fun t =>
        State.segSame_of_lines (congrArg Store.lines (State.keepsMachine_unitOnly (State.unitOnly_unqueue t id)).2.1)
      unfold State.writePlanned
      dsimp only
      split
      · exact hmark _ (h1.trans (State.segSame_of_lines rfl))
      · exact hmark _ ((h1.trans (hunqueue _)).trans (State.segSame_of_lines rfl))

theorem State.completeCommit_keepsSegments {s : State} {p : Port} {c : CommitRun} {id : Nat} {d : Draft} (hc : (s.port p).commit = some c)
    (hclaim : (s.port p).claim = some id) (hdraft : (s.port p).draft = some d) (hids : s.store.idsAscending)
    (hlaw : ∀ l ∈ s.store.lines, l.segmentLaw) (hcommit : ∀ p, (s.port p).commitLaw) (hpassed : ∀ p, (s.port p).passedLaw) :
    s.store.keepsSegments (s.completeCommit p c id d).store := by
  have hsame : ∀ r, s.store.keepsSegments ((s.updPort p (fun q => { q with commit := none })).reply p r).store :=
    fun r => Store.keepsSegments_of_lines (by rw [State.reply_store, State.updPort_store]) hids hlaw
  unfold State.completeCommit
  dsimp only
  split
  · exact hsame _
  · rename_i hcheck
    split
    · exact hsame _
    · rename_i hpass
      obtain ⟨b, hb, hx⟩ := State.writeCommit_segSame ⟨hc, hclaim, hdraft, hcheck, hpass⟩
      refine Store.keepsSegments.segSame (t := { s with store := b }) (hb.keepsSegments hids hlaw hcommit hpassed) (hx.trans ?_)
      exact State.segSame_of_lines (congrArg Store.lines (commitDone_store _ p c.reached).1)

theorem State.Happens.keepsSegments {s t : State} (h : s.Happens t) (hids : s.store.idsAscending) (hs : s.laidLaw)
    (hcommit : ∀ p, (s.port p).commitLaw) (hpassed : ∀ p, (s.port p).passedLaw) : s.store.keepsSegments t.store := by
  have hlays : ∀ t, State.laysAs Line.segmentLaw Line.segmentLaw s t → s.store.keepsSegments t.store := fun t h => h.keeps hids hs.lines
  have hsame : ∀ t : State, t.store.lines = s.store.lines → s.store.keepsSegments t.store := fun t h => hlays _ (State.segSame_of_lines h).lays
  cases h with
  | completeCommit p c id d hc hclaim hdraft => exact State.completeCommit_keepsSegments hc hclaim hdraft hids hs.lines hcommit hpassed
  | lookForWork => exact hlays _ (State.segSame_unitWorks (State.unitWorks_lookForWork s)).lays
  | finishRecheck f hf => exact hlays _ (s.segSame_finishRecheck f).lays
  | link f hf => exact hsame _ rfl
  | frame f => exact hlays _ (State.lays_finishFrame hs f)
  | transition ch => exact hlays _ (State.lays_validTransition hs ch)
  | invalid => exact hsame _ rfl
  | timer => exact hlays _ (State.segSame_ite s.segSame_enterCoasting).lays
  | waitOver hd => exact hsame _ rfl
  | tie hr ha => exact hsame _ rfl
  | retie args mm hr hstop hlow hhigh => exact hsame _ rfl
  | restart => exact hlays _ s.segSame_restart.lays
  | clear row hi => exact ⟨fun m hm => (nomatch hm), fun l _ => .inl rfl⟩
  | power powered resetLow => exact hsame _ rfl
  | powerRestart powered resetLow => exact hlays _ (State.segSame_restart { s with powered := powered, resetLow := resetLow }).lays

theorem State.Moves.keepsSegments {s t : State} (h : s.Moves t) (hids : s.store.idsAscending) (hs : s.laidLaw)
    (hcommit : ∀ p, (s.port p).commitLaw) (hpassed : ∀ p, (s.port p).passedLaw) : s.store.keepsSegments t.store := by
  cases h with
  | stays => exact Store.keepsSegments_of_lines rfl hids hs.lines
  | port p hq => exact Store.keepsSegments_of_lines (by rw [State.updPort_store]) hids hs.lines
  | act p row r hr hw =>
    have hst : (s.taken p row).store = s.store := State.taken_store s p row
    have hport : ∀ q, ((s.taken p row).port q).commit = (s.port q).commit ∧ ((s.taken p row).port q).claim = (s.port q).claim
        ∧ ((s.taken p row).port q).draft = (s.port q).draft := fun q => by cases p <;> cases q <;> exact ⟨rfl, rfl, rfl⟩
    have h := hw.keepsSegments (by rwa [hst])
      ⟨by rw [hst]; exact hs.one, by rw [State.settings, hst]; exact hs.settings, by rw [hst]; exact hs.lines⟩ (fun q => ?_) (fun q => ?_)
    · rw [hst] at h
      rwa [State.reply_store]
    · unfold PortState.commitLaw
      rw [(hport q).1]
      exact hcommit q
    · unfold PortState.passedLaw
      rw [(hport q).1, (hport q).2.1, (hport q).2.2]
      exact hpassed q
  | event h => exact h.keepsSegments hids hs hcommit hpassed

/-! ## What a commit in flight has passed (R48, R50) -/

theorem PortState.passedLaw_none {q : PortState} (h : q.commit = none ∨ q.claim = none ∨ q.draft = none) : q.passedLaw := by
  intro c hc id hid d hd
  rcases h with h | h | h
  · exact (nomatch h.symm.trans hc)
  · exact (nomatch h.symm.trans hid)
  · exact (nomatch h.symm.trans hd)

theorem State.PortMoves.passedLaw {s : State} {p : Port} {q : PortState} (h : s.PortMoves p q) (hhand : s.handLaw) (hs : (s.port p).passedLaw) :
    q.passedLaw := by
  cases h with
  | released hb row r => exact PortState.passedLaw_none (.inr (.inl rfl))
  | lapsed hd => exact PortState.passedLaw_none (.inr (.inl rfl))
  | claimed hb row r id hlow hhigh hother hfree => exact PortState.passedLaw_none (.inr (.inr rfl))
  | drafted hb row r d hclaim hlaw => exact PortState.passedLaw_none (.inl (hhand.no_commit hb))
  | discarded hb row r => exact PortState.passedLaw_none (.inr (.inr rfl))
  | committed hb args id d hclaim hdraft hpass =>
    intro c hc id' _ d' _ _
    cases hc
    exact ⟨fun h => (nomatch h), fun h => (nomatch h)⟩
  | _ => exact hs

theorem PortState.passedLaw_congr {q r : PortState} (hc : r.commit = q.commit) (hid : r.claim = q.claim) (hd : r.draft = q.draft)
    (h : q.passedLaw) : r.passedLaw := by
  unfold PortState.passedLaw
  rw [hc, hid, hd]
  exact h

theorem State.passedLaw_taken {s : State} (hs : ∀ q, (s.port q).passedLaw) (p : Port) (row : Instr) (q : Port) : ((s.taken p row).port q).passedLaw :=
  PortState.passedLaw_congr (by cases p <;> cases q <;> rfl) (by cases p <;> cases q <;> rfl) (by cases p <;> cases q <;> rfl) (hs q)

theorem State.passedLaw_reply {s : State} (hs : ∀ q, (s.port q).passedLaw) (p : Port) (r : Reply) (q : Port) : ((s.reply p r).port q).passedLaw :=
  PortState.passedLaw_congr (by cases p <;> cases q <;> rfl) (by cases p <;> cases q <;> rfl) (by cases p <;> cases q <;> rfl) (hs q)

theorem State.altersTo.passedLaw {s t : State} (h : s.altersTo t) (hs : ∀ q, (s.port q).passedLaw) (q : Port) : (t.port q).passedLaw := by
  obtain ⟨-, -, -, hp⟩ := h.port q
  exact hp (hs q)

theorem State.Acts.passedLaw {u w : State} {p : Port} (h : u.Acts p w) (hs : ∀ q, (u.port q).passedLaw) (q : Port) : (w.port q).passedLaw := by
  obtain ⟨b, x, -, hx, hw⟩ := h.effect
  have hxs : ∀ q, (x.port q).passedLaw := hx.passedLaw (s := { u with store := b }) (fun q => by cases q; exacts [hs .cab, hs .plan])
  rcases hw with rfl | rfl
  · exact hxs q
  · rw [State.emptyClaim, State.port_updPort_cases]
    split
    · exact PortState.passedLaw_none (.inr (.inl rfl))
    · exact hxs q

theorem PortState.passedLaw_reset : PortState.reset.passedLaw := PortState.passedLaw_none (.inl rfl)

theorem State.Happens.passedLaw {s t : State} (h : s.Happens t) (hs : ∀ q, (s.port q).passedLaw) (q : Port) : (t.port q).passedLaw := by
  have halter : s.altersTo t → (t.port q).passedLaw := fun h => h.passedLaw hs q
  cases h with
  | completeCommit p c id d hc hclaim hdraft =>
    have hover : ∀ q, ((s.commitOver p).port q).passedLaw := fun q => by
      rw [State.commitOver, State.port_updPort_cases]
      split
      · exact PortState.passedLaw_none (.inl rfl)
      · exact hs q
    rcases State.completeCommit_effect hc hclaim hdraft with ⟨r, heq⟩ | ⟨b, x, -, hx, heq⟩ <;> rw [heq]
    · exact State.passedLaw_reply hover p r q
    · have hxs : ∀ q, (x.port q).passedLaw :=
        hx.passedLaw (s := { s.commitOver p with store := b }) (fun q => by cases q; exacts [hover .cab, hover .plan])
      refine State.passedLaw_reply (fun q => ?_) p _ q
      rw [State.port_updPort_cases]
      split
      · exact PortState.passedLaw_none (.inr (.inr rfl))
      · exact hxs q
  | lookForWork => exact halter (State.altersTo_lookForWork s)
  | finishRecheck f hf => exact halter (State.altersTo_finishRecheck s f)
  | link f hf => exact halter (State.altersTo_updLink s f)
  | frame f =>
    rcases State.finishFrame_judges s f with h | ⟨x, r, hx, -, -, heq⟩
    · exact halter h
    · rw [heq]
      exact State.passedLaw_reply (hx.passedLaw hs) .cab r q
  | transition ch => exact halter (State.altersTo_validTransition s ch)
  | invalid => exact halter (State.altersTo_updChain s _)
  | timer => exact halter (State.altersTo_expireTimer s)
  | waitOver hd => exact State.passedLaw_reply ((State.altersTo_endWait s).passedLaw hs) .cab _ q
  | tie hr ha => exact State.passedLaw_taken hs .cab _ q
  | retie args mm hr hst hlow hhigh => exact State.passedLaw_taken hs .cab _ q
  | restart | powerRestart => cases q <;> exact PortState.passedLaw_reset
  | clear row hi =>
    cases q with
    | cab => exact PortState.passedLaw_reset
    | plan => exact PortState.passedLaw_none (.inl rfl)
  | power powered resetLow => cases q; exacts [hs .cab, hs .plan]

theorem State.Moves.passedLaw {s t : State} (h : s.Moves t) (hhand : s.handLaw) (hs : ∀ q, (s.port q).passedLaw) (q : Port) :
    (t.port q).passedLaw := by
  cases h with
  | stays => exact hs q
  | port p hq =>
    rw [State.port_updPort_cases]
    split
    · exact hq.passedLaw hhand (hs p)
    · exact hs q
  | act p row r hr hw => exact State.passedLaw_reply (hw.passedLaw (State.passedLaw_taken hs p row)) p r q
  | event h => exact h.passedLaw hs q

/-! ## The step -/

theorem closedLaw_iff {s : State} : s.closedLaw ↔ s.tableLaw ∧ s.portLaw ∧ s.laidLaw ∧ ∀ p, (s.port p).passedLaw := by
  constructor
  · rintro ⟨htable, hport, hset, hcab, hplan, hlines⟩
    obtain ⟨-, -, -, hone, -⟩ := id htable
    exact ⟨htable, hport, ⟨hone, hset, hlines⟩, fun p => by cases p; exacts [hcab, hplan]⟩
  · rintro ⟨htable, hport, ⟨-, hset, hlines⟩, hpassed⟩
    exact ⟨htable, hport, hset, hpassed .cab, hpassed .plan, hlines⟩

/-- What of the law a move is proved from. -/
theorem State.closedLaw.parts {s : State} (h : s.closedLaw) : s.store.idsAscending ∧ s.laidLaw ∧ (∀ p, (s.port p).commitLaw)
    ∧ (∀ p, (s.port p).passedLaw) ∧ s.handLaw := by
  obtain ⟨htable, hport, hlaid, hpassed⟩ := closedLaw_iff.mp h
  obtain ⟨hports, -, hhand⟩ := portLaw_iff.mp hport
  refine ⟨htable.1, hlaid, fun p => ?_, hpassed, hhand⟩
  obtain ⟨-, -, -, -, -, -, hc⟩ := hports p
  exact hc

theorem keptByMoves_closedLaw : KeptByMoves State.closedLaw := by
  refine ⟨fun s time pending hs => hs, fun s t h hs => ?_⟩
  obtain ⟨hids, hlaid, hcommit, hpassed, hhand⟩ := hs.parts
  obtain ⟨htable, hport, -, -⟩ := closedLaw_iff.mp hs
  have htable' := h.tableLaw htable
  obtain ⟨-, -, -, hone, -⟩ := id htable'
  obtain ⟨-, b, hb, halter⟩ := h.writes
  refine closedLaw_iff.mpr ⟨htable', keptByMoves_portLaw.moves s t h hport, ⟨hone, ?_, (h.keepsSegments hids hlaid hcommit hpassed).1⟩,
    h.passedLaw hhand hpassed⟩
  rw [State.settings, halter.2.1]
  exact hb.settingsLaw hlaid.settings

/-- With no row at the front the timers alone touch the lines. -/
theorem State.segSame_idle (s : State) : s.segSame (idle s) := by
  unfold idle
  split
  · have h1 : s.segSame s.expireTimer := State.segSame_ite s.segSame_enterCoasting
    have h2 := h1.trans (State.segSame_of_lines (congrArg Store.lines (State.expireWait_store s.expireTimer)))
    have h3 := h2.trans (State.segSame_of_lines (congrArg Store.lines (State.expireLapse_store _ .cab)))
    have h4 := h3.trans (State.segSame_of_lines (congrArg Store.lines (State.expireLapse_store _ .plan)))
    have h5 : ∀ t : State, t.segSame t.expireGap := fun t => State.segSame_ite (State.segSame_of_lines rfl)
    exact h4.trans ((h5 _).trans (State.segSame_of_lines rfl))
  · exact s.segSame_refl

theorem step_keepsSegments {s t : State} (hs : s.closedLaw) (h : step s = .next t) : s.store.keepsSegments t.store := by
  obtain ⟨hids, hlaid, hcommit, hpassed, -⟩ := hs.parts
  cases hp : s.pending with
  | nil =>
    rw [step_nil hp] at h
    cases h
    exact s.segSame_idle.lays.keeps hids hlaid.lines
  | cons c rest =>
    rw [step_cons s c rest hp] at h
    obtain ⟨u, hu, hm⟩ := exec_moves c { s with pending := rest }
    rw [hu] at h
    cases h
    exact hm.keepsSegments (s := { s with pending := rest }) hids ⟨hlaid.one, hlaid.settings, hlaid.lines⟩
      (fun p => by cases p; exacts [hcommit .cab, hcommit .plan]) (fun p => by cases p; exacts [hpassed .cab, hpassed .plan])

/-- Settles O13: each move keeps the segments; the walk of an advance has fuel for every point ahead, and so F stays below the length. -/
theorem stepKeepsClosedSegments : Obligations.StepKeepsClosedSegments :=
  fun _ _ hs h => ⟨keptByMoves_closedLaw.step h hs, (step_keepsSegments hs h).2⟩

end Sys2Proof.Machine
end

section
/-! PROOF. ACK and MASK (10.5), restart, store clear and the RESET input (11). -/
namespace Sys2Proof.Machine

/-! ## ACK and MASK (R172, R173) -/

theorem EventKind.mem_all (k : EventKind) : k ∈ EventKind.all := by cases k <;> decide

theorem mem_clearKinds {gone es : List EventKind} {k : EventKind} : k ∈ clearKinds gone es ↔ k ∈ es ∧ k ∉ gone := by
  simp [clearKinds]

/-- The words of ACK are good: there is one, and each is ALL or names a kind. -/
def ackGood (args : List Text) : Prop := args ≠ [] ∧ ∀ w ∈ args, isKeyword "ALL" w = true ∨ eventKind? w ≠ none

theorem ackKinds?_none {args : List Text} (h : ¬ackGood args) : ackKinds? args = none := by
  unfold ackKinds?
  by_cases hnil : args = []
  · rw [if_pos (by rw [hnil]; rfl)]
  · have hbad : ∃ w ∈ args, isKeyword "ALL" w = false ∧ eventKind? w = none := by
      by_contra hall
      refine h ⟨hnil, fun w hw => ?_⟩
      by_contra hw'
      rw [not_or, Bool.not_eq_true, not_not] at hw'
      exact hall ⟨w, hw, hw'⟩
    obtain ⟨w, hw, hkey, hkind⟩ := hbad
    rw [if_neg (by simpa using hnil)]
    split
    · rw [(eventKinds?_none _).mpr ⟨w, List.mem_filter.mpr ⟨hw, by simp [hkey]⟩, hkind⟩, Option.map_none]
    · exact (eventKinds?_none _).mpr ⟨w, hw, hkind⟩

theorem ackKinds?_some {args : List Text} (h : ackGood args) :
    ∃ es, ackKinds? args = some es ∧ ∀ k, k ∈ es ↔ ∃ w ∈ args, isKeyword "ALL" w = true ∨ eventKind? w = some k := by
  obtain ⟨hnil, hall⟩ := h
  unfold ackKinds?
  rw [if_neg (by simpa using hnil)]
  split
  · rename_i hany
    rw [List.any_eq_true] at hany
    obtain ⟨w, hw, hkey⟩ := hany
    have hsome : eventKinds? (args.filter (fun w => !isKeyword "ALL" w)) ≠ none := by
      rw [ne_eq, eventKinds?_none]
      rintro ⟨x, hx, hnone⟩
      obtain ⟨hmem, hx⟩ := List.mem_filter.mp hx
      exact (hall x hmem).elim (fun h => by simp [h] at hx) (fun h => h hnone)
    obtain ⟨es, hes⟩ := Option.ne_none_iff_exists'.mp hsome
    exact ⟨_, by rw [hes, Option.map_some], fun k => ⟨fun _ => ⟨w, hw, .inl hkey⟩, fun _ => k.mem_all⟩⟩
  · rename_i hany
    have hno : ∀ w ∈ args, isKeyword "ALL" w = false := by simpa using hany
    have hsome : eventKinds? args ≠ none := by
      rw [ne_eq, eventKinds?_none]
      rintro ⟨x, hx, hnone⟩
      exact (hall x hx).elim (fun h => by simp [hno x hx] at h) (fun h => h hnone)
    obtain ⟨es, hes⟩ := Option.ne_none_iff_exists'.mp hsome
    refine ⟨es, hes, fun k => (mem_eventKinds? _ _ hes k).trans ⟨fun ⟨w, hw, hk⟩ => ⟨w, hw, .inr hk⟩, ?_⟩⟩
    rintro ⟨w, hw, h | h⟩
    · simp [hno w hw] at h
    · exact ⟨w, hw, h⟩

/-- The words of MASK are good: a kind, and ON or OFF. -/
def maskGood (args : List Text) : Prop :=
  ∃ kw ow e, args = [kw, ow] ∧ eventKind? kw = some e ∧ (isKeyword "ON" ow = true ∨ isKeyword "OFF" ow = true)

theorem maskArgs?_none {args : List Text} (h : ¬maskGood args) : maskArgs? args = none := by
  unfold maskArgs?
  split
  · rename_i kw ow
    split
    · rename_i e b hkind hon
      refine absurd ⟨kw, ow, e, rfl, hkind, ?_⟩ h
      unfold onOff? at hon
      split at hon
      · rename_i h1
        exact .inl h1
      · split at hon
        · rename_i h1
          exact .inr h1
        · exact (nomatch hon)
    · rfl
  · rfl

theorem maskArgs?_some {kw ow : Text} {e : EventKind} (he : eventKind? kw = some e)
    (h : isKeyword "ON" ow = true ∨ isKeyword "OFF" ow = true) : maskArgs? [kw, ow] = some (e, isKeyword "ON" ow) := by
  have hon : onOff? ow = some (isKeyword "ON" ow) := by
    unfold onOff?
    cases hk : isKeyword "ON" ow with
    | true => rfl
    | false => rw [if_neg (by simp), if_pos (h.resolve_left (by simp [hk]))]
  simp only [maskArgs?, he, hon]

theorem mem_maskWith {e k : EventKind} {on : Bool} {m : List EventKind} :
    k ∈ maskWith e on m ↔ (k = e ∧ on = true) ∨ (k ≠ e ∧ k ∈ m) := by
  cases on with
  | true =>
    show k ∈ setKind e m ↔ _
    rw [mem_setKind]
    by_cases h : k = e <;> simp [h]
  | false =>
    show k ∈ clearKinds [e] m ↔ _
    rw [mem_clearKinds]
    simp [and_comm]

theorem exec_ack_ready {p : Port} {args : List Text} {s : State} (h : s.ready p (.ack p args)) :
    exec (.ack p args) s = .next (match ackKinds? args with
      | none => (s.taken p (.ack p args)).no p .syn
      | some es => ((s.taken p (.ack p args)).clearEvents p es).ok p) := congrArg _ (takeLine_ready _ h)

theorem exec_mask_ready {p : Port} {args : List Text} {s : State} (h : s.ready p (.mask p args)) :
    exec (.mask p args) s = .next (match maskArgs? args with
      | none => (s.taken p (.mask p args)).no p .syn
      | some (e, on) => ((s.taken p (.mask p args)).setMask p e on).ok p) := congrArg _ (takeLine_ready _ h)

theorem taken_clearEvents_ok (s : State) (p : Port) (row : Instr) (es : List EventKind) :
    ((s.taken p row).clearEvents p es).ok p
      = (s.answered p row okReply).updPort p (fun q => { q with events := clearKinds es (s.port p).events }) := by
  cases p <;> rfl

theorem taken_setMask_ok (s : State) (p : Port) (row : Instr) (e : EventKind) (on : Bool) :
    ((s.taken p row).setMask p e on).ok p
      = (s.answered p row okReply).updPort p (fun q => { q with mask := maskWith e on (s.port p).mask }) := by
  cases p <;> rfl

/-- Settles O56: the words read as a set of kinds, and a filter of the set is a set difference. -/
theorem ackAndMask : Obligations.AckAndMask := by
  refine ⟨fun p args s h => ⟨fun hbad => ?_, fun hgood => ?_⟩, fun p args s h => ⟨fun hbad => ?_, fun kw ow e hargs he hon => ?_⟩⟩
  · rw [exec_ack_ready h]
    simp only [ackKinds?_none hbad, taken_no]
  · obtain ⟨es, hes, hmem⟩ := ackKinds?_some hgood
    refine ⟨clearKinds es (s.port p).events, ?_, fun k => ?_⟩
    · rw [exec_ack_ready h]
      simp only [hes, taken_clearEvents_ok]
    · rw [mem_clearKinds, hmem]
  · rw [exec_mask_ready h]
    simp only [maskArgs?_none hbad, taken_no]
  · subst hargs
    refine ⟨maskWith e (isKeyword "ON" ow) (s.port p).mask, ?_, fun k => mem_maskWith⟩
    rw [exec_mask_ready h]
    simp only [maskArgs?_some he hon, taken_setMask_ok]

/-! ## Power, the RESET input, RESTART and CLEARSTORE (R181 to R183) -/

theorem takeLine_of_not_running {p : Port} {row : Instr} {s : State} (body : State → State) (h : s.running = false) :
    takeLine p row s body = s := by
  simp [takeLine, h]

theorem State.running_of {s : State} (hp : s.powered = true) (hr : s.resetLow = false) : s.running = true :=
  State.running_iff.mpr ⟨hp, hr⟩

theorem State.not_running_iff {s : State} : s.running = false ↔ s.powered = false ∨ s.resetLow = true := by
  unfold State.running
  cases s.powered <;> cases s.resetLow <;> simp

/-- Without power, or while RESET is held low, no row but these three changes anything (R181). -/
theorem exec_of_not_running {s : State} (h : s.running = false) {i : Instr} (h1 : i ≠ .powerOn) (h2 : i ≠ .supplyLoss)
    (h3 : i ≠ .resetInput) : exec i s = .next s := by
  have hif : ∀ {b : Bool} {t : State}, (if s.running && b then t else s) = s := fun {b t} => by rw [h]; rfl
  have hif' : ∀ {t : State}, (if s.running then t else s) = s := fun {t} => by rw [h]; rfl
  cases i with
  | powerOn => exact absurd rfl h1
  | supplyLoss => exact absurd rfl h2
  | resetInput => exact absurd rfl h3
  | emptyLine p => exact congrArg _ hif
  | lineWhileBusy p =>
    refine congrArg Host.Outcome.next (if_neg ?_)
    simp [h]
  | replySent p => exact congrArg _ hif'
  | claimLapseExpiry p => exact congrArg _ hif'
  | commitCompletion p => exact congrArg _ hif'
  | checkStart => exact congrArg _ hif'
  | recheckCompletion => exact congrArg _ hif'
  | frameComplete => exact congrArg _ hif
  | frameFramingError => exact congrArg _ hif
  | frameGapTimeout => exact congrArg _ hif'
  | odoValidTransition ch => exact congrArg _ hif'
  | odoInvalidTransition => exact congrArg _ hif'
  | strikeTimerExpiry => exact congrArg _ hif'
  | tieWaitDeadline => exact congrArg _ hif'
  | receiverLinkByte b => exact congrArg _ hif'
  | commandPortByte p b e => exact congrArg _ hif'
  | _ => exact congrArg _ (takeLine_of_not_running _ h)

theorem outputs_of_not_running {s : State} (h : s.running = false) :
    s.permit = false ∧ s.raisingCoil = 0 ∧ s.loweringCoil = 0 ∧ ∀ p : Port, s.attention p = false :=
  ⟨by rw [State.permit, h]; rfl, by rw [State.raisingCoil, h]; rfl, by rw [State.loweringCoil, h]; rfl,
    fun p => by rw [State.attention, h]; rfl⟩

theorem exec_powerOn_of {s : State} (h : s.powered = false) :
    exec .powerOn s = .next ({ s with powered := true } : State).restartIfRunning := by
  show Host.Outcome.next _ = _
  rw [if_neg (by simp [h])]

theorem exec_resetInput_of {s : State} (h : s.resetLow = true) :
    exec .resetInput s = .next ({ s with resetLow := false } : State).restartIfRunning := congrArg _ (if_pos h)

theorem exec_replySent_restart {p : Port} {args : List Text} {s : State} (hs : s.running = true)
    (hh : (s.port p).hand = .sending (some (.restart p args)) okReply) : exec (.replySent p) s = .next s.restart := by
  show Host.Outcome.next _ = _
  rw [if_pos hs]
  simp only [hh]
  rfl

/-- The factory contents of CLEARSTORE, with its OK being sent and the levels, the queue and the free values as they were (R183). -/
theorem taken_clearStore (s : State) (hs : s.running = true) (row : Instr) :
    (s.taken .plan row).clearStore row = { State.reset with
      chain := { State.reset.chain with levelA := s.chain.levelA, levelB := s.chain.levelB }
      plan := { State.reset.plan with hand := .sending (some row) okReply }
      free := s.free
      pending := s.pending } := by
  obtain ⟨hp, hr⟩ := State.running_iff.mp hs
  show ({ powered := s.powered, resetLow := s.resetLow, time := _, store := _, cab := _, plan := _, recheck := _, link := _, chain := _,
          run := _, eval := _, free := _, pending := _ } : State) = _
  rw [hp, hr]
  rfl

/-- Settles O58: a restart is the one of R181 on whichever row leads to it, and no other row acts while the module does not run. -/
theorem restartAndClearstore : Obligations.RestartAndClearstore := by
  refine ⟨fun s => ⟨fun hp hr => ?_, fun hp hr => ?_, fun hp => ?_, fun hr => ?_, fun hr hp => ?_, fun hr hp => ?_, rfl⟩, fun s h => ?_,
    fun p s h => ?_, fun p args s hs hh => ?_, fun s h => ⟨fun hc => ?_, fun hc => ?_⟩⟩
  · have hrun : ({ s with powered := true } : State).running = true := State.running_of rfl hr
    refine ⟨_, exec_powerOn_of hp, ?_⟩
    rw [State.restartIfRunning, if_pos hrun]
    exact State.restart_restartedTo hrun
  · rw [exec_powerOn_of hp, State.restartIfRunning, if_neg (by simp [State.running, hr])]
  · exact congrArg _ (if_pos hp)
  · exact congrArg Host.Outcome.next (if_neg (by simp [hr]))
  · have hrun : ({ s with resetLow := false } : State).running = true := State.running_of hp rfl
    refine ⟨_, exec_resetInput_of hr, ?_⟩
    rw [State.restartIfRunning, if_pos hrun]
    exact State.restart_restartedTo hrun
  · rw [exec_resetInput_of hr, State.restartIfRunning, if_neg (by simp [State.running, hp])]
  · have hrun := State.not_running_iff.mpr h
    obtain ⟨h1, h2, h3, h4⟩ := outputs_of_not_running hrun
    exact ⟨h1, h2, h3, h4, fun i => exec_of_not_running hrun⟩
  · show Host.Outcome.next _ = _
    rw [takeLine_ready _ h, State.withNone_nil, taken_ok]
    rfl
  · exact ⟨_, exec_replySent_restart hs hh, State.restart_restartedTo hs⟩
  · show Host.Outcome.next _ = _
    rw [takeLine_ready _ h, State.withNone_nil, State.clearOn, State.isIdle, taken_context?, if_neg (by simpa using hc), taken_no]
  · show Host.Outcome.next _ = _
    rw [takeLine_ready _ h, State.withNone_nil, State.clearOn, State.isIdle, taken_context?, if_pos (by simp [hc]),
      taken_clearStore s h.1]

end Sys2Proof.Machine
end

section
/-! PROOF. The run commands and the run's timers (07): SELECT, the waits of TIE and RETIE, the strike timer, MARK and TRIM, and the
commands on the staged revision (09). -/
namespace Sys2Proof.Machine

/-! ## SELECT (R112) -/

theorem taken_selectable (s : State) (p : Port) (row : Instr) (l : Line) : (s.taken p row).selectable l = s.selectable l := by
  simp only [State.selectable, taken_line?]

theorem State.isIdle_of_context {s : State} (h : s.context? ≠ none) : s.isIdle = false := by
  obtain ⟨r, hr⟩ := Option.ne_none_iff_exists'.mp h
  rw [State.isIdle, hr]
  rfl

theorem State.isIdle_of_none {s : State} (h : s.context? = none) : s.isIdle = true := by
  rw [State.isIdle, h]
  rfl

theorem taken_isIdle (s : State) (p : Port) (row : Instr) : (s.taken p row).isIdle = s.isIdle := by
  rw [State.isIdle, taken_context?, State.isIdle]

theorem exec_select_ready {w : Text} {id : Nat} {s : State} (h : s.ready .cab (.select .cab [w])) (hw : number? w = some (id : Int))
    (h1 : 1 ≤ id) (h2 : id ≤ 999) :
    exec (.select .cab [w]) s = .next (let t := s.taken .cab (.select .cab [w])
      if s.isIdle then t.selectId .cab id else t.no .cab .state) := by
  have hid : lineId? (id : Int) = some id := by
    rw [lineId?_of_range (by omega) (by omega)]
    rfl
  show Host.Outcome.next _ = _
  rw [takeLine_ready _ h, State.withNumber_of hw, State.cabOnly_cab]
  simp only [State.selectNumber, taken_isIdle, hid]

theorem taken_selectLine_ok (s : State) (row : Instr) (id : Nat) :
    ((s.taken .cab row).selectLine id).ok .cab =
      (({ (s.answered .cab row okReply).updLine id (fun k => { k with lifecycle := .active RunContext.selected none }) with
        chain := { s.chain with known := false, position := 0, endWarned := false }
        run := { s.run with coast := 0, timer := none, wait := none }
        eval := { serving := none, gradeCount := 0, gradeFlag := false, drive := 0, reference := none } } : State).raise .run) := rfl

theorem State.selectable_iff_fit {s : State} {l : Line} : s.selectable l = true ↔ l.lifecycle.kind = .planned ∧ l.status = .checked
    ∧ ∀ q, l.parent? = some q → ∃ k, s.line? q = some k ∧ k.lifecycle.kind = .complete := by
  simp only [State.selectable, Bool.and_eq_true, beq_iff_eq, Option.all_eq_true, any_line_iff, and_assoc]

/-- Settles O47: the tests of R112 in their order. -/
theorem selectArmsTheRun : Obligations.SelectArmsTheRun := by
  intro w id s h hw h1 h2
  refine ⟨fun hc => ?_, fun hc hl => ?_, fun l hc hl => ?_⟩
  · rw [exec_select_ready h hw h1 h2]
    simp only [State.isIdle_of_context hc, Bool.false_eq_true, if_false, taken_no]
  · rw [exec_select_ready h hw h1 h2]
    simp only [State.isIdle_of_none hc, if_true, State.selectId, taken_line?, hl, taken_no]
  · have hexec : exec (.select .cab [w]) s = .next (let t := s.taken .cab (.select .cab [w])
        if s.selectable l then
          match s.holder? id with
          | some h => t.reply .cab (.no .held [portField h])
          | none => (t.selectLine id).ok .cab
        else t.no .cab .state) := by
      rw [exec_select_ready h hw h1 h2]
      simp only [State.isIdle_of_none hc, if_true, State.selectId, taken_line?, hl, taken_selectable]
      rfl
    rw [hexec]
    refine ⟨fun hfit => ?_, fun x hfit hx => ?_, fun hfit hx => ?_⟩
    · simp only [if_neg (fun hsel => hfit (State.selectable_iff_fit.mp hsel)), taken_no]
    · simp only [State.selectable_iff_fit.mpr hfit, if_true, hx, taken_reply]
    · simp only [State.selectable_iff_fit.mpr hfit, if_true, hx, taken_selectLine_ok]
      rfl

/-! ## TIE and RETIE taken, and the deadline (R114, R119) -/

theorem State.isArmed_of {s : State} {l : Line} {r : RunContext} (ha : s.active? = some l) (hr : l.run? = some r) :
    s.isArmed = true ↔ r.state = .armed := by
  rw [State.isArmed, State.runState?_of ha hr]
  simp

theorem State.activeChecked_of {s : State} {l : Line} (ha : s.active? = some l) : s.activeChecked = true ↔ l.status = .checked := by
  simp [State.activeChecked, ha]

theorem taken_activeChecked (s : State) (p : Port) (row : Instr) : (s.taken p row).activeChecked = s.activeChecked := by
  rw [State.activeChecked, taken_active?, State.activeChecked]

theorem taken_spanList (s : State) (p : Port) (row : Instr) : (s.taken p row).spanList = s.spanList := by
  rw [State.spanList, taken_active?, State.spanList]

theorem State.reachedF_of {s : State} {l : Line} {r : RunContext} (ha : s.active? = some l) (hr : l.run? = some r) :
    s.reachedF = r.furthest.getD 0 := by
  rw [State.reachedF, State.furthest?, State.context?_of ha hr]
  rfl

theorem taken_reachedF (s : State) (p : Port) (row : Instr) : (s.taken p row).reachedF = s.reachedF := by
  rw [State.reachedF, taken_furthest?, State.reachedF]

theorem stationAt_of {spans : List Span} {k : Nat} {x : Span} (h : spans[k]? = some x) : stationAt spans k = x.station := by
  rw [stationAt, h]
  rfl

theorem exec_tie_ready {s : State} (h : s.ready .cab (.tie .cab [])) :
    exec (.tie .cab []) s = .next (let t := s.taken .cab (.tie .cab [])
      if s.isArmed && s.activeChecked then t.startWait .tie (stationAt s.spanList 0) 0 else t.no .cab .state) := by
  show Host.Outcome.next _ = _
  rw [takeLine_ready _ h, State.withNone_nil, State.cabOnly_cab, taken_isArmed, taken_activeChecked, taken_spanList]

theorem exec_retie_ready {w : Text} {mm : Int} {s : State} (h : s.ready .cab (.retie .cab [w])) (hw : number? w = some mm) :
    exec (.retie .cab [w]) s = .next (let t := s.taken .cab (.retie .cab [w])
      if s.stopped then
        if within (s.reachedF - s.settings.backup) s.reachedF mm then
          t.startWait .retie (stationAt s.spanList (spanIndex s.spanList mm)) mm
        else t.no .cab .range
      else t.no .cab .state) := by
  show Host.Outcome.next _ = _
  rw [takeLine_ready _ h, State.withNumber_of hw, State.cabOnly_cab, State.retieTo, taken_stopped, taken_spanList, taken_reachedF,
    State.taken_settings]

theorem State.waitDue_of {s : State} {w : TieWait} (h : s.run.wait = some w) : s.waitDue = decide (w.deadline ≤ s.time) := by
  rw [State.waitDue, h]
  rfl

/-- Settles O49: each row's tests in their order, and the wait it sets up. -/
theorem waitsAreSetUpAndExpire : Obligations.WaitsAreSetUpAndExpire := by
  refine ⟨fun l r x s h ha hr hx => ⟨fun hno => ?_, fun harmed hch => ?_⟩, fun l r x w mm f s h hw ha hr hf hx =>
    ⟨fun hst => ?_, fun hst hrange => ?_, fun hst h1 h2 => ?_⟩, fun w s hs hwait => ⟨fun hd => ?_, fun hd => ?_⟩⟩
  · have hfail : ¬(s.isArmed && s.activeChecked) = true := by
      rw [Bool.and_eq_true, State.isArmed_of ha hr, State.activeChecked_of ha]
      tauto
    rw [exec_tie_ready h]
    simp only [if_neg hfail, taken_no]
  · have hpass : (s.isArmed && s.activeChecked) = true := by
      rw [Bool.and_eq_true, State.isArmed_of ha hr, State.activeChecked_of ha]
      exact ⟨harmed, hch⟩
    have hstation : stationAt s.spanList 0 = x.station := by
      rw [State.spanList_of ha]
      exact stationAt_of (by rw [← List.head?_eq_getElem?, hx])
    rw [exec_tie_ready h]
    simp only [if_pos hpass, hstation]
    rfl
  · rw [exec_retie_ready h hw]
    simp only [State.stopped_of ha hr, hst, Bool.false_eq_true, if_false, taken_no]
  · have hreach : s.reachedF = f := by
      rw [State.reachedF_of ha hr, hf]
      rfl
    have hout : ¬within (f - s.settings.backup) f mm = true := by
      rw [within_iff]
      omega
    rw [exec_retie_ready h hw]
    simp only [State.stopped_of ha hr, hst, if_true, hreach, if_neg hout, taken_no]
  · have hreach : s.reachedF = f := by
      rw [State.reachedF_of ha hr, hf]
      rfl
    have hin : within (f - s.settings.backup) f mm = true := within_iff.mpr ⟨h1, h2⟩
    rw [exec_retie_ready h hw]
    simp only [State.stopped_of ha hr, hst, if_true, hreach, if_pos hin, State.spanList_of ha, stationAt_of hx]
    rfl
  · show Host.Outcome.next _ = _
    rw [if_pos hs, State.expireWait, State.waitDue_of hwait, if_neg (by simp; omega)]
  · show Host.Outcome.next _ = _
    rw [if_pos hs, State.expireWait, State.waitDue_of hwait, if_pos (by simpa using hd)]
    rfl

/-! ## The strike timer (R122, R123) -/

theorem State.timerDue_of {s : State} {d : Nat} (hr : s.runState? = some .cutting) (hd : s.run.timer = some d) :
    s.timerDue = decide (d ≤ s.time) := by
  simp [State.timerDue, hr, hd]

theorem exec_strikeTimerExpiry_due {d : Nat} {s : State} (hs : s.running = true) (hr : s.runState? = some .cutting)
    (hd : s.run.timer = some d) (hdue : d ≤ s.time) : exec .strikeTimerExpiry s = .next s.enterCoasting := by
  show Host.Outcome.next _ = _
  rw [if_pos hs, State.expireTimer, State.timerDue_of hr hd, if_pos (by simpa using hdue)]

/-- Two changes of the run context, one after the other, are one. -/
theorem State.updRun_updRun (s : State) (f g : RunContext → RunContext) : (s.updRun f).updRun g = s.updRun (fun r => g (f r)) := by
  refine (s.updActive_updActive (fun _ => Line.updRun_isActive _ _) _).trans ?_
  refine congrArg s.updActive (funext fun l => ?_)
  unfold Line.updRun
  cases h : l.lifecycle <;> simp only [h]

theorem State.updRun_store_congr {s t : State} (h : s.store = t.store) (f : RunContext → RunContext) :
    (s.updRun f).store = (t.updRun f).store := by
  rw [State.updRun_store, State.updRun_store, h]

theorem State.mem_raise {s : State} {e k : EventKind} {q : Port} : k ∈ ((s.raise e).port q).events ↔ k = e ∨ k ∈ (s.port q).events := by
  cases q <;> exact mem_setKind e k _

/-- A coast that COAST_LIMIT 0 ends at once raises COAST and HALT, and RUN for each of its two changes. -/
theorem State.mem_coastedOut {s : State} {k : EventKind} {q : Port} :
    k ∈ ((((s.updRunUnit (fun u => { u with coast := 0 })).changeRun .coasting).changeRun (.halted .coast)).port q).events
      ↔ k ∈ (s.port q).events ∨ k = .run ∨ k = .coast ∨ k = .halt := by
  have h1 : ∀ u : State, k ∈ ((u.changeRun .coasting).port q).events ↔ k = .coast ∨ k = .run ∨ k ∈ (u.port q).events := by
    intro u
    refine State.mem_raise.trans (or_congr_right (State.mem_raise.trans (or_congr_right ?_)))
    cases q <;> rfl
  have h2 : ∀ u : State, k ∈ ((u.changeRun (.halted .coast)).port q).events ↔ k = .halt ∨ k = .run ∨ k ∈ (u.port q).events := by
    intro u
    refine State.mem_raise.trans (or_congr_right (State.mem_raise.trans (or_congr_right ?_)))
    cases q <;> rfl
  have h0 : k ∈ ((s.updRunUnit (fun u => { u with coast := 0 })).port q).events ↔ k ∈ (s.port q).events := by
    cases q <;> rfl
  rw [h2, h1, h0]
  tauto

theorem State.enterCoasting_eq (s : State) : s.enterCoasting = if s.settings.coastLimit ≤ 0 then
    ((s.updRunUnit (fun u => { u with coast := 0 })).changeRun .coasting).changeRun (.halted .coast)
  else (s.updRunUnit (fun u => { u with coast := 0 })).changeRun .coasting := rfl

/-- What such a coast leaves of the units. -/
theorem State.coastedOut_units (s : State) :
    let t := ((s.updRunUnit (fun u => { u with coast := 0 })).changeRun .coasting).changeRun (.halted .coast)
    t.run = { s.run with coast := 0, timer := none } ∧ t.eval = { s.eval with drive := 0 } ∧ t.chain = s.chain ∧ t.recheck = s.recheck
      ∧ t.link = s.link ∧ t.time = s.time ∧ t.pending = s.pending := by
  simp only [State.changeRun_run, State.changeRun_eval, State.changeRun_chain, State.changeRun_recheck, State.changeRun_link,
    State.changeRun_time, State.changeRun_pending, State.updRunUnit_run, State.updRunUnit_eval, State.updRunUnit_chain,
    State.updRunUnit_recheck, State.updRunUnit_link, State.updRunUnit_time, State.updRunUnit_pending, and_self]

/-- Settles O51: the entry into COASTING, and the limit that a COAST_LIMIT of 0 puts at once. -/
theorem strikeTimerCoasts : Obligations.StrikeTimerCoasts := by
  intro d s hs hr htimer
  refine ⟨fun hd => ?_, fun hd hlim => ?_, fun hd hlim => ?_⟩
  · show Host.Outcome.next _ = _
    rw [if_pos hs, State.expireTimer, State.timerDue_of hr htimer, if_neg (by simp; omega)]
  · rw [exec_strikeTimerExpiry_due hs hr htimer hd, State.enterCoasting_eq,
      if_neg (show ¬s.settings.coastLimit ≤ 0 by omega)]
    rfl
  · refine ⟨_, exec_strikeTimerExpiry_due hs hr htimer hd, ?_⟩
    rw [State.enterCoasting_eq, if_pos hlim]
    obtain ⟨hrun, heval, hchain, hrecheck, hlink, htime, hpending⟩ := s.coastedOut_units
    refine ⟨?_, hrun, heval, hchain, hrecheck, hlink, htime, hpending, fun q => ?_, fun q k => State.mem_coastedOut⟩
    · refine (State.changeRun_store _ _).trans ?_
      refine (State.updRun_store_congr (State.changeRun_store _ _) _).trans ?_
      exact (congrArg State.store (State.updRun_updRun (s.updRunUnit (fun u => { u with coast := 0 })) _ _)).trans rfl
    · obtain ⟨es1, h1, -⟩ := State.changeRun_port (s.updRunUnit (fun u => { u with coast := 0 })) .coasting q
      obtain ⟨es2, h2, -⟩ := State.changeRun_port ((s.updRunUnit (fun u => { u with coast := 0 })).changeRun .coasting) (.halted .coast) q
      have hport : (s.updRunUnit (fun u => { u with coast := 0 })).port q = s.port q := by cases q <;> rfl
      rw [h2, h1, hport]
      exact ⟨rfl, rfl, rfl, rfl, rfl, rfl, rfl, rfl⟩

/-! ## MARK (R104) and TRIM (R162) -/

theorem exec_mark_ready {args : List Text} {f : MarkForm} {s : State} (h : s.ready .cab (.mark .cab args))
    (hf : markForm? args = some f) :
    exec (.mark .cab args) s = .next ((s.taken .cab (.mark .cab args)).setMark .cab f) := by
  show Host.Outcome.next _ = _
  rw [takeLine_ready _ h]
  simp only [hf, State.cabOnly_cab]

theorem State.isIdle_of_active {s : State} {l : Line} {r : RunContext} (ha : s.active? = some l) (hr : l.run? = some r) :
    s.isIdle = false :=
  State.isIdle_of_context (by rw [State.context?_of ha hr]; simp)

theorem taken_setMark {s : State} {l : Line} {r : RunContext} (ha : s.active? = some l) (hr : l.run? = some r) (row : Instr)
    (f : MarkForm) : (s.taken .cab row).setMark .cab f =
      if within 1 2 f.number && f.mark.all (fun k => decide (r.furthest.getD 0 < k.chainage) && decide (k.chainage < l.length)) then
        (s.answered .cab row okReply).updRun (fun c => c.setMark f.number f.mark)
      else s.answered .cab row (noReply .range) := by
  rw [State.setMark, taken_isIdle, State.isIdle_of_active ha hr, if_neg Bool.false_ne_true]
  have hrange : (s.taken .cab row).markInRange f.mark
      = f.mark.all (fun k => decide (r.furthest.getD 0 < k.chainage) && decide (k.chainage < l.length)) := by
    simp only [State.markInRange, taken_reachedF, taken_active?, State.reachedF_of ha hr, ha, Option.any_some]
  rw [hrange, taken_no]
  rfl

theorem State.updRun_setMark (s : State) (n : Int) (m : Option Mark) :
    s.updRun (fun c => c.setMark n m) = s.updRun (fun c => if n = 1 then { c with mark1 := m } else { c with mark2 := m }) := rfl

theorem exec_trim_ready {w : Text} {mm : Int} {s : State} {l : Line} {r : RunContext} (h : s.ready .cab (.trim .cab [w]))
    (hw : number? w = some mm) (ha : s.active? = some l) (hr : l.run? = some r) :
    exec (.trim .cab [w]) s = .next (let t := s.taken .cab (.trim .cab [w])
      if within (-50) 50 mm then t.trimTo .cab r mm else t.no .cab .range) := by
  show Host.Outcome.next _ = _
  rw [takeLine_ready _ h, State.withNumber_of hw, State.cabOnly_cab]
  simp only [State.trim, taken_context?, State.context?_of ha hr]

/-- Settles O53: the range of a mark and the ramp of a trim. -/
theorem markAndTrimSet : Obligations.MarkAndTrimSet := by
  intro l r s ha hr
  refine ⟨fun args n mm suspends h hf => ?_, fun args n h hf => ?_, fun w mm h hw => ⟨fun hout => ?_, fun h1 h2 => ⟨fun hun => ?_,
    fun f eff hfu heff => ⟨fun hlow => ?_, fun hup => ?_⟩⟩⟩⟩
  · have hcond : (within 1 2 (MarkForm.arm n mm suspends).number && (MarkForm.arm n mm suspends).mark.all
        (fun k => decide (r.furthest.getD 0 < k.chainage) && decide (k.chainage < l.length))) = true
          ↔ 1 ≤ n ∧ n ≤ 2 ∧ r.furthest.getD 0 < mm ∧ mm < l.length := by
      simp only [MarkForm.number, MarkForm.mark, Option.all_some, Bool.and_eq_true, within_iff, decide_eq_true_eq, and_assoc]
    rw [exec_mark_ready h hf, taken_setMark ha hr]
    simp only [hcond]
    rfl
  · have hcond : (within 1 2 (MarkForm.off n).number && (MarkForm.off n).mark.all
        (fun k => decide (r.furthest.getD 0 < k.chainage) && decide (k.chainage < l.length))) = true ↔ 1 ≤ n ∧ n ≤ 2 := by
      simp only [MarkForm.number, MarkForm.mark, Option.all_none, Bool.and_true, within_iff]
    rw [exec_mark_ready h hf, taken_setMark ha hr]
    simp only [hcond]
    rfl
  · rw [exec_trim_ready h hw ha hr]
    simp only [if_neg (fun hin => hout (within_iff.mp hin)), taken_no]
  · rw [exec_trim_ready h hw ha hr]
    simp only [if_pos (within_iff.mpr ⟨h1, h2⟩), State.trimTo, hun]
    rfl
  · subst heff
    rw [exec_trim_ready h hw ha hr]
    simp only [if_pos (within_iff.mpr ⟨h1, h2⟩), State.trimTo, hfu, State.trimAtF, State.taken_settings, if_pos hlow, taken_no]
  · subst heff
    rw [exec_trim_ready h hw ha hr]
    simp only [if_pos (within_iff.mpr ⟨h1, h2⟩), State.trimTo, hfu, State.trimAtF, State.taken_settings, if_neg (not_lt.mpr hup)]
    rfl

/-! ## SETTLE while digging, UNSETTLE, UNSTAGE (R153 to R155) -/

theorem exec_settle_ready {s : State} {l : Line} {st : Staged} (h : s.ready .cab (.settle .cab [])) (ha : s.active? = some l)
    (hst : l.staged? = some st) : exec (.settle .cab []) s = .next (let t := s.taken .cab (.settle .cab [])
      if s.digging then (t.setSettled true).ok .cab else t.settleNow .cab l st) := by
  have hs : s.staged? = some st := by
    rw [State.staged?, ha]
    exact hst
  show Host.Outcome.next _ = _
  rw [takeLine_ready _ h, State.withNone_nil, State.cabOnly_cab]
  simp only [State.settle, taken_active?, taken_staged?, ha, hs, taken_digging]

theorem exec_unstage_ready {p : Port} {s : State} {l : Line} {st : Staged} (h : s.ready p (.unstage p [])) (ha : s.active? = some l)
    (hst : l.staged? = some st) : exec (.unstage p []) s = .next (let t := s.taken p (.unstage p [])
      if s.mayUnstage p l then (t.dropStaged l .unstage).ok p else t.no p .noclaim) := by
  have hmay : (s.taken p (.unstage p [])).mayUnstage p l = s.mayUnstage p l := by cases p <;> rfl
  show Host.Outcome.next _ = _
  rw [takeLine_ready _ h, State.withNone_nil]
  simp only [State.unstage, taken_active?, ha, hst, hmay, Option.isSome_some, if_true]

theorem taken_setSettled_ok (s : State) (p : Port) (row : Instr) (b : Bool) : ((s.taken p row).setSettled b).ok p
    = (s.answered p row okReply).updActive (fun k => k.setStaged (k.staged?.map (fun g => { g with settled := b }))) := by
  cases p <;> rfl

theorem taken_dropStaged_reply (s : State) (p : Port) (row : Instr) (l : Line) (d : DropReason) (r : Reply) :
    ((s.taken p row).dropStaged l d).reply p r = { ((s.answered p row r).updActive (fun k => k.setStaged none)).raise .dropped with
      run := { s.run with lastDrop := some { id := l.id, reason := d } } } := by
  cases p <;> rfl

/-- Settles O54: each command's guard, and the one field it writes. -/
theorem revisionCommands : Obligations.RevisionCommands := by
  intro l st s ha hst
  refine ⟨fun h hd => ?_, fun p h => ?_, fun p h => ⟨fun hp hc => ?_, fun hor => ?_⟩⟩
  · rw [exec_settle_ready h ha hst]
    simp only [hd, if_true, taken_setSettled_ok]
  · have hs : s.staged? = some st := by
      rw [State.staged?, ha]
      exact hst
    show Host.Outcome.next _ = _
    rw [takeLine_ready _ h, State.withNone_nil]
    simp only [State.unsettle, taken_staged?, hs, Option.isSome_some, if_true, taken_setSettled_ok]
  · subst hp
    have hno : s.mayUnstage .plan l = false := by simpa [State.mayUnstage] using hc
    rw [exec_unstage_ready h ha hst]
    simp only [hno, Bool.false_eq_true, if_false, taken_no]
  · have hmay : s.mayUnstage p l = true := by
      cases p with
      | cab => rfl
      | plan => simpa [State.mayUnstage] using hor
    rw [exec_unstage_ready h ha hst]
    simp only [hmay, if_true]
    exact congrArg _ (taken_dropStaged_reply s p _ l .unstage okReply)

end Sys2Proof.Machine
end

section
/-! PROOF. The odometer's transitions outside an advance (06, 6.1). -/
namespace Sys2Proof.Machine

theorem State.backtrackTest_of_not_digging {s : State} (h : s.digging = false) : s.backtrackTest = s := by
  unfold State.backtrackTest State.haltDigging
  split
  · rfl
  · rw [h]
    exact ite_self s

theorem State.afterSwitch_of_not_cutting {s : State} (h : s.runState? ≠ some .cutting) : s.afterSwitch = s := by
  rw [State.afterSwitch, if_neg (by simpa using h)]

/-- The serving span worked out afresh where no switch starts a coast: it drops the handoff reference where it moves (R134, R135). -/
theorem State.moveServing_of_not_cutting {s : State} (hk : s.chain.known = true) (h : s.runState? ≠ some .cutting) :
    let k := spanIndex s.spanList s.chainage
    s.moveServing s.servingStation? = { s with eval := { s.eval with
      serving := some k, reference := if s.eval.serving = some k then s.eval.reference else none } } := by
  intro k
  rw [State.moveServing, if_pos hk]
  dsimp only
  by_cases hserve : s.eval.serving = some k
  · have hstation : (s.spanList[k]?).map (fun x => x.station) = s.servingStation? := by
      rw [State.servingStation?, State.servingSpan?, hserve]
      rfl
    rw [if_pos ⟨hserve, hstation⟩, if_pos hserve, ← hserve]
  · rw [if_neg (fun hboth => hserve hboth.1), if_neg hserve, State.afterSwitch_of_not_cutting (by exact h)]
    rfl

theorem State.handChainage_of_not_digging {s : State} (hk : s.chain.known = true) (h : s.digging = false) (coasting : Bool) :
    let k := spanIndex s.spanList s.chainage
    s.handChainage false coasting = { s with eval := { s.eval with
      serving := some k, reference := if s.eval.serving = some k then s.eval.reference else none } } := by
  intro k
  have hcut : s.runState? ≠ some .cutting := by
    intro hc
    rw [(State.digging_iff s).mpr (.inl hc)] at h
    exact (nomatch h)
  rw [State.handChainage, State.backtrackTest_of_not_digging h, State.moveServing_of_not_cutting hk hcut]
  simp only [Bool.false_and, Bool.false_eq_true, if_false]
  split <;> rfl

theorem exec_odoValidTransition {ch : Channel} {s : State} (hs : s.running = true) :
    exec (.odoValidTransition ch) s = .next ((s.takeLevels (changeChannel s.chain.levels ch)).applyCount
      (countOf s.settings.odoDecode s.chain.levels (changeChannel s.chain.levels ch))) := congrArg _ (if_pos hs)

/-- A count outside CUTTING and COASTING, by the position it leads to (R97, R98, R134). -/
theorem State.count_of_position (u : State) (forward : Bool) {p : Int} (hp : u.chain.position + u.countLength forward = p) :
    (u.chain.known = false ∨ ¬(-2400000000 ≤ p ∧ p ≤ 2400000000) → u.count forward = u)
    ∧ (u.chain.known = true → -2400000000 ≤ p → p ≤ 2400000000 →
      (Int.tdiv p 1000 = u.chainage → u.count forward = { u with chain := { u.chain with position := p } })
      ∧ (Int.tdiv p 1000 ≠ u.chainage → u.digging = false →
        u.count forward = { u with chain := { u.chain with position := p }, eval := { u.eval with
          serving := some (spanIndex u.spanList (Int.tdiv p 1000))
          reference := if u.eval.serving = some (spanIndex u.spanList (Int.tdiv p 1000)) then u.eval.reference else none } })) := by
  subst hp
  refine ⟨fun h => u.count_still forward h, fun hk h1 h2 => ⟨fun hc => ?_, fun hc hd => ?_⟩⟩
  · rw [u.count_moved forward hk ⟨h1, h2⟩, if_pos hc]
    rfl
  · rw [u.count_moved forward hk ⟨h1, h2⟩, if_neg hc, hd]
    exact State.handChainage_of_not_digging (s := u.updChain (fun k => { k with position := u.chain.position + u.countLength forward }))
      hk hd _

/-- Settles O44: the table of R95 says which count a transition is, and a count is judged by the position it leads to. -/
theorem odometerDecodesTransitions : Obligations.OdometerDecodesTransitions := by
  refine ⟨fun ch s hs => ?_, fun s hs => ?_⟩
  · intro v w x4 x2 forward reverse still
    have hw : changeChannel s.chain.levels ch = w := by cases ch <;> rfl
    have hstill : s.takeLevels w = still := rfl
    have hexec := exec_odoValidTransition (ch := ch) hs
    rw [hw, hstill] at hexec
    have htable : countOf s.settings.odoDecode v w = .forward ∧ forward ∧ ¬reverse
        ∨ countOf s.settings.odoDecode v w = .reverse ∧ reverse ∧ ¬forward
        ∨ countOf s.settings.odoDecode v w = .nothing ∧ ¬forward ∧ ¬reverse :=
      countOf_table s.settings.odoDecode ch s.chain.levelA s.chain.levelB
    have hcounts : ∀ (b : Bool) (p : Int), exec (.odoValidTransition ch) s = .next (still.count b) →
        s.chain.position + still.countLength b = p →
        (s.chain.known = false ∨ ¬(-2400000000 ≤ p ∧ p ≤ 2400000000) → exec (.odoValidTransition ch) s = .next still)
        ∧ (s.chain.known = true → -2400000000 ≤ p → p ≤ 2400000000 →
          let moved := { s.chain with levelA := w.1, levelB := w.2, position := p }
          (Int.tdiv p 1000 = s.chainage → exec (.odoValidTransition ch) s = .next { s with chain := moved })
          ∧ (Int.tdiv p 1000 ≠ s.chainage → s.digging = false →
            let k := spanIndex s.spanList (Int.tdiv p 1000)
            exec (.odoValidTransition ch) s = .next { s with chain := moved, eval := { s.eval with
              serving := some k, reference := if s.eval.serving = some k then s.eval.reference else none } })) := by
      intro b p hb hp
      obtain ⟨hno, hyes⟩ := still.count_of_position b hp
      refine ⟨fun h => by rw [hb, hno h], fun hk h1 h2 => ⟨fun hc => ?_, fun hc hd => ?_⟩⟩
      · rw [hb, (hyes hk h1 h2).1 hc]
      · rw [hb, (hyes hk h1 h2).2 hc hd]
        rfl
    refine ⟨fun hnf hnr => ?_, fun p hpf hpr hor => ?_⟩
    · obtain ⟨-, hf, -⟩ | ⟨-, hr, -⟩ | ⟨hc, -, -⟩ := htable
      · exact absurd hf hnf
      · exact absurd hr hnr
      · exact hexec.trans (congrArg (fun k => Host.Outcome.next (still.applyCount k)) hc)
    · obtain ⟨hc, hf, -⟩ | ⟨hc, hr, -⟩ | ⟨-, hnf, hnr⟩ := htable
      · exact hcounts true p (hexec.trans (congrArg (fun k => Host.Outcome.next (still.applyCount k)) hc)) (hpf hf).symm
      · exact hcounts false p (hexec.trans (congrArg (fun k => Host.Outcome.next (still.applyCount k)) hc)) (hpr hr).symm
      · exact absurd hor (not_or.mpr ⟨hnf, hnr⟩)
  · exact congrArg _ (if_pos hs)

end Sys2Proof.Machine
end

section
/-! PROOF. The receiver link (02): frames collected byte by byte, frames judged, and the accepted strike recorded and routed. -/
namespace Sys2Proof.Machine

/-! ## Frames judged (R36, R37) -/

theorem Frame.isBad_iff (f : Frame) : f.isBad = true ↔
    f.check ≠ f.signature ^^^ f.flags ^^^ f.offsetHigh ^^^ f.offsetLow ^^^ 0x5A
      ∨ (f.flags.getLsbD 0 = true ∧ f.flags.getLsbD 1 = true)
      ∨ (f.flags.getLsbD 0 = false ∧ f.flags.getLsbD 1 = false
        ∧ ¬(-120 ≤ (f.offsetHigh ++ f.offsetLow).toInt ∧ (f.offsetHigh ++ f.offsetLow).toInt ≤ 120)) := by
  have hout : (!within (-120) 120 f.offset) = true
      ↔ ¬(-120 ≤ (f.offsetHigh ++ f.offsetLow).toInt ∧ (f.offsetHigh ++ f.offsetLow).toInt ≤ 120) := by
    rw [Bool.not_eq_true', ← Bool.not_eq_true, within_iff]
    rfl
  rw [Frame.isBad, Bool.or_eq_true, Bool.or_eq_true, Bool.and_eq_true, Bool.and_eq_true, Bool.and_eq_true, hout, bne_iff_ne,
    Bool.not_eq_true', Bool.not_eq_true', or_assoc, and_assoc]
  rfl

theorem sameUnder_iff {mask a b : Byte} : sameUnder mask a b = true ↔ a &&& mask = b &&& mask := beq_iff_eq

theorem Store.matchStation?_none {st : Store} {sig : Byte}
    (h : ∀ n d, st.stations.get n = .inService d → st.settings.sigMask &&& d.signature ≠ st.settings.sigMask &&& sig) :
    st.matchStation? sig = none := by
  refine List.find?_eq_none.mpr (fun n _ => ?_)
  split
  · rename_i d hd
    rw [sameUnder_iff, BitVec.and_comm, BitVec.and_comm sig]
    exact h n d hd
  · exact Bool.false_ne_true

theorem State.frameFits_of {s : State} {f : Frame}
    (h : s.link.framing = .hunting ∨ ∃ time, s.link.framing = .collecting [0xC3, f.signature, f.flags, f.offsetHigh, f.offsetLow] time) :
    s.frameFits f = true := by
  unfold State.frameFits
  rcases h with h | ⟨time, h⟩ <;> rw [h]
  exact beq_self_eq_true _

theorem exec_frameComplete {f : Frame} {s : State} (hs : s.running = true) (hf : s.frameFits f = true) :
    exec (.frameComplete f.signature f.flags f.offsetHigh f.offsetLow f.check) s = .next (s.hunt.judgeFrame f) := by
  show Host.Outcome.next (if s.running && s.frameFits f then s.finishFrame f else s) = _
  rw [hs, hf]
  rfl

/-- Settles O40: the tests of R36 and R37 in their order, and the unit's three answers to a byte, an error and a gap. -/
theorem linkCollectsAndJudgesFrames : Obligations.LinkCollectsAndJudgesFrames := by
  refine ⟨fun sig flags hi lo check s hs hframing => ?_, fun s hs => ⟨fun hh => ⟨fun b => ?_, ?_, ?_⟩, fun bytes time hh =>
    ⟨fun b hlen => ?_, fun sig flags hi lo check hbytes => ?_, ?_, fun hgap => ?_, fun hgap => ?_⟩⟩⟩
  · intro high low fault offset bad
    have hfits := State.frameFits_of (f := ⟨sig, flags, hi, lo, check⟩) hframing
    have hexec := exec_frameComplete hs hfits
    have hbad := Frame.isBad_iff ⟨sig, flags, hi, lo, check⟩
    refine ⟨fun hb => ?_, fun hb hfault => ?_, fun hb hfault hnone => ?_⟩
    · rw [hexec, State.judgeFrame, if_pos (hbad.mpr hb)]
      rfl
    · rw [hexec, State.judgeFrame, if_neg (fun h => hb (hbad.mp h)), if_pos (by exact hfault)]
      rfl
    · have hmatch : s.hunt.store.matchStation? sig = none := Store.matchStation?_none hnone
      rw [hexec, State.judgeFrame, if_neg (fun h => hb (hbad.mp h)), if_neg (by exact ne_true_of_eq_false hfault)]
      simp only [hmatch]
      rfl
  · show Host.Outcome.next _ = _
    rw [if_pos hs, State.linkByte, hh]
    rfl
  · show Host.Outcome.next _ = _
    rw [hs, hh]
    rfl
  · show Host.Outcome.next _ = _
    rw [if_pos hs, State.expireGap, State.gapDue, hh]
    rfl
  · have hnone : frameOf? (bytes ++ [b]) = none := by
      unfold frameOf?
      split
      · rename_i heq
        have := congrArg List.length heq
        simp at this
        omega
      · rfl
    show Host.Outcome.next _ = _
    rw [if_pos hs, State.linkByte, hh]
    simp only [State.collectByte, hnone]
    rfl
  · subst hbytes
    have hfits := State.frameFits_of (s := s) (f := ⟨sig, flags, hi, lo, check⟩) (.inr ⟨time, hh⟩)
    refine Eq.trans ?_ (exec_frameComplete hs hfits).symm
    show Host.Outcome.next _ = _
    rw [if_pos hs, State.linkByte, hh]
    rfl
  · show Host.Outcome.next _ = _
    rw [hs, hh]
    rfl
  · have hdue : s.gapDue = true := by
      rw [State.gapDue, hh]
      exact decide_eq_true hgap
    show Host.Outcome.next _ = _
    rw [if_pos hs, State.expireGap, if_pos hdue]
    rfl
  · have hdue : ¬s.gapDue = true := by
      rw [State.gapDue, hh]
      show ¬decide (time + 2 ≤ s.time) = true
      rw [decide_eq_true_eq]
      omega
    show Host.Outcome.next _ = _
    rw [if_pos hs, State.expireGap, if_neg hdue]

/-! ## The accepted strike (R38, R39) -/

/-- The state in which only an accepted report of a station is recorded, and hunting resumes. -/
def State.recorded (s : State) (n : StationId) (rd : Reading) : State :=
  let live := s.link.live.set n { last := some { time := s.time, reading := rd }, accepted := (s.link.live.get n).accepted + 1 }
  { s with link := { s.link with framing := .hunting, live := live } }

theorem exec_frame_accepted {f : Frame} {n : StationId} {s : State} (hs : s.running = true) (hf : s.frameFits f = true)
    (hbad : f.isBad = false) (hfault : f.receiverFault = false) (hn : s.store.matchStation? f.signature = some n) :
    exec (.frameComplete f.signature f.flags f.offsetHigh f.offsetLow f.check) s = .next ((s.recorded n f.reading).route n f.reading) := by
  have hn' : s.hunt.store.matchStation? f.signature = some n := hn
  rw [exec_frameComplete hs hf, State.judgeFrame, if_neg (ne_true_of_eq_false hbad), if_neg (ne_true_of_eq_false hfault)]
  simp only [hn']
  rfl

theorem State.route_of_no_wait {s : State} {n : StationId} (h : s.waitFor? n = none) (rd : Reading) :
    s.route n rd = if s.evalRoute n = .nothing then s.updLink (fun k => { k with foreign := bump k.foreign })
      else s.handEvaluator (s.evalRoute n) rd := by
  simp only [State.route, h]
  split
  · rename_i hr
    rw [hr]
    rfl
  · rfl

theorem State.route_link (s : State) (n : StationId) (rd : Reading) : ∃ c, (s.route n rd).link = { s.link with foreign := c } := by
  unfold State.route
  dsimp only
  split
  · exact ⟨s.link.foreign, by rw [State.judgeWait_link, State.handEvaluator_link]⟩
  · split
    · rename_i hr
      refine ⟨bump s.link.foreign, ?_⟩
      rw [State.updLink_link, State.handEvaluator_link]
    · exact ⟨s.link.foreign, by rw [State.handEvaluator_link]⟩

theorem State.waitFor?_of_no_wait {s : State} (h : s.run.wait = none) (n : StationId) : s.waitFor? n = none := by
  rw [State.waitFor?, h]
  rfl

theorem State.waitFor?_of_station {s : State} {n : StationId} (h : ∀ w ∈ s.run.wait, w.station ≠ n) : s.waitFor? n = none := by
  unfold State.waitFor?
  cases hw : s.run.wait with
  | none => rfl
  | some w => exact if_neg (fun hc => h w hw hc.1)

theorem State.waitFor?_of_state {s : State} (harmed : s.runState? ≠ some .armed) (hstopped : s.stopped = false) (n : StationId) :
    s.waitFor? n = none := by
  unfold State.waitFor?
  cases hw : s.run.wait with
  | none => rfl
  | some w =>
    refine if_neg (fun hc => ?_)
    rcases hc.2 with ⟨-, h⟩ | ⟨-, h⟩
    · exact harmed h
    · exact (nomatch hstopped.symm.trans h)

theorem State.stopped_of_digging {s : State} (h : s.digging = true) : s.stopped = false := by
  unfold State.stopped
  rcases (State.digging_iff s).mp h with h | h <;> rw [h]

theorem State.not_armed_of_digging {s : State} (h : s.digging = true) : s.runState? ≠ some .armed := by
  rcases (State.digging_iff s).mp h with h | h <;> rw [h] <;> simp

theorem State.not_digging_of_stopped {s : State} (h : s.stopped = true) : s.digging = false := by
  cases hd : s.digging with
  | false => rfl
  | true => exact (nomatch h.symm.trans (State.stopped_of_digging hd))

theorem State.active?_of_runState_none {s : State} (h : s.runState? = none) : s.active? = none := by
  cases ha : s.active? with
  | none => rfl
  | some l =>
    have hact := (State.active?_mem ha).2
    rw [Line.isActive_run] at hact
    obtain ⟨r, hr⟩ := Option.isSome_iff_exists.mp hact
    rw [State.runState?_of ha hr] at h
    exact (nomatch h)

theorem State.servingStation?_of_idle {s : State} (h : s.runState? = none) : s.servingStation? = none := by
  rw [State.servingStation?, State.servingSpan?, State.spanList, State.active?_of_runState_none h]
  cases s.eval.serving <;> rfl

theorem State.evalRoute_of_unknown {s : State} (h : s.chain.known = false) (n : StationId) : s.evalRoute n = .nothing := by
  rw [State.evalRoute, h]
  rfl

/-- In IDLE and in ARMED the evaluator is handed nothing. -/
theorem State.evalRoute_of_rest {s : State} (h : s.runState? = none ∨ s.runState? = some .armed) (n : StationId) :
    s.evalRoute n = .nothing := by
  have hd : s.digging = false := by
    rw [← Bool.not_eq_true, State.digging_iff]
    rcases h with h | h <;> simp [h]
  have hst : s.stopped = false := by
    unfold State.stopped
    rcases h with h | h <;> rw [h]
  have hc : s.runState? ≠ some .cutting := fun hc => by simp [hc] at h
  have hc' : s.runState? ≠ some .coasting := fun hc => by simp [hc] at h
  unfold State.evalRoute
  simp only [hd, hst, if_neg hc, if_neg hc', Bool.false_and, Bool.false_eq_true, if_false, ite_self]

theorem State.servingSpan?_of {s : State} {l : Line} {k : Nat} (ha : s.active? = some l) (hk : s.eval.serving = some k) :
    s.servingSpan? = l.spans[k]? := by
  rw [State.servingSpan?, hk, State.spanList_of ha]
  rfl

theorem State.nextSpan?_of {s : State} {l : Line} {k : Nat} (ha : s.active? = some l) (hk : s.eval.serving = some k) :
    s.nextSpan? = l.spans[k + 1]? := by
  rw [State.nextSpan?, hk, State.spanList_of ha]
  rfl

theorem State.evalRoute_stopped {s : State} (hk : s.chain.known = true) (hst : s.stopped = true) (n : StationId) :
    s.evalRoute n = if s.servingStation? = some n then .reference else .nothing := by
  have hd := State.not_digging_of_stopped hst
  have hc : s.runState? ≠ some .cutting := fun hc => by simp [(State.digging_iff s).mpr (.inl hc)] at hd
  have hc' : s.runState? ≠ some .coasting := fun hc => by simp [(State.digging_iff s).mpr (.inr hc)] at hd
  unfold State.evalRoute
  simp only [hk, hd, hst, if_neg hc, if_neg hc', Bool.not_true, Bool.false_and, Bool.false_eq_true, if_false, if_true]

theorem State.evalRoute_other {s : State} {n : StationId} (hk : s.chain.known = true) (hd : s.digging = true)
    (hn : s.servingStation? ≠ some n) :
    s.evalRoute n = if s.inHandoffZone && s.nextSpan?.any (fun x => x.station == n) then .comparison else .nothing := by
  unfold State.evalRoute
  simp only [hk, hd, if_neg hn, Bool.not_true, Bool.true_and, Bool.false_eq_true, if_false]

/-- What a comparison compares (R147, R148). -/
theorem State.handoffDifference?_of {s : State} {x y : Span} (hx : s.servingSpan? = some x) (hy : s.nextSpan? = some y) (d diff : Int) :
    s.handoffDifference? d = some diff ↔ ∃ h, s.eval.reference = some h ∧ s.time - h.time ≤ s.settings.strikeTimeout.toNat
      ∧ diff = measuredAt s.store y s.chainage d - measuredAt s.store x h.chainage h.offset := by
  simp only [State.handoffDifference?, hx, hy]
  cases hr : s.eval.reference with
  | none => simp
  | some h =>
    simp only [Option.some.injEq, exists_eq_left']
    have hfresh : s.freshTime h.time = true ↔ s.time - h.time ≤ s.settings.strikeTimeout.toNat := decide_eq_true_iff
    by_cases hf : s.freshTime h.time = true
    · simp [hf, hfresh.mp hf, eq_comm]
    · simp only [hf, Bool.false_eq_true, if_false, reduceCtorEq, false_iff, not_and]
      exact fun hh => absurd (hfresh.mpr hh) hf

theorem State.compareHandoff_of {s : State} {x y : Span} (hx : s.servingSpan? = some x) (hy : s.nextSpan? = some y)
    (hd : s.digging = true) (rd : Reading) :
    let differs := ∃ d h, rd = .offset d ∧ s.eval.reference = some h ∧ s.time - h.time ≤ s.settings.strikeTimeout.toNat
      ∧ s.settings.handoffTol < ((measuredAt s.store y s.chainage d - measuredAt s.store x h.chainage h.offset).natAbs : Int)
    (¬differs → s.compareHandoff rd = s) ∧ (differs → s.compareHandoff rd = s.changeRun (.halted .handoff)) := by
  intro differs
  have hoff : ∀ d, rd.offset? = some d ↔ rd = .offset d := by
    intro d
    cases rd <;> simp [Reading.offset?]
  have hdiff : ∀ diff, rd.offset?.bind s.handoffDifference? = some diff ↔ ∃ d h, rd = .offset d ∧ s.eval.reference = some h
      ∧ s.time - h.time ≤ s.settings.strikeTimeout.toNat
      ∧ diff = measuredAt s.store y s.chainage d - measuredAt s.store x h.chainage h.offset := by
    intro diff
    simp only [Option.bind_eq_some_iff, State.handoffDifference?_of hx hy, hoff, exists_and_left]
  refine ⟨fun hno => ?_, fun hyes => ?_⟩
  · unfold State.compareHandoff
    split
    · rename_i diff heq
      obtain ⟨d, h, h1, h2, h3, h4⟩ := (hdiff diff).mp heq
      rw [if_neg]
      subst h4
      exact fun hlt => hno ⟨d, h, h1, h2, h3, hlt⟩
    · rfl
  · obtain ⟨d, h, h1, h2, h3, h4⟩ := hyes
    rw [State.compareHandoff, (hdiff _).mpr ⟨d, h, h1, h2, h3, rfl⟩]
    dsimp only
    rw [if_pos h4, State.haltDigging, if_pos hd]

/-- Settles O41: the rows of R39 and R136 for a strike that ends no wait. -/
theorem acceptedStrikeIsRecorded : Obligations.AcceptedStrikeIsRecorded := by
  intro f n s hs hf hbad hfault hn row live recorded foreign
  have hexec : exec row s = .next (recorded.route n f.reading) := exec_frame_accepted hs hf hbad hfault hn
  have hnothing : recorded.waitFor? n = none → recorded.evalRoute n = .nothing → exec row s = .next foreign := by
    intro hw hr
    rw [hexec, State.route_of_no_wait hw, if_pos hr]
    rfl
  refine ⟨?_, fun hor => ?_, fun l r x k ha hr hk hserve hx hwait => ⟨fun hst hstop => ⟨fun d hrd => ?_, fun hrd => ?_⟩,
    fun hst hstop => ?_, fun hst hdig => ?_⟩⟩
  · obtain ⟨c, hlink⟩ := recorded.route_link n f.reading
    exact ⟨_, hexec, by rw [hlink], by rw [hlink], by rw [hlink], by rw [hlink], by rw [hlink]⟩
  · rcases hor with h | ⟨h, hw⟩ | ⟨h, hw⟩
    · refine hnothing (State.waitFor?_of_state (s := recorded) ?_ ?_ n) (State.evalRoute_of_rest (s := recorded) (.inl h) n)
      · rw [show recorded.runState? = none from h]
        simp
      · unfold State.stopped
        rw [show recorded.runState? = none from h]
    · exact hnothing (State.waitFor?_of_no_wait (s := recorded) hw n) (State.evalRoute_of_rest (s := recorded) (.inr h) n)
    · exact hnothing (State.waitFor?_of_no_wait (s := recorded) hw n) (State.evalRoute_of_unknown (s := recorded) h n)
  all_goals have hw : recorded.waitFor? n = none := State.waitFor?_of_station (s := recorded) hwait
  all_goals have hspan : recorded.servingSpan? = some x := (State.servingSpan?_of (s := recorded) ha hserve).trans hx
  · have hroute : recorded.evalRoute n = .reference := by
      rw [State.evalRoute_stopped (s := recorded) hk ((State.stopped_of ha hr).trans hstop), if_pos]
      rw [State.servingStation?, hspan, ← hst]
      rfl
    rw [hexec, State.route_of_no_wait hw, hroute, if_neg (by simp)]
    simp only [State.handEvaluator, State.setReference, hrd, Reading.offset?]
    rfl
  · have hroute : recorded.evalRoute n = .reference := by
      rw [State.evalRoute_stopped (s := recorded) hk ((State.stopped_of ha hr).trans hstop), if_pos]
      rw [State.servingStation?, hspan, ← hst]
      rfl
    rw [hexec, State.route_of_no_wait hw, hroute, if_neg (by simp)]
    simp only [State.handEvaluator, State.setReference, hrd]
  · refine hnothing hw ?_
    rw [State.evalRoute_stopped (s := recorded) hk ((State.stopped_of ha hr).trans hstop), if_neg]
    rw [State.servingStation?, hspan]
    simpa using hst
  · intro inZone
    have hother : recorded.servingStation? ≠ some n := by
      rw [State.servingStation?, hspan]
      simpa using hst
    have hnext : recorded.nextSpan? = l.spans[k + 1]? := State.nextSpan?_of (s := recorded) ha hserve
    have hzone : (recorded.inHandoffZone && recorded.nextSpan?.any (fun x => x.station == n)) = true ↔ ∃ y, inZone y := by
      rw [State.inHandoffZone, hnext]
      cases hy : l.spans[k + 1]? with
      | none => simp [inZone, hy]
      | some y =>
        have heq : ∀ z, inZone z ↔ z = y ∧ y.station = n ∧ y.start - s.settings.handoffLen ≤ s.chainage ∧ s.chainage < y.start := by
          intro z
          simp only [inZone, hy, Option.some.injEq]
          exact ⟨fun ⟨h1, h2⟩ => ⟨h1.symm, by rw [h1]; exact h2⟩, fun ⟨h1, h2⟩ => ⟨h1.symm, by rw [h1]; exact h2⟩⟩
        simp only [heq, exists_eq_left, Option.any_some, Bool.and_eq_true, decide_eq_true_eq, beq_iff_eq]
        exact and_comm
    have hroute := State.evalRoute_other (s := recorded) hk hdig hother
    refine ⟨fun hno => hnothing hw ?_, fun y hy => ?_⟩
    · rw [hroute, if_neg (fun h => ?_)]
      obtain ⟨y, hy⟩ := hzone.mp h
      exact hno y hy
    · rw [if_pos (hzone.mpr ⟨y, hy⟩)] at hroute
      have hcmp := State.compareHandoff_of (s := recorded) hspan (hnext.trans hy.1) hdig f.reading
      have hexec' : exec row s = .next (recorded.compareHandoff f.reading) := by
        rw [hexec, State.route_of_no_wait hw, hroute, if_neg (by simp)]
        rfl
      intro differs
      refine ⟨fun hno => ?_, fun hyes => ?_⟩
      · rw [hexec', hcmp.1 hno]
      · rw [hexec', hcmp.2 hyes]
        rfl

end Sys2Proof.Machine
end

section
/-! PROOF. What becomes of an accepted strike: the evaluation of a strike that digs (08), and the strike that ends a wait of TIE or RETIE
(07). -/
namespace Sys2Proof.Machine

/-! ## An evaluation (R138 to R146) -/

theorem State.errorOf?_of {s : State} {l : Line} {r : RunContext} {x : Span} (ha : s.active? = some l) (hr : l.run? = some r)
    (hx : s.servingSpan? = some x) (rd : Reading) :
    s.errorOf? rd = rd.offset?.map (fun d => measuredAt s.store x s.chainage d - targetAt s.store l r s.chainage) := by
  simp only [State.errorOf?, ha, State.context?_of ha hr, hx]
  cases rd <;> rfl

theorem outOfTolerance_iff {t : Settings} {err : Option Int} :
    outOfTolerance t err = true ↔ ∀ e, err = some e → t.gradeTol < (e.natAbs : Int) := by
  cases err <;> simp [outOfTolerance]

theorem targetAt_congr {st st' : Store} {l l' : Line} {r r' : RunContext} (hst : st'.settings = st.settings) (hl : l'.points = l.points)
    (htrim : ∀ ramp c, trimAt r' ramp c = trimAt r ramp c) (c : Int) : targetAt st' l' r' c = targetAt st l r c := by
  rw [targetAt, targetAt, hl, hst, htrim]

theorem Line.updRun_points (l : Line) (f : RunContext → RunContext) : (l.updRun f).points = l.points := by
  rw [Line.points, Line.updRun_profile, Line.points]

theorem Line.updRun_accrue_profile (l : Line) (f : RunContext → RunContext) (c : Int) (err : Option Int) (grade : Bool) :
    ((l.updRun f).accrue c err grade).profile = (l.accrue c err grade).profile := by
  simp only [Line.accrue, Line.updRun_points, Line.updRun_profile]

/-- The kinds of one state are kinds of the other, on each port. -/
def State.eventsStay (s t : State) : Prop := ∀ (q : Port), ∀ k ∈ (s.port q).events, k ∈ (t.port q).events

theorem State.eventsStay_changeRun (s : State) (r : RunState) : s.eventsStay (s.changeRun r) := by
  intro q k hk
  obtain ⟨es, he, -, -, -, hstay, -⟩ := s.changeRun_port r q
  rw [he]
  exact hstay k hk

theorem State.eventsStay_evaluate (s : State) (rd : Reading) : s.eventsStay (s.evaluate rd) := by
  obtain ⟨-, -, -, -, -, -, -, -, -, -, hgrade⟩ := s.updateGrade_spec (outOfTolerance s.settings (s.errorOf? rd))
  have haccrue : s.eventsStay ((s.updateGrade (outOfTolerance s.settings (s.errorOf? rd))).accrue (s.errorOf? rd)) := by
    intro q k hk
    have h := hgrade q k hk
    cases q <;> exact h
  unfold State.evaluate
  dsimp only
  split
  · unfold State.haltGrade
    split
    · exact fun q k hk => State.eventsStay_changeRun _ _ q k (haccrue q k hk)
    · exact haccrue
  · intro q k hk
    have h := haccrue q k hk
    unfold State.drive State.setReference
    dsimp only
    split <;> cases q <;> exact h

theorem slewTo_demand {t : Settings} {rd : Reading} {err : Option Int} {level dem : Int}
    (h : match rd, err with
      | .edgeHigh, _ => dem = 1000
      | .edgeLow, _ => dem = -1000
      | .offset _, some e =>
        if (e.natAbs : Int) ≤ t.deadband then dem = 0
        else dem = max (-1000) (min 1000 (-(t.gain * e)))
      | .offset _, none => False) :
    slewTo t.slew level (demand t rd (err.getD 0)) = if ((dem - level).natAbs : Int) ≤ t.slew then dem
      else if level < dem then level + t.slew else level - t.slew := by
  have hdem : demand t rd (err.getD 0) = dem := by
    cases rd with
    | edgeHigh => exact h.symm
    | edgeLow => exact h.symm
    | offset d =>
      cases err with
      | none => exact h.elim
      | some e =>
        simp only [demand, Option.getD_some, clamp]
        dsimp only at h
        split at h <;> rename_i hband
        · rw [if_pos hband, h]
        · rw [if_neg hband, h]
  rw [hdem, slewTo]

/-- The state that an evaluation starts from: a strike while CUTTING first moves the timer (R122), one while COASTING ends the coast. -/
theorem State.handEvaluator_digging {s : State} {l : Line} {r : RunContext} {x : Span} (ha : s.active? = some l) (hr : l.run? = some r)
    (hdig : r.state = .cutting ∨ r.state = .coasting) (hk : s.chain.known = true) (hx : s.servingSpan? = some x) (rd : Reading) :
    ∃ (v : State) (l' : Line) (r' : RunContext), s.handEvaluator (s.evalRoute x.station) rd = v.evaluate rd ∧ v.active? = some l'
      ∧ l'.run? = some r' ∧ r'.state = .cutting
      ∧ v.errorOf? rd = rd.offset?.map (fun d => measuredAt s.store x s.chainage d - targetAt s.store l r s.chainage)
      ∧ v.settings = s.settings ∧ v.eval = { s.eval with drive := if r.state = .cutting then s.eval.drive else 0 }
      ∧ v.run.timer = some (s.time + s.settings.strikeTimeout.toNat) ∧ v.chainage = s.chainage ∧ v.time = s.time
      ∧ (∀ c err grade, (l'.accrue c err grade).profile = (l.accrue c err grade).profile)
      ∧ (r.state = .coasting → ∀ q : Port, .run ∈ (v.port q).events) := by
  have hserve : s.servingStation? = some x.station := by rw [State.servingStation?, hx]; rfl
  have hstate := State.runState?_of ha hr
  rcases hdig with hc | hc
  · have hroute : s.evalRoute x.station = .evaluation := by
      unfold State.evalRoute
      simp only [hk, hserve, hstate, hc, if_true, Bool.not_true, Bool.false_eq_true, if_false]
    refine ⟨s.startTimer (s.time + s.strikeTimeout), l, r, by rw [hroute]; rfl, ha, hr, hc, State.errorOf?_of (by exact ha) hr (by exact hx) rd,
      rfl, by rw [if_pos hc]; rfl, rfl, rfl, rfl, fun _ _ _ => rfl, fun h => (nomatch hc.symm.trans h)⟩
  · have hroute : s.evalRoute x.station = .coastEnd := by
      unfold State.evalRoute
      simp only [hk, hserve, hstate, hc, if_true, Bool.not_true, Bool.false_eq_true, if_false, Option.some.injEq, reduceCtorEq]
    have hact : s.endCoast.active? = some (l.updRun (fun c => { c with state := .cutting })) := by
      rw [State.endCoast, State.startTimer_active?, State.changeRun_active?, ha]
      rfl
    have hrun : (l.updRun (fun c => { c with state := .cutting })).run? = some { r with state := .cutting } := by
      rw [Line.updRun_run?, hr]
      rfl
    have heval : s.endCoast.eval = { s.eval with drive := 0 } := State.changeRun_eval s .cutting
    have hspan : s.endCoast.servingSpan? = some x := by
      rw [State.servingSpan?, heval, State.spanList_of hact, Line.updRun_spans, ← State.spanList_of ha]
      exact hx
    have hset : s.endCoast.settings = s.settings := State.changeRun_settings s .cutting
    have hstations : s.endCoast.store.stations = s.store.stations := State.changeRun_stations s .cutting
    have hchain : s.endCoast.chainage = s.chainage := congrArg Chain.chainage (State.changeRun_chain s .cutting)
    refine ⟨s.endCoast, _, _, by rw [hroute]; rfl, hact, hrun, rfl, ?_, hset, by rw [heval, if_neg (by rw [hc]; simp)], rfl, hchain,
      State.changeRun_time s .cutting, fun _ _ _ => l.updRun_accrue_profile _ _ _ _, fun _ q => ?_⟩
    · rw [State.errorOf?_of hact hrun hspan, hchain]
      refine congrArg (fun g => rd.offset?.map g) (funext fun d => ?_)
      have htarget := targetAt_congr (st := s.store) (r := r) (r' := { r with state := .cutting }) hset
        (Line.updRun_points l (fun c => { c with state := .cutting })) (fun _ _ => rfl) s.chainage
      rw [measuredAt_congr _ _ _ _ _ hstations hset, htarget]
    · obtain ⟨es, he, hmem, -⟩ := s.changeRun_port .cutting q
      have hport : s.endCoast.port q = (s.changeRun .cutting).port q := by cases q <;> rfl
      rw [hport, he]
      exact hmem

/-- Settles O42: the strike is routed to the evaluator, and one evaluation is R146's. -/
theorem evaluationDrivesTheBoom : Obligations.EvaluationDrivesTheBoom := by
  intro f n l r x s hs hf hbad hfault hn ha hr hdig hk hx hst hcount err out
  subst hst
  have hstate : s.digging = true := by
    rw [State.digging_iff, State.runState?_of ha hr, Option.some.injEq, Option.some.injEq]
    exact hdig
  obtain ⟨v, l', r', hv, ha', hr', hc', herr, hset, heval, htimer, hchain, htime, haccrue, hrunev⟩ :=
    State.handEvaluator_digging (s := s.recorded x.station f.reading) (by exact ha) hr hdig hk (by exact hx) f.reading
  have hwait : (s.recorded x.station f.reading).waitFor? x.station = none :=
    State.waitFor?_of_state (s := s.recorded x.station f.reading) (State.not_armed_of_digging (s := s) hstate)
      (State.stopped_of_digging (s := s) hstate) _
  have hexec : exec (.frameComplete f.signature f.flags f.offsetHigh f.offsetLow f.check) s = .next (v.evaluate f.reading) := by
    rw [exec_frame_accepted hs hf hbad hfault hn, State.route_of_no_wait hwait, hv, if_neg]
    rcases hdig with h | h <;> simp only [State.evalRoute, show (s.recorded x.station f.reading).chain.known = true from hk,
      show (s.recorded x.station f.reading).servingStation? = some x.station from by
        show s.servingStation? = _
        rw [State.servingStation?, hx]
        rfl,
      show (s.recorded x.station f.reading).runState? = some r.state from State.runState?_of ha hr, h] <;> simp
  obtain ⟨h1, h2, h3, h4, h5⟩ := v.evaluate_spec l' r' f.reading ha' hr' hc' err herr
  rw [hset] at h1 h2 h4 h5
  have hcnt : v.eval.gradeCount = s.eval.gradeCount := by rw [heval]; rfl
  have hflag : v.eval.gradeFlag = s.eval.gradeFlag := by rw [heval]; rfl
  have hset' : (s.recorded x.station f.reading).settings = s.settings := rfl
  rw [hset', hcnt] at h1
  rw [hset', hcnt, hflag] at h2
  rw [hset', hcnt, hflag] at h4 h5
  rw [hflag] at h3
  have hiff : outOfTolerance s.settings err = true ↔ out := outOfTolerance_iff
  refine ⟨_, hexec, fun hco q => State.eventsStay_evaluate v f.reading q _ (hrunev hco q), fun hno => ?_, fun hyes => ?_, h3, fun h => ?_,
    fun h => ?_⟩
  · have hb : outOfTolerance s.settings err = false := by rw [← Bool.not_eq_true, hiff]; exact hno
    rw [hb] at h1 h2
    refine ⟨h1, h2.trans ?_⟩
    simp
    omega
  · rw [hiff.mpr hyes] at h1 h2
    exact ⟨h1, by rw [h2]; rfl⟩
  · exact h4 ⟨h2 ▸ h.1, h.2⟩
  · rw [← h2] at h5
    obtain ⟨g1, g2, g3, g4, g5⟩ := h5 h
    refine ⟨g1, g2.trans htimer, ?_, fun d hd => ?_, fun hd => ?_, fun level dem hlevel hdem => ?_⟩
    · rw [g3, haccrue, hchain]
      rfl
    · rw [g4, hd, hchain, htime]
      rfl
    · rw [g4, hd, heval]
      rfl
    · rw [g5, slewTo_demand hdem, heval, hlevel]
      rfl

/-! ## The strike that ends a wait (R115, R120) -/

theorem Hand.sent_of_waiting {s : State} {row : Instr} (h : s.cab.hand = .waiting row) (r : Reply) :
    (s.reply .cab r).cab.hand = .sending (some row) r := by
  show Hand.sending s.cab.hand.command? r = _
  rw [h]
  rfl

theorem State.endWarningPoint_of_store {s t : State} (h : t.store = s.store) (l : Line) : t.endWarningPoint l = s.endWarningPoint l := by
  rw [State.endWarningPoint, State.settings, h]
  rfl

theorem State.warnAtTie_spec (s : State) (l : Line) : (s.warnAtTie l).store = s.store ∧ (s.warnAtTie l).run = s.run
    ∧ (s.warnAtTie l).time = s.time ∧ (s.warnAtTie l).cab.hand = s.cab.hand
    ∧ (s.warnAtTie l).chain = { s.chain with endWarned := decide (s.endWarningPoint l ≤ 0) } := by
  unfold State.warnAtTie
  dsimp only
  split
  · rename_i h
    exact ⟨rfl, rfl, rfl, rfl, by rw [decide_eq_true h]; rfl⟩
  · rename_i h
    exact ⟨rfl, rfl, rfl, rfl, by rw [decide_eq_false h]; rfl⟩

/-- What a successful TIE leaves (R115). -/
theorem State.tieSucceeds_spec {s : State} {l : Line} {r : RunContext} (ha : s.active? = some l) (hr : l.run? = some r) :
    let t := s.tieSucceeds l
    t.context? = some { r with state := .cutting, furthest := some 0 }
    ∧ t.active?.map (fun k => k.profile) = some (l.entered 0).profile
    ∧ t.chain = { s.chain with known := true, position := 0, endWarned := decide (s.endWarningPoint l ≤ 0) }
    ∧ t.eval = { Evaluator.reset with serving := some 0 } ∧ t.run = { s.run with timer := some (s.time + s.strikeTimeout) }
    ∧ t.cab.hand = s.cab.hand ∧ ∀ q : Port, .run ∈ (t.port q).events := by
  intro t
  have hw := State.warnAtTie_spec (s.updChain (fun k => { k with known := true, position := 0 })) l
  set w := (s.updChain (fun k => { k with known := true, position := 0 })).warnAtTie l with hweq
  obtain ⟨hstore, hrun, htime, hhand, hchain⟩ := hw
  set v := (w.setFurthest 0).enterSegment 0 with hv
  have ht : t = ((v.changeRun .cutting).updEval (fun _ => { Evaluator.reset with serving := some 0 })).startTimer (s.time + s.strikeTimeout) := rfl
  have hwa : w.active? = some l := by
    rw [State.active?, hstore]
    exact ha
  have hva : v.active? = some ((l.updRun (fun c => { c with furthest := some 0 })).entered 0) := by
    refine (State.updActive_active? (f := fun k => k.entered 0) (fun _ h => h) _).trans ?_
    rw [State.setFurthest, State.updRun_active?, hwa]
    rfl
  have hta : t.active? = some (((l.updRun (fun c => { c with furthest := some 0 })).entered 0).updRun (fun c => { c with state := .cutting })) := by
    rw [ht, State.startTimer_active?]
    show (v.changeRun .cutting).active? = _
    rw [State.changeRun_active?, hva]
    rfl
  refine ⟨?_, ?_, ?_, rfl, ?_, ?_, fun q => ?_⟩
  · have hentered : ((l.updRun (fun c => { c with furthest := some 0 })).entered 0).run? = (l.updRun (fun c => { c with furthest := some 0 })).run? := rfl
    refine State.context?_of hta ?_
    rw [Line.updRun_run?, hentered, Line.updRun_run?, hr]
    rfl
  · rw [hta, Option.map_some, Line.updRun_profile, Line.entered, Line.updRun_profile]
    rfl
  · show (v.changeRun .cutting).chain = _
    rw [State.changeRun_chain]
    exact hchain
  · show { (v.changeRun .cutting).run with timer := some (s.time + s.strikeTimeout) } = _
    rw [State.changeRun_run, show v.run = s.run from hrun]
  · exact hhand
  · obtain ⟨es, he, hmem, -⟩ := v.changeRun_port .cutting q
    have hport : t.port q = (v.changeRun .cutting).port q := by cases q <;> rfl
    rw [hport, he]
    exact hmem

/-- What a successful RETIE leaves (R120). -/
theorem State.retieSucceeds_spec {s : State} {l : Line} {r : RunContext} (ha : s.active? = some l) (hr : l.run? = some r)
    (hstop : r.state.isStopped = true) (c : Int) :
    let t := s.retieSucceeds c
    t.context? = some { r with retie := false } ∧ t.chain = { s.chain with known := true, position := c * 1000 } ∧ t.chainage = c
    ∧ t.eval.serving = some (spanIndex l.spans c) ∧ t.cab.hand = s.cab.hand ∧ t.run = s.run := by
  intro t
  set w := (s.updChain (fun k => { k with known := true, position := c * 1000 })).updRun (fun r => { r with retie := false }) with hw
  have hwa : w.active? = some (l.updRun (fun r => { r with retie := false })) := by
    rw [hw, State.updRun_active?]
    exact congrArg (Option.map _) ha
  have hwr : (l.updRun (fun r => { r with retie := false })).run? = some { r with retie := false } := by
    rw [Line.updRun_run?, hr]
    rfl
  have hspans : w.spanList = s.spanList := by
    rw [State.spanList_of hwa, Line.updRun_spans, State.spanList_of ha]
  have hheld : s.servingStation? = w.servingStation? := by
    rw [State.servingStation?, State.servingSpan?, ← hspans]
    rfl
  have hc : w.chainage = c := Int.mul_tdiv_cancel c (by decide)
  have hcut : w.runState? ≠ some .cutting := by
    rw [State.runState?_of hwa hwr]
    intro h
    rw [Option.some.injEq] at h
    rw [show r.state = .cutting from h] at hstop
    exact (nomatch hstop)
  have ht : t = { w with eval := { w.eval with
      serving := some (spanIndex l.spans c), reference := if w.eval.serving = some (spanIndex l.spans c) then w.eval.reference else none } } := by
    show w.moveServing s.servingStation? = _
    rw [hheld, State.moveServing_of_not_cutting rfl hcut, hspans, hc, State.spanList_of ha]
  rw [ht]
  exact ⟨State.context?_of hwa hwr, rfl, hc, rfl, rfl, rfl⟩

theorem State.waitFor?_of {s : State} {w : TieWait} (hw : s.run.wait = some w)
    (h : (w.kind = .tie ∧ s.runState? = some .armed) ∨ (w.kind = .retie ∧ s.stopped = true)) : s.waitFor? w.station = some w := by
  rw [State.waitFor?, hw]
  exact if_pos ⟨rfl, h⟩

theorem State.route_of_wait {s : State} {n : StationId} {w : TieWait} (h : s.waitFor? n = some w) (rd : Reading) :
    s.route n rd = (s.handEvaluator (s.evalRoute n) rd).judgeWait w rd := by
  simp only [State.route, h]

/-- What the evaluator does with the strike that ends a wait: a handoff reference, or nothing. -/
theorem State.setReference_spec (s : State) (rd : Reading) : (s.setReference rd).store = s.store ∧ (s.setReference rd).chain = s.chain
    ∧ (s.setReference rd).run = s.run ∧ (s.setReference rd).cab = s.cab ∧ (s.setReference rd).time = s.time
    ∧ ∀ d, rd = .offset d → (s.setReference rd).eval = { s.eval with reference := some { offset := d, chainage := s.chainage, time := s.time } } := by
  unfold State.setReference
  cases rd with
  | edgeHigh => exact ⟨rfl, rfl, rfl, rfl, rfl, fun d h => (nomatch h)⟩
  | edgeLow => exact ⟨rfl, rfl, rfl, rfl, rfl, fun d h => (nomatch h)⟩
  | offset d =>
    refine ⟨rfl, rfl, rfl, rfl, rfl, fun e h => ?_⟩
    cases h
    rfl

theorem State.handEvaluator_stopped {s : State} (hst : s.stopped = true) (n : StationId) (rd : Reading) :
    let v := s.handEvaluator (s.evalRoute n) rd
    v.store = s.store ∧ v.chain = s.chain ∧ v.run = s.run ∧ v.cab = s.cab ∧ v.time = s.time
      ∧ (s.chain.known = true → s.servingStation? = some n → ∀ d, rd = .offset d →
        v.eval = { s.eval with reference := some { offset := d, chainage := s.chainage, time := s.time } }) := by
  intro v
  by_cases h : s.chain.known = true ∧ s.servingStation? = some n
  · have hv : v = s.setReference rd := by
      show s.handEvaluator (s.evalRoute n) rd = _
      rw [State.evalRoute_stopped h.1 hst, if_pos h.2]
      rfl
    rw [hv]
    obtain ⟨h1, h2, h3, h4, h5, h6⟩ := s.setReference_spec rd
    exact ⟨h1, h2, h3, h4, h5, fun _ _ => h6⟩
  · have hroute : s.evalRoute n = .nothing := by
      cases hk : s.chain.known with
      | false => exact State.evalRoute_of_unknown hk n
      | true => rw [State.evalRoute_stopped hk hst, if_neg (fun hn => h ⟨hk, hn⟩)]
    have hv : v = s := by
      show s.handEvaluator (s.evalRoute n) rd = _
      rw [hroute]
      rfl
    rw [hv]
    exact ⟨rfl, rfl, rfl, rfl, rfl, fun h1 h2 => absurd ⟨h1, h2⟩ h⟩

theorem exec_frame_waited {f : Frame} {w : TieWait} {s : State} (hs : s.running = true) (hf : s.frameFits f = true) (hbad : f.isBad = false)
    (hfault : f.receiverFault = false) (hn : s.store.matchStation? f.signature = some w.station) (hw : s.run.wait = some w)
    (h : (w.kind = .tie ∧ s.runState? = some .armed) ∨ (w.kind = .retie ∧ s.stopped = true)) :
    exec (.frameComplete f.signature f.flags f.offsetHigh f.offsetLow f.check) s =
      .next (((s.recorded w.station f.reading).handEvaluator ((s.recorded w.station f.reading).evalRoute w.station) f.reading).judgeWait w
        f.reading) := by
  have hwf : (s.recorded w.station f.reading).waitFor? w.station = some w := State.waitFor?_of (s := s.recorded w.station f.reading) hw h
  rw [exec_frame_accepted hs hf hbad hfault hn, State.route_of_wait hwf]

/-- Settles O43: the judgements of R115 and R120 over the state that the evaluator leaves. -/
theorem strikeEndsTheWait : Obligations.StrikeEndsTheWait := by
  refine ⟨fun f w l r x s hs hf hbad hfault hn hw hkind ha hr harmed hx hhand => ?_,
    fun f w l r x mm s hs hf hbad hfault hn hw hkind ha hr hstop hx hhand => ?_⟩
  · have hcond : (w.kind = .tie ∧ s.runState? = some .armed) ∨ (w.kind = .retie ∧ s.stopped = true) :=
      .inl ⟨hkind, by rw [State.runState?_of ha hr, harmed]⟩
    have hrest : (s.recorded w.station f.reading).evalRoute w.station = .nothing :=
      State.evalRoute_of_rest (s := s.recorded w.station f.reading) (.inr (by
        show s.runState? = _
        rw [State.runState?_of ha hr, harmed])) _
    have hexec := exec_frame_waited hs hf hbad hfault hn hw hcond
    rw [hrest] at hexec
    set v := (s.recorded w.station f.reading).endWait with hv
    have hva : v.active? = some l := ha
    have hvc : v.context? = some r := State.context?_of hva hr
    have hjudge : exec (.frameComplete f.signature f.flags f.offsetHigh f.offsetLow f.check) s = .next (v.judgeTie f.reading) := by
      rw [hexec, State.judgeWait, hkind]
      rfl
    have hsent : ∀ rep, (v.reply .cab rep).cab.hand = .sending (some (.tie .cab [])) rep := fun rep => Hand.sent_of_waiting hhand rep
    rw [hjudge]
    refine ⟨_, rfl, ?_⟩
    unfold State.judgeTie
    simp only [hva, hvc]
    by_cases hch : l.status = .checked
    · rw [if_neg (not_not.mpr hch)]
      cases hoff : f.reading.offset? with
      | none =>
        refine ⟨rfl, fun h => absurd hch h, fun _ _ => ⟨hsent _, rfl, rfl⟩, fun d diff _ hd => ?_⟩
        rw [hd] at hoff
        exact (nomatch hoff)
      | some d =>
        have hrd : ∀ e, f.reading = .offset e → e = d := by
          intro e he
          rw [he] at hoff
          exact Option.some.inj hoff
        simp only [hx]
        split
        · rename_i hbig
          refine ⟨rfl, fun h => absurd hch h, fun _ h => (nomatch h), fun e diff _ he hdiff => ⟨fun _ => ?_, fun hsmall => ?_⟩⟩
          · rw [hrd e he] at hdiff
            rw [hdiff]
            exact ⟨hsent _, rfl, rfl⟩
          · rw [hrd e he] at hdiff
            rw [hdiff] at hsmall
            exact absurd hsmall (not_le.mpr hbig)
        · rename_i hsmall
          obtain ⟨g1, g2, g3, g4, g5, g6, g7⟩ := v.tieSucceeds_spec hva hr
          have hwait : (v.tieSucceeds l).run.wait = none := by rw [g5]; rfl
          refine ⟨hwait, fun h => absurd hch h, fun _ h => (nomatch h), fun e diff _ he hdiff => ⟨fun hbig => ?_, fun _ => ?_⟩⟩
          · rw [hrd e he] at hdiff
            rw [hdiff] at hbig
            exact absurd hbig hsmall
          · rw [hrd e he] at hdiff
            refine ⟨?_, g1, by rw [State.ok, State.reply_chain, g3], by rw [State.ok, State.reply_chain, g3], ?_, g2, g4, ?_, fun q => ?_⟩
            · rw [hdiff]
              exact Hand.sent_of_waiting (g6.trans hhand) _
            · rw [State.ok, State.reply_chain, g3]
              exact decide_eq_true_iff
            · rw [State.ok, State.reply_run, g5]
              rfl
            · have h := g7 q
              cases q <;> exact h
    · rw [if_pos hch]
      exact ⟨rfl, fun _ => ⟨hsent _, rfl, rfl⟩, fun h => absurd h hch, fun d diff h => absurd h hch⟩
  · have hst : s.stopped = true := (State.stopped_of ha hr).trans hstop
    have hexec := exec_frame_waited hs hf hbad hfault hn hw (.inr ⟨hkind, hst⟩)
    obtain ⟨e1, e2, e3, e4, e5, e6⟩ := State.handEvaluator_stopped (s := s.recorded w.station f.reading) hst w.station f.reading
    set y := (s.recorded w.station f.reading).handEvaluator ((s.recorded w.station f.reading).evalRoute w.station) f.reading with hy
    set v := y.endWait with hv
    have hvstore : v.store = s.store := e1
    have hvchain : v.chain = s.chain := e2
    have hva : v.active? = some l := by
      rw [State.active?, hvstore]
      exact ha
    have hvc : v.context? = some r := State.context?_of hva hr
    have hvhand : v.cab.hand = .waiting (.retie .cab [mm]) := by
      show y.cab.hand = _
      rw [e4]
      exact hhand
    have hjudge : exec (.frameComplete f.signature f.flags f.offsetHigh f.offsetLow f.check) s = .next (v.judgeRetie w.chainage f.reading) := by
      rw [hexec, State.judgeWait, hkind]
    have hsent : ∀ rep, (v.reply .cab rep).cab.hand = .sending (some (.retie .cab [mm])) rep := fun rep => Hand.sent_of_waiting hvhand rep
    rw [hjudge]
    refine ⟨_, rfl, ?_⟩
    unfold State.judgeRetie
    simp only [hva, hvc]
    cases hoff : f.reading.offset? with
    | none =>
      refine ⟨rfl, fun _ => ⟨hsent _, hvstore, hvchain⟩, fun d diff hd => ?_⟩
      rw [hd] at hoff
      exact (nomatch hoff)
    | some d =>
      have hrd : ∀ e, f.reading = .offset e → e = d := by
        intro e he
        rw [he] at hoff
        exact Option.some.inj hoff
      simp only [hx, hvstore, show v.settings = s.settings from congrArg Store.settings hvstore]
      split
      · rename_i hbig
        refine ⟨rfl, fun h => (nomatch h), fun e diff he hdiff => ⟨fun _ => ⟨?_, hvstore, hvchain, fun hk hn => e6 hk hn e he⟩, fun hsmall => ?_⟩⟩
        · rw [hrd e he] at hdiff
          rw [hdiff]
          exact hsent _
        · rw [hrd e he] at hdiff
          rw [hdiff] at hsmall
          exact absurd hsmall (not_le.mpr hbig)
      · rename_i hsmall
        obtain ⟨g1, g2, g3, g4, g5, g6⟩ := v.retieSucceeds_spec hva hr hstop w.chainage
        have hwait : (v.retieSucceeds w.chainage).run.wait = none := by rw [g6]; rfl
        refine ⟨hwait, fun h => (nomatch h), fun e diff he hdiff => ⟨fun hbig => ?_, fun _ => ⟨?_, g1, ?_, g3, g4⟩⟩⟩
        · rw [hrd e he] at hdiff
          rw [hdiff] at hbig
          exact absurd hbig hsmall
        · rw [hrd e he] at hdiff
          rw [hdiff]
          exact Hand.sent_of_waiting (g5.trans hvhand) _
        · rw [State.ok, State.reply_chain, g2, hvchain]

end Sys2Proof.Machine
end

section
/-! PROOF. The station commands (02, 2.3): the words and the tests in front of the writes, and what the writes mark. -/
namespace Sys2Proof.Machine

/-! ## Words and tests (R28) -/

theorem stationArgs?_cons {w : Text} {ws : List Text} {n : Int} {ns : List Int} (hw : number? w = some n) (hws : numbers? ws = some ns) :
    stationArgs? (w :: ws) = some (n, ns) := by
  rw [stationArgs?, numbers?_cons hw hws]

theorem State.withStation_of {s : State} {p : Port} {w : Text} {n : StationId} (hw : number? w = some n.number) (k : StationId → State) :
    s.withStation p [w] k = k n := by
  simp only [State.withStation, stationArgs?_cons hw (show numbers? [] = some [] from rfl), stationOf?_number]

section Tests
variable {s : State} {p : Port} {row : Instr} {fails : Bool}

theorem taken_stationTests_backlog (h : s.recheck.backlog = true) (r : Reason) (k : State) :
    (s.taken p row).stationTests p fails r k = s.answered p row (noReply .backlog) := by
  rw [State.stationTests, State.taken_recheck, if_pos h, taken_no]

theorem taken_stationTests_fail (h : s.recheck.backlog = false) (hf : fails = true) (r : Reason) (k : State) :
    (s.taken p row).stationTests p fails r k = s.answered p row (noReply r) := by
  rw [State.stationTests, State.taken_recheck, if_neg (ne_true_of_eq_false h), if_pos hf, taken_no]

theorem taken_stationTests_pass (h : s.recheck.backlog = false) (hf : ¬fails = true) (r : Reason) (k : State) :
    (s.taken p row).stationTests p fails r k = k := by
  rw [State.stationTests, State.taken_recheck, if_neg (ne_true_of_eq_false h), if_neg hf]

end Tests

theorem State.stationInUse_iff {s : State} {n : StationId} :
    s.stationInUse n = true ↔ s.digging = true ∧ ∃ l, s.active? = some l ∧ l.namesStation n = true := by
  rw [State.stationInUse, Bool.and_eq_true, any_line_iff]

theorem taken_stationInUse (s : State) (p : Port) (row : Instr) (n : StationId) :
    (s.taken p row).stationInUse n = s.stationInUse n := by
  rw [State.stationInUse, taken_digging, taken_active?, State.stationInUse]

theorem Line.takesMarks_iff {l : Line} : l.takesMarks = true ↔ l.lifecycle.kind = .planned ∨ l.lifecycle.kind = .active := by
  rw [Line.takesMarks, Bool.or_eq_true, beq_iff_eq, beq_iff_eq]

theorem taken_stationNamed (s : State) (p : Port) (row : Instr) (n : StationId) : (s.taken p row).stationNamed n = s.stationNamed n := by
  rw [State.stationNamed, State.taken_store, State.stationNamed]

theorem State.stationNamed_iff {s : State} {n : StationId} : s.stationNamed n = true
    ↔ ∃ l ∈ s.store.lines, (l.lifecycle.kind = .planned ∨ l.lifecycle.kind = .active) ∧ l.namesStation n = true := by
  simp only [State.stationNamed, List.any_eq_true, Bool.and_eq_true, Line.takesMarks_iff]

/-! ## DEFINE and FORGET (R29, R33) -/

/-- A slot written anew, with its live part reset, over the checks that have read on. -/
theorem taken_writeSlot_ok (s : State) (p : Port) (row : Instr) (n : StationId) (x : Station) :
    (((s.taken p row).writeStation n x).updLive n (fun _ => StationLive.reset)).ok p =
      { s.proceedChecks.answered p row okReply with
        store := { s.store with stations := s.store.stations.set n x }
        link := { s.link with live := s.link.live.set n { last := none, accepted := 0 } } } := by
  rw [State.writeStation, State.proceedChecks_taken]
  cases p <;> rfl

theorem exec_stationDefine_ready {p : Port} {args : List Text} {a : DefineArgs} {n : StationId} {s : State}
    (h : s.ready p (.stationDefine p args)) (ha : defineArgs? args = some a) (hn : a.number = n.number) (h1 : 1 ≤ a.signature)
    (h2 : a.signature ≤ 255) : exec (.stationDefine p args) s =
      .next ((s.taken p (.stationDefine p args)).defineStation p n (BitVec.ofInt 8 a.signature) a.label) := by
  show Host.Outcome.next _ = _
  rw [takeLine_ready _ h]
  simp only [ha, hn, stationOf?_number, if_pos (within_iff.mpr ⟨h1, h2⟩)]

theorem exec_stationForget_ready {p : Port} {w : Text} {n : StationId} {s : State} (h : s.ready p (.stationForget p [w]))
    (hw : number? w = some n.number) :
    exec (.stationForget p [w]) s = .next ((s.taken p (.stationForget p [w])).forgetStation p n) := by
  show Host.Outcome.next _ = _
  rw [takeLine_ready _ h, State.withStation_of hw]

/-- Settles O27: STATE, BACKLOG and the command's own test stand before the write. -/
theorem defineAndForget : Obligations.DefineAndForget := by
  refine ⟨fun p args a n s h ha hn h1 h2 => ?_, fun p w n s h hw => ⟨fun hno => ?_, fun d hd => ⟨fun hb => ?_, fun hb => ⟨fun hl => ?_,
    fun hl => ?_⟩⟩⟩⟩
  · intro sig
    have hexec := exec_stationDefine_ready h ha hn h1 h2
    refine ⟨fun hdef => ?_, fun hu hb => ?_, fun hu hb hc => ?_, fun hu hb hc => ?_⟩
    · rw [hexec, State.defineStation, State.taken_store]
      split
      · exact absurd (by assumption) hdef
      · rw [taken_no]
    all_goals
      rw [hexec, State.defineStation, State.taken_store, hu]
      dsimp only
    · rw [taken_stationTests_backlog hb]
    · rw [taken_stationTests_fail hb ((Store.collides_iff s n sig).mpr hc)]
    · have hfree : ¬s.store.collides n sig = true := by
        rw [Store.collides_iff]
        rintro ⟨m, d, hne, hm, hsig⟩
        exact hc m d hne hm hsig
      rw [taken_stationTests_pass hb hfree, taken_writeSlot_ok]
  · rw [exec_stationForget_ready h hw, State.forgetStation, State.taken_store]
    split
    · rename_i d hd
      exact absurd hd (hno d)
    · rw [taken_no]
  all_goals
    rw [exec_stationForget_ready h hw, State.forgetStation, State.taken_store, hd]
    dsimp only
    rw [taken_stationNamed]
  · rw [taken_stationTests_backlog hb]
  · rw [taken_stationTests_fail hb (State.stationNamed_iff.mpr hl)]
  · have hfree : ¬s.stationNamed n = true := by
      rw [State.stationNamed_iff]
      rintro ⟨l, hl', hk, hnames⟩
      exact (nomatch hnames.symm.trans (hl l hl' hk))
    rw [taken_stationTests_pass hb hfree, taken_writeSlot_ok]

/-! ## PLANE, WITHDRAW and RESTORE (R30 to R32) -/

theorem exec_stationPlane_ready {p : Port} {w wm : Text} {n : StationId} {mm : Int} {s : State} (h : s.ready p (.stationPlane p [w, wm]))
    (hw : number? w = some n.number) (hm : number? wm = some mm) (h1 : -500 ≤ mm) (h2 : mm ≤ 500) :
    exec (.stationPlane p [w, wm]) s = .next ((s.taken p (.stationPlane p [w, wm])).planeStation p n mm) := by
  show Host.Outcome.next _ = _
  rw [takeLine_ready _ h]
  simp only [stationArgs?_cons hw (numbers?_cons hm (show numbers? [] = some [] from rfl)), stationOf?_number, if_pos (within_iff.mpr ⟨h1, h2⟩)]

theorem exec_stationWithdraw_ready {p : Port} {w : Text} {n : StationId} {s : State} (h : s.ready p (.stationWithdraw p [w]))
    (hw : number? w = some n.number) :
    exec (.stationWithdraw p [w]) s = .next ((s.taken p (.stationWithdraw p [w])).withdrawStation p n) := by
  show Host.Outcome.next _ = _
  rw [takeLine_ready _ h, State.withStation_of hw]

theorem exec_stationRestore_ready {p : Port} {w : Text} {n : StationId} {s : State} (h : s.ready p (.stationRestore p [w]))
    (hw : number? w = some n.number) :
    exec (.stationRestore p [w]) s = .next ((s.taken p (.stationRestore p [w])).restoreStation p n) := by
  show Host.Outcome.next _ = _
  rw [takeLine_ready _ h, State.withStation_of hw]

theorem State.planeStation_of {s : State} {p : Port} {n : StationId} {d : StationData} {st : StationData → Station}
    (hst : st = .inService ∨ st = .withdrawn) (hd : s.store.stations.get n = st d) (mm : Int) :
    s.planeStation p n mm = s.stationTests p (s.stationInUse n) .inuse ((s.setCorrection n d (st { d with correction := mm }) mm).ok p) := by
  rw [State.planeStation, hd]
  rcases hst with rfl | rfl <;> rfl

/-- A station written with its live part as it was. -/
theorem State.writeStation_marked_still (s : State) (p : Port) (row : Instr) (n : StationId) (x : Station) :
    let t := (((s.taken p row).writeStation n x).markingChange (.station n)).ok p
    (s.answered p row okReply).keepsMachine t [.dropped, .backlog, .swept] ∧ s.marked t (s.marksLine (.station n))
      ∧ t.store.stations = s.store.stations.set n x ∧ t.settings = s.settings ∧ s.reaches t (.station n) := by
  have h := s.writeStation_marked p row n x (fun v => v)
  have hlive : s.link.live.set n (s.link.live.get n) = s.link.live := congrArg Link.live (congrArg State.link (s.updLive_same n))
  have heq : ({ s.answered p row okReply with link := { s.link with live := s.link.live.set n (s.link.live.get n) } } : State)
      = s.answered p row okReply := by
    rw [hlive]
    cases p <;> rfl
  rw [State.updLive_same, heq] at h
  exact h

/-- Settles O28: STATE, BACKLOG, INUSE or COLLIDE, and then the marking change of the station. -/
theorem stationChangesMarkLines : Obligations.StationChangesMarkLines := by
  intro p w n s hw inUse collides
  refine ⟨fun wm mm h hm h1 h2 => ?_, fun h => ?_, fun h => ?_⟩
  · intro no
    have hexec := exec_stationPlane_ready h hw hm h1 h2
    refine ⟨fun hu => ?_, fun d st hst hd => ?_⟩
    · show exec _ s = _
      rw [hexec, State.planeStation, State.taken_store, hu, taken_no]
    · rw [State.planeStation_of hst (by rw [State.taken_store]; exact hd), taken_stationInUse] at hexec
      refine ⟨fun hb => ?_, fun hb hu => ?_, fun hb hu => ⟨fun heq => ?_, fun hne => ?_⟩⟩
      · show exec _ s = _
        rw [hexec, taken_stationTests_backlog hb]
      · show exec _ s = _
        rw [hexec, taken_stationTests_fail hb (State.stationInUse_iff.mpr hu)]
      · rw [hexec, taken_stationTests_pass hb (fun h => hu (State.stationInUse_iff.mp h)), State.setCorrection, if_pos heq,
          taken_ok, okReply]
      · rw [taken_stationTests_pass hb (fun h => hu (State.stationInUse_iff.mp h)), State.setCorrection, if_neg hne] at hexec
        obtain ⟨h1, h2, h3, h4, h5⟩ := s.writeStation_marked_still p (.stationPlane p [w, wm]) n (st { d with correction := mm })
        exact ⟨_, hexec, h1, h2, h5, h3, h4⟩
  · intro no
    have hexec := exec_stationWithdraw_ready h hw
    refine ⟨fun hno => ?_, fun d hd => ?_⟩
    · show exec _ s = _
      rw [hexec, State.withdrawStation, State.taken_store]
      split
      · rename_i d hd
        exact absurd hd (hno d)
      · rw [taken_no]
    · rw [State.withdrawStation, State.taken_store, hd] at hexec
      dsimp only at hexec
      rw [taken_stationInUse] at hexec
      refine ⟨fun hb => ?_, fun hb hu => ?_, fun hb hu => ?_⟩
      · show exec _ s = _
        rw [hexec, taken_stationTests_backlog hb]
      · show exec _ s = _
        rw [hexec, taken_stationTests_fail hb (State.stationInUse_iff.mpr hu)]
      · rw [taken_stationTests_pass hb (fun h => hu (State.stationInUse_iff.mp h))] at hexec
        obtain ⟨h1, h2, h3, h4, h5⟩ := s.writeStation_marked p (.stationWithdraw p [w]) n (.withdrawn d) (fun v => { v with last := none })
        exact ⟨_, hexec, h1, h2, h5, h3, h4⟩
  · intro no
    have hexec := exec_stationRestore_ready h hw
    refine ⟨fun hno => ?_, fun d hd => ?_⟩
    · show exec _ s = _
      rw [hexec, State.restoreStation, State.taken_store]
      split
      · rename_i d hd
        exact absurd hd (hno d)
      · rw [taken_no]
    · rw [State.restoreStation, State.taken_store, hd] at hexec
      dsimp only at hexec
      have hcoll : s.store.collides n d.signature = true ↔ collides d.signature := Store.collides_iff s n d.signature
      refine ⟨fun hb => ?_, fun hb hu => ?_, fun hb hu => ?_⟩
      · show exec _ s = _
        rw [hexec, taken_stationTests_backlog hb]
      · show exec _ s = _
        rw [hexec, taken_stationTests_fail hb (hcoll.mpr hu)]
      · rw [taken_stationTests_pass hb (fun h => hu (hcoll.mp h))] at hexec
        obtain ⟨h1, h2, h3, h4, h5⟩ := s.writeStation_marked_still p (.stationRestore p [w]) n (.inService d)
        exact ⟨_, hexec, h1, h2, h5, h3, h4⟩

end Sys2Proof.Machine
end

section
/-! PROOF. A marking change taken on a command's behalf, and SET (10.5). -/
namespace Sys2Proof.Machine

/-! ## A marking change and the reply to its command (R78, R83) -/

/-- The state that a command makes its marking change in: the lines, the claims and the machine are those of the line taken. -/
structure State.isMarkBase (s : State) (p : Port) (row : Instr) (c : Change) (u : State) : Prop where
  machine : (s.taken p row).keepsMachine u []
  lines : u.store.lines = s.store.lines
  lastDrop : u.run.lastDrop = s.run.lastDrop
  ports : ∀ q : Port, (u.port q).claim = (s.port q).claim ∧ (u.port q).draft = (s.port q).draft
    ∧ (u.port q).commit.map (fun k => k.reached) = (s.port q).commit.map (fun k => k.reached)
  marks : u.marksLine c = s.marksLine c

theorem State.markingChange_ok {s u : State} {p : Port} {row : Instr} {c : Change} (h : s.isMarkBase p row c u) :
    let t := (u.markingChange c).ok p
    (s.answered p row okReply).keepsMachine t [.dropped, .backlog, .swept] ∧ s.marked t (s.marksLine c)
      ∧ t.store.stations = u.store.stations ∧ t.settings = u.settings ∧ s.reaches t c := by
  intro t
  obtain ⟨hmarked, hkeeps, hstations, hsettings, hreaches⟩ := u.markingChange_spec c
  refine ⟨?_, ?_, ?_, ?_, ?_⟩
  · have h1 := State.keepsMachine_reply (State.keepsMachine_trans (State.keepsMachine_mono h.machine (by simp)) hkeeps) p okReply
    rw [taken_reply] at h1
    exact h1
  · have h1 := State.marked_reply hmarked p okReply
    rw [h.marks] at h1
    refine State.marked_congr h.lines h.lastDrop (fun q => ?_) h1
    obtain ⟨-, -, -, -, -, -, -, -, -, hev⟩ := h.machine
    refine (hev q .dropped (by simp)).trans ?_
    cases p <;> cases q <;> exact .rfl
  · show ((u.markingChange c).reply p _).store.stations = _
    rw [State.reply_store, hstations]
  · show ((u.markingChange c).reply p _).store.settings = _
    rw [State.reply_store, hsettings]
    rfl
  · exact State.reaches_congr h.lines h.ports (State.reaches_reply hreaches p okReply)

theorem State.isMarkBase_taken (s : State) (p : Port) (row : Instr) (c : Change) : s.isMarkBase p row c (s.taken p row) where
  machine := State.keepsMachine_refl _ _
  lines := by rw [State.taken_store]
  lastDrop := by rw [State.taken_run]
  ports := fun q => by cases p <;> cases q <;> exact ⟨rfl, rfl, rfl⟩
  marks := State.marksLine_taken s p row c

/-- Settings written after the checks in flight have read on. -/
theorem State.isMarkBase_setSettings (s : State) (p : Port) (row : Instr) (c : Change) (x : Settings) :
    s.isMarkBase p row c ((s.taken p row).proceedChecks.setSettings x) where
  machine := (State.proceedChecks_keeps (s.taken p row)).2
  lines := by
    show (s.taken p row).store.lines = _
    rw [State.taken_store]
  lastDrop := by
    show (s.taken p row).run.lastDrop = _
    rw [State.taken_run]
  ports := fun q => State.taken_proceedChecks_ports s p row q
  marks := by
    rw [← State.marksLine_taken s p row c, ← State.marksLine_proceedChecks (s.taken p row)]
    rfl

/-! ## SET (R177 to R179) -/

theorem SettingName.mem_groupA {n : SettingName} : n ∈ [SettingName.minFall, .junctionDrop, .mast, .clearBand] ↔ n.group = .a := by
  cases n <;> decide

theorem SettingName.mem_groupC {n : SettingName} :
    n ∈ [SettingName.odoScale, .odoDecode, .sigMask, .strikeTimeout, .backup, .handoffLen, .freezeLead] ↔ n.group = .c := by
  cases n <;> decide

/-- A good value of a setting with a range is the number it reads as. -/
theorem settingValue?_asNum {n : SettingName} {w : Text} {v : SettingValue} (h : settingValue? n w = .good v) (hn : n.range?.isSome) :
    v = .num v.asNum := by
  obtain ⟨⟨lo, hi⟩, hr⟩ := Option.isSome_iff_exists.mp hn
  obtain ⟨m, rfl, -⟩ := settingValue?_num h hr
  rfl

section Tests
variable {s : State} {n : SettingName} {w : Text} {v : SettingValue}

/-- MAST less CLEAR_BAND would not stay above 0 (R177, item 3). -/
def State.bandLost (s : State) (n : SettingName) (v : SettingValue) : Prop :=
  ∃ mm, v = .num mm ∧ ((n = .mast ∧ mm - s.settings.clearBand ≤ 0) ∨ (n = .clearBand ∧ s.settings.mast - mm ≤ 0))

theorem State.bandLost_iff (h : settingValue? n w = .good v) :
    ((n == .mast || n == .clearBand) && !bandGood (s.settings.put n v)) = true ↔ s.bandLost n v := by
  by_cases hm : n = .mast
  · subst hm
    obtain ⟨mm, rfl, -⟩ := settingValue?_num h rfl
    simp [State.bandLost, bandGood, Settings.put, SettingValue.asNum]
  · by_cases hc : n = .clearBand
    · subst hc
      obtain ⟨mm, rfl, -⟩ := settingValue?_num h rfl
      simp [State.bandLost, bandGood, Settings.put, SettingValue.asNum]
    · simp [State.bandLost, hm, hc]

/-- A setting that may not be written in this state of the run (R177, item 4). -/
def State.settingBarred (s : State) (n : SettingName) (v : SettingValue) : Prop :=
  (n ∈ [SettingName.minFall, .junctionDrop, .mast, .clearBand] ∧ s.context? ≠ none)
    ∨ (n ∈ [SettingName.odoScale, .odoDecode, .sigMask, .strikeTimeout, .backup, .handoffLen, .freezeLead] ∧ s.digging = true)
    ∨ (n = .backup ∧ ∃ mm f, v = .num mm ∧ s.furthest? = some f ∧ s.settings.backup < mm)

theorem State.backupBarred_iff (h : settingValue? n w = .good v) :
    (n == .backup && s.furthest?.isSome && decide (s.settings.backup < v.asNum)) = true
      ↔ n = .backup ∧ ∃ mm f, v = .num mm ∧ s.furthest? = some f ∧ s.settings.backup < mm := by
  by_cases hn : n = .backup
  · subst hn
    obtain ⟨mm, rfl, -⟩ := settingValue?_num h rfl
    cases s.furthest? with
    | none => simp
    | some f =>
      simp only [beq_self_eq_true, Option.isSome_some, Bool.true_and, SettingValue.asNum, true_and]
      exact ⟨fun h => ⟨mm, f, rfl, rfl, of_decide_eq_true h⟩, fun ⟨_, _, hv, _, h⟩ => by cases hv; exact decide_eq_true h⟩
  · simp [hn]

theorem State.setBarred_iff (h : settingValue? n w = .good v) : s.setBarred n v = true ↔ s.settingBarred n v := by
  have hidle : (!s.isIdle) = true ↔ s.context? ≠ none := by
    rw [State.isIdle]
    cases s.context? <;> simp
  unfold State.setBarred State.settingBarred
  rw [SettingName.mem_groupA, SettingName.mem_groupC, ← State.backupBarred_iff h]
  cases hg : n.group with
  | a =>
    have hb : (n == .backup) = false := beq_false_of_ne (fun hn => by rw [hn] at hg; exact (nomatch hg))
    simp [hidle, hb]
  | b =>
    have hb : (n == .backup) = false := beq_false_of_ne (fun hn => by rw [hn] at hg; exact (nomatch hg))
    simp [hb]
  | c => simp

/-- Two IN_SERVICE stations equal under the mask that the value gives (R177, item 6). -/
def State.maskCollides (s : State) (n : SettingName) (v : SettingValue) : Prop :=
  ∃ (mm : Int) (m k : StationId) (d e : StationData), n = .sigMask ∧ v = .num mm ∧ m ≠ k
    ∧ s.store.stations.get m = .inService d ∧ s.store.stations.get k = .inService e
    ∧ d.signature &&& BitVec.ofInt 8 mm = e.signature &&& BitVec.ofInt 8 mm

theorem State.maskCollides_iff (h : settingValue? n w = .good v) :
    (n == .sigMask && s.store.collidesUnder (s.settings.put n v).sigMask) = true ↔ s.maskCollides n v := by
  by_cases hn : n = .sigMask
  · subst hn
    obtain ⟨mm, rfl, -⟩ := settingValue?_num h rfl
    have hput : (s.settings.put .sigMask (.num mm)).sigMask = BitVec.ofInt 8 mm := rfl
    rw [beq_self_eq_true, Bool.true_and, hput, ← Bool.not_eq_false, Store.collidesUnder_iff]
    constructor
    · intro hno
      push Not at hno
      obtain ⟨m, k, d, e, hne, hd, he, hsig⟩ := hno
      exact ⟨mm, m, k, d, e, rfl, rfl, hne, hd, he, sameUnder_iff.mp (by simpa using hsig)⟩
    · rintro ⟨mm', m, k, d, e, -, hv, hne, hd, he, hsig⟩ hno
      cases hv
      exact (nomatch (hno m k d e hne hd he).symm.trans (sameUnder_iff.mpr hsig))
  · simp [State.maskCollides, hn]

/-- The first of the tests that fails (R177). -/
theorem State.setRefusal?_eq (h : settingValue? n w = .good v) :
    (s.bandLost n v → s.setRefusal? n v = some .range)
    ∧ (¬s.bandLost n v → s.settingBarred n v → s.setRefusal? n v = some .state)
    ∧ (¬s.bandLost n v → ¬s.settingBarred n v → n.group = .a ∧ s.recheck.backlog = true → s.setRefusal? n v = some .backlog)
    ∧ (¬s.bandLost n v → ¬s.settingBarred n v → ¬(n.group = .a ∧ s.recheck.backlog = true) → s.maskCollides n v →
      s.setRefusal? n v = some .collide)
    ∧ (¬s.bandLost n v → ¬s.settingBarred n v → ¬(n.group = .a ∧ s.recheck.backlog = true) → ¬s.maskCollides n v →
      s.setRefusal? n v = none) := by
  have hband := State.bandLost_iff (s := s) h
  have hbar := State.setBarred_iff (s := s) h
  have hmask := State.maskCollides_iff (s := s) h
  have hback : (n.group == .a && s.recheck.backlog) = true ↔ n.group = .a ∧ s.recheck.backlog = true := by
    rw [Bool.and_eq_true, beq_iff_eq]
  unfold State.setRefusal?
  dsimp only
  refine ⟨fun h1 => ?_, fun h1 h2 => ?_, fun h1 h2 h3 => ?_, fun h1 h2 h3 h4 => ?_, fun h1 h2 h3 h4 => ?_⟩
  · rw [if_pos (hband.mpr h1)]
  · rw [if_neg (mt hband.mp h1), if_pos (hbar.mpr h2)]
  · rw [if_neg (mt hband.mp h1), if_neg (mt hbar.mp h2), if_pos (hback.mpr h3)]
  · rw [if_neg (mt hband.mp h1), if_neg (mt hbar.mp h2), if_neg (mt hback.mp h3), if_pos (hmask.mpr h4)]
  · rw [if_neg (mt hband.mp h1), if_neg (mt hbar.mp h2), if_neg (mt hback.mp h3), if_neg (mt hmask.mp h4)]

end Tests

theorem taken_setRefusal? (s : State) (p : Port) (row : Instr) (n : SettingName) (v : SettingValue) :
    (s.taken p row).setRefusal? n v = s.setRefusal? n v := by
  simp only [State.setRefusal?, State.setBarred, State.taken_settings, taken_isIdle, taken_digging, taken_furthest?, State.taken_recheck,
    State.taken_store]
  rfl

theorem exec_set_ready {p : Port} {wn wv : Text} {n : SettingName} {v : SettingValue} {s : State} (h : s.ready p (.set p [wn, wv]))
    (hn : settingName? wn = some n) (hv : settingValue? n wv = .good v) :
    exec (.set p [wn, wv]) s = .next (match s.setRefusal? n v with
      | some r => s.answered p (.set p [wn, wv]) (noReply r)
      | none => if s.settings.get n = v then s.answered p (.set p [wn, wv]) okReply
        else ((s.taken p (.set p [wn, wv])).changeSetting n v).ok p) := by
  show Host.Outcome.next _ = _
  rw [takeLine_ready _ h]
  simp only [hn, hv, State.setValue, taken_setRefusal?, taken_no, State.taken_settings, taken_ok]
  rfl

theorem State.changeSetting_groupA {s : State} {n : SettingName} (h : n.group = .a) (v : SettingValue) :
    s.changeSetting n v = (s.proceedChecks.setSettings (s.settings.put n v)).markingChange .groupA := by
  simp only [State.changeSetting, h]

theorem State.changeSetting_plain {s : State} {n : SettingName} (h : n.group ≠ .a) (hn : n ≠ .trimRamp) (v : SettingValue) :
    s.changeSetting n v = s.setSettings (s.settings.put n v) := by
  unfold State.changeSetting
  dsimp only
  split
  · exact absurd (by assumption) h
  · exact if_neg hn

theorem marksLine_groupA (s : State) : s.marksLine .groupA = fun _ => true := rfl

/-- Settles O57: the tests of R177 in their order, and then the write of the setting's group. -/
theorem setChangesASetting : Obligations.SetChangesASetting := by
  intro p wn wv n v s h hn hv refused groupA groupC bandLost barred held collides taken
  have hexec := exec_set_ready h hn hv
  obtain ⟨h1, h2, h3, h4, h5⟩ := State.setRefusal?_eq (s := s) hv
  have hheld : held ↔ n.group = .a ∧ s.recheck.backlog = true := and_congr_left' SettingName.mem_groupA
  have hno : ∀ r, s.setRefusal? n v = some r → refused r := by
    intro r hr
    rw [hr] at hexec
    exact hexec
  have hpass : taken → s.setRefusal? n v = none := fun ht => h5 ht.1 ht.2.1 (mt hheld.mpr ht.2.2.1) ht.2.2.2
  refine ⟨fun hb => hno _ (h1 hb), fun hb hs => hno _ (h2 hb hs), fun hb hs hk => hno _ (h3 hb hs (hheld.mp hk)),
    fun hb hs hk hc => hno _ (h4 hb hs (mt hheld.mpr hk) hc), fun ht heq => ?_, fun ht hne hga htr => ?_, fun ht hne htr => ?_,
    fun ht hne hga => ?_⟩
  all_goals rw [hexec, hpass ht]
  all_goals dsimp only
  · rw [if_pos heq]
  all_goals rw [if_neg hne]
  · rw [State.changeSetting_plain (mt SettingName.mem_groupA.mpr hga) htr, State.taken_settings]
    cases p <;> rfl
  · subst htr
    rw [State.changeSetting]
    dsimp only [SettingName.group]
    rw [if_pos rfl, State.taken_settings]
    cases p <;> rfl
  · rw [State.changeSetting_groupA (SettingName.mem_groupA.mp hga), State.taken_settings]
    obtain ⟨g1, g2, g3, g4, g5⟩ := State.markingChange_ok
      (s.isMarkBase_setSettings p (.set p [wn, wv]) .groupA (s.settings.put n v))
    refine ⟨_, rfl, g1, ?_, g5, ?_, ?_⟩
    · rw [marksLine_groupA] at g2
      exact g2
    · rw [g4]
      rfl
    · rw [g3]
      show (s.taken p _).store.stations = _
      rw [State.taken_store]

end Sys2Proof.Machine
end

section
/-! PROOF. The Re-check unit's rows (05): what it does when it looks for work, and the end of a check. -/
namespace Sys2Proof.Machine

/-! ## The backlog flag (R92) -/

/-- The evaluation of the flag, once: a change is written and raises BACKLOG, and otherwise nothing changes. -/
theorem State.evalBacklog_eq (s : State) :
    let b := s.recheck.backlogAt s.recheck.queue.length s.recheck.scanPending
    s.evalBacklog = if b = s.recheck.backlog then s else (s.updRecheck (fun r => { r with backlog := b })).raise .backlog := by
  intro b
  unfold State.evalBacklog
  dsimp only
  cases hb : s.recheck.backlog with
  | true =>
    have hb' : b = (decide (4 < s.recheck.queue.length) || s.recheck.scanPending) := if_pos hb
    have hoff : (decide (s.recheck.queue.length ≤ Config.backlogOff) && !s.recheck.scanPending) = !b := by
      rw [hb', Bool.not_or, ← decide_not]
      simp only [Nat.not_lt]
      rfl
    simp only [Bool.not_true, Bool.false_and, Bool.false_eq_true, if_false, Bool.true_and, hoff]
    cases b <;> rfl
  | false =>
    have hb' : b = (decide (12 ≤ s.recheck.queue.length) || s.recheck.scanPending) := if_neg (ne_true_of_eq_false hb)
    have hon : (decide (Config.backlogOn ≤ s.recheck.queue.length) || s.recheck.scanPending) = b := hb'.symm
    simp only [Bool.not_false, Bool.true_and, Bool.false_and, hon]
    cases b <;> rfl

theorem State.evalBacklog_spec (s : State) :
    s.evalBacklog.recheck = { s.recheck with backlog := s.recheck.backlogAt s.recheck.queue.length s.recheck.scanPending }
      ∧ ∀ q : Port, .backlog ∈ (s.evalBacklog.port q).events ↔ .backlog ∈ (s.port q).events
        ∨ s.evalBacklog.recheck.backlog ≠ s.recheck.backlog := by
  rw [s.evalBacklog_eq]
  split
  · rename_i h
    exact ⟨by rw [h], fun q => by simp⟩
  · rename_i h
    refine ⟨rfl, fun q => State.mem_raise.trans ⟨fun _ => .inr h, fun _ => .inl rfl⟩⟩

/-! ## What the unit finds to do (R86, R90, R91) -/

/-- A check that has just begun. -/
def freshCheck (id : Nat) (o : Origin) : InFlight := { id := id, discard := false, origin := o, check := { made := 0, failure := none } }

/-- The state in which the scan alone has gone on to a line. -/
def State.scannedTo (s : State) (id : Nat) (again : Bool) : State :=
  { s with recheck := { s.recheck with scanPos := some id, again := again, inFlight := some (freshCheck id .scan) } }

theorem State.beginPass_found {s : State} {id : Nat} (h : s.store.staleAbove? 0 = some id) : s.beginPass = s.scannedTo id false := by
  have h' : (s.updRecheck (fun r => { r with scanPos := some 0, again := false })).store.staleAbove? 0 = some id := h
  simp only [State.beginPass, h']
  rfl

theorem State.beginPass_none {s : State} (h : s.store.staleAbove? 0 = none) :
    s.beginPass = (s.updRecheck (fun r => { r with scanPos := some 0, again := false })).endPass := by
  have h' : (s.updRecheck (fun r => { r with scanPos := some 0, again := false })).store.staleAbove? 0 = none := h
  simp only [State.beginPass, h']

theorem State.carryPass_found {s : State} {pos id : Nat} (h : s.store.staleAbove? pos = some id) :
    s.carryPass pos = s.scannedTo id s.recheck.again := by
  simp only [State.carryPass, h]
  rfl

theorem State.carryPass_again {s : State} {pos : Nat} (h : s.store.staleAbove? pos = none) (ha : s.recheck.again = true) :
    s.carryPass pos = s.beginPass := by
  simp only [State.carryPass, h, ha, if_true]

theorem State.carryPass_last {s : State} {pos : Nat} (h : s.store.staleAbove? pos = none) (ha : s.recheck.again = false) :
    s.carryPass pos = s.endPass := by
  simp only [State.carryPass, h, ha, Bool.false_eq_true, if_false]

/-- A pass has ended with nothing queued and nothing in flight: the unit is at rest, and SWEPT is raised (R90, R91). -/
def State.passEnds (s t : State) : Prop :=
  t.recheck = { s.recheck with scanPending := false, scanPos := none, again := false, backlog := false }
    ∧ (∀ q : Port, .swept ∈ (t.port q).events) ∧ (s.recheck.backlog = true → ∀ q : Port, .backlog ∈ (t.port q).events)

theorem State.sweptTest_rest {s : State} (hq : s.recheck.queue = []) (hf : s.recheck.inFlight = none) (hp : s.recheck.scanPending = false) :
    s.sweptTest = s.raise .swept := by
  rw [State.sweptTest, hq, hf, hp]
  rfl

theorem State.sweptTest_work {s : State} (h : s.recheck.queue ≠ [] ∨ s.recheck.inFlight ≠ none ∨ s.recheck.scanPending = true) :
    s.sweptTest = s := by
  rw [State.sweptTest, if_neg]
  rw [Bool.and_eq_true, Bool.and_eq_true, List.isEmpty_iff, Option.isNone_iff_eq_none, Bool.not_eq_true']
  rintro ⟨⟨h1, h2⟩, h3⟩
  rcases h with h | h | h
  · exact h h1
  · exact h h2
  · exact (nomatch h3.symm.trans h)

theorem State.endPass_ends {s : State} (hq : s.recheck.queue = []) (hf : s.recheck.inFlight = none) :
    s.endPass.recheck = { s.recheck with scanPending := false, scanPos := none, backlog := false }
      ∧ (∀ q : Port, .swept ∈ (s.endPass.port q).events) ∧ (s.recheck.backlog = true → ∀ q : Port, .backlog ∈ (s.endPass.port q).events) := by
  obtain ⟨hrec, hev⟩ := (s.updRecheck (fun r => { r with scanPending := false, scanPos := none })).evalBacklog_spec
  set u := (s.updRecheck (fun r => { r with scanPending := false, scanPos := none })).evalBacklog with hu
  have hback : ({ s.recheck with scanPending := false, scanPos := none } : Recheck).backlogAt s.recheck.queue.length false = false := by
    rw [hq, Recheck.backlogAt]
    split <;> rfl
  have hrec' : u.recheck = { s.recheck with scanPending := false, scanPos := none, backlog := false } := by
    rw [hrec]
    exact congrArg (fun b => ({ s.recheck with scanPending := false, scanPos := none, backlog := b } : Recheck)) hback
  have hend : s.endPass = u.raise .swept := State.sweptTest_rest (by rw [hrec']; exact hq) (by rw [hrec']; exact hf) (by rw [hrec'])
  rw [hend]
  refine ⟨hrec', fun q => State.mem_raise.mpr (.inl rfl), fun hb q => State.mem_raise.mpr (.inr ((hev q).mpr (.inr ?_)))⟩
  rw [hrec']
  exact fun h => (nomatch h.trans hb)

theorem State.beginPass_ends {s : State} (hq : s.recheck.queue = []) (hf : s.recheck.inFlight = none) (h : s.store.staleAbove? 0 = none) :
    s.passEnds s.beginPass := by
  rw [State.beginPass_none h]
  exact State.endPass_ends (s := s.updRecheck (fun r => { r with scanPos := some 0, again := false })) hq hf

theorem State.carryPass_ends {s : State} {pos : Nat} (hq : s.recheck.queue = []) (hf : s.recheck.inFlight = none)
    (h : s.store.staleAbove? pos = none) (ha : s.recheck.again = false) : s.passEnds (s.carryPass pos) := by
  rw [State.carryPass_last h ha]
  obtain ⟨h1, h2, h3⟩ := State.endPass_ends hq hf
  refine ⟨?_, h2, h3⟩
  rw [h1, ← ha]

section Look
variable {s : State} (hf : s.recheck.inFlight = none)
include hf

theorem State.lookForWork_queue {id : Nat} {rest : List Nat} (hq : s.recheck.queue = id :: rest) :
    s.lookForWork = ((s.updRecheck (fun r => { r with queue := rest })).startCheck id .queue).evalBacklog := by
  simp only [State.lookForWork, hf, hq]

theorem State.lookForWork_rest (hq : s.recheck.queue = []) (hp : s.recheck.scanPending = false) : s.lookForWork = s := by
  simp only [State.lookForWork, hf, hq, hp, Bool.false_eq_true, if_false]

theorem State.lookForWork_begin (hq : s.recheck.queue = []) (hp : s.recheck.scanPending = true) (hpos : s.recheck.scanPos = none) :
    s.lookForWork = s.beginPass := by
  simp only [State.lookForWork, hf, hq, hp, hpos, if_true]

theorem State.lookForWork_carry (hq : s.recheck.queue = []) (hp : s.recheck.scanPending = true) {pos : Nat}
    (hpos : s.recheck.scanPos = some pos) : s.lookForWork = s.carryPass pos := by
  simp only [State.lookForWork, hf, hq, hp, hpos, if_true]

/-- An entry taken from the queue: the flag follows the shorter queue (R86, R92). -/
theorem State.lookForWork_takes {id : Nat} {rest : List Nat} (hq : s.recheck.queue = id :: rest) :
    s.lookForWork.recheck = { s.recheck with
        queue := rest, inFlight := some (freshCheck id .queue), backlog := s.recheck.backlogAt rest.length s.recheck.scanPending }
      ∧ ∀ q : Port, .backlog ∈ (s.lookForWork.port q).events ↔ .backlog ∈ (s.port q).events
        ∨ s.lookForWork.recheck.backlog ≠ s.recheck.backlog := by
  rw [State.lookForWork_queue hf hq]
  obtain ⟨h1, h2⟩ := ((s.updRecheck (fun r => { r with queue := rest })).startCheck id .queue).evalBacklog_spec
  exact ⟨h1, h2⟩

end Look

theorem State.unitOnly_beginPass (s : State) : s.unitOnly s.beginPass [.backlog, .swept] := by
  cases h : s.store.staleAbove? 0 with
  | some id =>
    rw [State.beginPass_found h]
    exact State.unitOnly_updRecheck s (fun r => { r with scanPos := some id, again := false, inFlight := some (freshCheck id .scan) }) _
  | none =>
    rw [State.beginPass_none h]
    exact State.unitOnly_trans (State.unitOnly_updRecheck s _ _) (State.unitOnly_endPass _)

theorem State.unitOnly_carryPass (s : State) (pos : Nat) : s.unitOnly (s.carryPass pos) [.backlog, .swept] := by
  cases h : s.store.staleAbove? pos with
  | some id =>
    rw [State.carryPass_found h]
    exact State.unitOnly_updRecheck s
      (fun r => { r with scanPos := some id, again := s.recheck.again, inFlight := some (freshCheck id .scan) }) _
  | none =>
    cases ha : s.recheck.again with
    | true =>
      rw [State.carryPass_again h ha]
      exact s.unitOnly_beginPass
    | false =>
      rw [State.carryPass_last h ha]
      exact s.unitOnly_endPass

theorem State.unitOnly_takes (s : State) (id : Nat) (rest : List Nat) :
    s.unitOnly ((s.updRecheck (fun r => { r with queue := rest })).startCheck id .queue).evalBacklog [.backlog] :=
  State.unitOnly_trans (State.unitOnly_trans (State.unitOnly_updRecheck s _ _) (State.unitOnly_updRecheck _ _ _))
    (State.unitOnly_evalBacklog _ (by simp))

theorem State.unitOnly_lookForWork (s : State) : s.unitOnly s.lookForWork [.backlog, .swept] := by
  unfold State.lookForWork
  split
  · exact State.unitOnly_refl s _
  · exact State.unitOnly_mono (s.unitOnly_takes _ _) (by simp)
  · split
    · split
      · exact s.unitOnly_beginPass
      · exact s.unitOnly_carryPass _
    · exact State.unitOnly_refl s _

theorem State.unitOnly_carryAfter (s : State) (o : Origin) : s.unitOnly (s.carryAfter o) [.backlog, .swept] := by
  unfold State.carryAfter
  split
  · exact s.unitOnly_carryPass _
  · exact State.unitOnly_refl s _

/-- Settles O38: each way the unit can find work, or none. -/
theorem checkStartTakesWork : Obligations.CheckStartTakesWork := by
  intro s hs hf check scans ends
  have hexec : exec .checkStart s = .next s.lookForWork := congrArg _ (if_pos hs)
  have hends : s.passEnds s.lookForWork → ends := by
    intro h
    obtain ⟨hmach, hstore, hrun⟩ := State.keepsMachine_unitOnly s.unitOnly_lookForWork
    exact ⟨_, hexec, hmach, hstore, hrun, h⟩
  have hscans : ∀ id again, s.lookForWork = s.scannedTo id again → scans id again := by
    intro id again h
    show exec .checkStart s = _
    rw [hexec, h]
    rfl
  refine ⟨fun id rest hq => ?_, fun hq hp => ?_, fun hq hp => ⟨fun hpos => ⟨fun id hid => ?_, fun hid => ?_⟩, fun pos hpos =>
    ⟨fun id hid => ?_, fun hid ha => ?_, fun hid ha => ⟨fun id hid0 => ?_, fun hid0 => ?_⟩⟩⟩⟩
  · obtain ⟨h1, h2⟩ := State.lookForWork_takes hf hq
    have hunit := s.unitOnly_takes id rest
    rw [← State.lookForWork_queue hf hq] at hunit
    obtain ⟨hmach, hstore, hrun⟩ := State.keepsMachine_unitOnly hunit
    exact ⟨_, hexec, hmach, hstore, hrun, h1, h2⟩
  · rw [hexec, State.lookForWork_rest hf hq hp]
  · exact hscans id false ((State.lookForWork_begin hf hq hp hpos).trans (State.beginPass_found hid))
  · refine hends ?_
    rw [State.lookForWork_begin hf hq hp hpos]
    exact State.beginPass_ends hq hf hid
  · exact hscans id _ ((State.lookForWork_carry hf hq hp hpos).trans (State.carryPass_found hid))
  · refine hends ?_
    rw [State.lookForWork_carry hf hq hp hpos]
    exact State.carryPass_ends hq hf hid ha
  · exact hscans id false ((State.lookForWork_carry hf hq hp hpos).trans ((State.carryPass_again hid ha).trans (State.beginPass_found hid0)))
  · refine hends ?_
    rw [State.lookForWork_carry hf hq hp hpos, State.carryPass_again hid ha]
    exact State.beginPass_ends hq hf hid0

/-! ## The end of a check (R88) -/

theorem State.writeResult_keeps (s : State) (id : Nat) (x : Option Failure) : s.keepsMachine (s.writeResult id x) [.conflict]
    ∧ (s.writeResult id x).recheck = s.recheck ∧ (s.writeResult id x).run = s.run
    ∧ (s.writeResult id x).store.stations = s.store.stations ∧ (s.writeResult id x).settings = s.settings := by
  unfold State.writeResult
  split
  · exact ⟨State.keepsMachine_mono (s.updLine_keeps _ _) (by simp), rfl, rfl, rfl, rfl⟩
  · exact ⟨State.keepsMachine_trans (State.keepsMachine_mono (s.updLine_keeps _ _) (by simp)) (State.raise_keeps _ _), rfl, rfl, rfl, rfl⟩

theorem State.checkWritten_keeps (s : State) (f : InFlight) : s.keepsMachine (s.checkWritten f) [.conflict]
    ∧ (s.checkWritten f).recheck = s.recheck ∧ (s.checkWritten f).run = s.run
    ∧ (s.checkWritten f).store.stations = s.store.stations ∧ (s.checkWritten f).settings = s.settings := by
  have hsame : s.keepsMachine s [.conflict] ∧ s.recheck = s.recheck ∧ s.run = s.run ∧ s.store.stations = s.store.stations
    ∧ s.settings = s.settings := ⟨State.keepsMachine_refl s _, rfl, rfl, rfl, rfl⟩
  unfold State.checkWritten
  split
  · exact hsame
  · split
    · exact hsame
    · exact s.writeResult_keeps _ _

theorem State.checkWritten_of {s : State} {f : InFlight} {l : Line} (hd : f.discard = false) (hl : s.line? f.id = some l) :
    s.checkWritten f = s.writeResult f.id (f.check.result s.store l.subject) := by
  simp only [State.checkWritten, hd, hl, Bool.false_eq_true, if_false]

/-- After the carry of a pass the unit has what it would have found by looking for work; SWEPT may be raised once more (R88, R90). -/
theorem State.carryAfter_look {s : State} (hf : s.recheck.inFlight = none) (o : Origin)
    (h : s.recheck.queue ≠ [] ∨ s.recheck.scanPending = true) :
    ((s.carryAfter o).sweptTest).lookForWork = s.lookForWork
      ∨ s.passEnds s.lookForWork ∧ ((s.carryAfter o).sweptTest).lookForWork = s.lookForWork.raise .swept := by
  have hstill : s.carryAfter o = s → ((s.carryAfter o).sweptTest).lookForWork = s.lookForWork := by
    intro hs
    rw [hs, State.sweptTest_work (h.imp_right .inr)]
  unfold State.carryAfter
  split
  case h_2 =>
    rw [State.sweptTest_work (h.imp_right .inr)]
    exact .inl rfl
  case h_1 pos hq hpos =>
    have hp := h.resolve_left (fun hne => hne hq)
    have hlook := State.lookForWork_carry hf hq hp hpos
    have hbusy : ∀ id again, s.lookForWork = s.scannedTo id again → ((s.carryPass pos).sweptTest).lookForWork = s.lookForWork := by
      intro id again hscan
      rw [← hlook, hscan, State.sweptTest_work (.inr (.inl (by simp [State.scannedTo])))]
      rfl
    have hrest : s.passEnds s.lookForWork → ((s.carryPass pos).sweptTest).lookForWork = s.lookForWork.raise .swept := by
      rintro ⟨hrec, -⟩
      rw [← hlook, State.sweptTest_rest (by rw [hrec]; exact hq) (by rw [hrec]; exact hf) (by rw [hrec])]
      refine State.lookForWork_rest ?_ ?_ ?_ <;> rw [State.raise_recheck, hrec]
      · exact hf
      · exact hq
    cases hid : s.store.staleAbove? pos with
    | some id => exact .inl (hbusy id _ (hlook.trans (State.carryPass_found hid)))
    | none =>
      cases ha : s.recheck.again with
      | false =>
        have hends : s.passEnds s.lookForWork := by
          rw [hlook]
          exact State.carryPass_ends hq hf hid ha
        exact .inr ⟨hends, hrest hends⟩
      | true =>
        have hlook' := hlook.trans (State.carryPass_again hid ha)
        cases hid0 : s.store.staleAbove? 0 with
        | some id => exact .inl (hbusy id _ (hlook'.trans (State.beginPass_found hid0)))
        | none =>
          have hends : s.passEnds s.lookForWork := by
            rw [hlook']
            exact State.beginPass_ends hq hf hid0
          exact .inr ⟨hends, hrest hends⟩

theorem State.raisesOnly_trans {s t u : State} {ks ks' : List EventKind} (h : s.raisesOnly t ks) (h' : t.raisesOnly u ks') :
    s.raisesOnly u (ks ++ ks') := by
  intro q k hk
  rw [List.mem_append, not_or] at hk
  exact (h' q k hk.2).trans (h q k hk.1)

theorem State.raisesOnly_mono {s t : State} {ks ks' : List EventKind} (h : s.raisesOnly t ks) (hsub : ∀ k ∈ ks, k ∈ ks') :
    s.raisesOnly t ks' := fun q k hk => h q k (mt (hsub k) hk)

theorem State.keepsMachine.raises {s t : State} {ks : List EventKind} (h : s.keepsMachine t ks) : s.raisesOnly t ks := by
  obtain ⟨-, -, -, -, -, -, -, -, -, hev⟩ := h
  exact hev

theorem State.passEnds_raise {s t : State} (h : s.passEnds t) (e : EventKind) : s.passEnds (t.raise e) := by
  obtain ⟨h1, h2, h3⟩ := h
  exact ⟨h1, fun q => State.mem_raise.mpr (.inr (h2 q)), fun hb q => State.mem_raise.mpr (.inr (h3 hb q))⟩

/-- What the unit is at after a check: by the queue, the scan and the pass as they stand (R88, R90, R91). -/
theorem State.worksOn {v t : State} {o : Origin} (hf : v.recheck.inFlight = none) (ht : t = ((v.carryAfter o).sweptTest).lookForWork) :
    let scans := fun (id : Nat) (again : Bool) => t.recheck = (v.scannedTo id again).recheck ∧ v.raisesOnly t []
    (∀ id rest, v.recheck.queue = id :: rest → t.recheck = { v.recheck with
        queue := rest, inFlight := some (freshCheck id .queue), backlog := v.recheck.backlogAt rest.length v.recheck.scanPending }
      ∧ v.raisesOnly t [.backlog]
      ∧ ∀ q : Port, .backlog ∈ (t.port q).events ↔ .backlog ∈ (v.port q).events ∨ t.recheck.backlog ≠ v.recheck.backlog)
    ∧ (v.recheck.queue = [] → v.recheck.scanPending = false → o = .queue ∨ v.recheck.scanPos = none →
      t.recheck = v.recheck ∧ ∀ q : Port, .swept ∈ (t.port q).events)
    ∧ (v.recheck.queue = [] → v.recheck.scanPending = true →
      (v.recheck.scanPos = none →
        (∀ id, v.store.staleAbove? 0 = some id → scans id false) ∧ (v.store.staleAbove? 0 = none → v.passEnds t))
      ∧ (∀ pos, v.recheck.scanPos = some pos →
        (∀ id, v.store.staleAbove? pos = some id → scans id v.recheck.again)
        ∧ (v.store.staleAbove? pos = none → v.recheck.again = false → v.passEnds t)
        ∧ (v.store.staleAbove? pos = none → v.recheck.again = true →
          (∀ id, v.store.staleAbove? 0 = some id → scans id false) ∧ (v.store.staleAbove? 0 = none → v.passEnds t)))) := by
  intro scans
  have hpass : v.recheck.queue = [] → v.recheck.scanPending = true → v.passEnds v.lookForWork → v.passEnds t := by
    intro _ hp h
    rcases State.carryAfter_look hf o (.inr hp) with heq | ⟨-, heq⟩
    · rw [ht, heq]
      exact h
    · rw [ht, heq]
      exact State.passEnds_raise h _
  have hscan : v.recheck.scanPending = true → ∀ id again, v.lookForWork = v.scannedTo id again → scans id again := by
    intro hp id again h
    have heq : t = v.scannedTo id again := by
      rcases State.carryAfter_look hf o (.inr hp) with heq | ⟨⟨hrec, -⟩, -⟩
      · rw [ht, heq, h]
      · rw [h] at hrec
        exact (nomatch (congrArg Recheck.scanPos hrec))
    show t.recheck = _ ∧ v.raisesOnly t []
    rw [heq]
    exact ⟨rfl, fun q k _ => by cases q <;> exact .rfl⟩
  refine ⟨fun id rest hq => ?_, fun hq hp hor => ?_, fun hq hp => ⟨fun hpos => ⟨fun id hid => ?_, fun hid => ?_⟩, fun pos hpos =>
    ⟨fun id hid => ?_, fun hid ha => ?_, fun hid ha => ⟨fun id hid0 => ?_, fun hid0 => ?_⟩⟩⟩⟩
  · have hcarry : v.carryAfter o = v := by
      unfold State.carryAfter
      split
      · rename_i heq _
        exact (nomatch heq.symm.trans hq)
      · rfl
    have heq : t = v.lookForWork := by
      rw [ht, hcarry, State.sweptTest_work (.inl (by rw [hq]; exact List.cons_ne_nil _ _))]
    obtain ⟨h1, h2⟩ := State.lookForWork_takes hf hq
    have hunit := v.unitOnly_takes id rest
    rw [← State.lookForWork_queue hf hq] at hunit
    rw [heq]
    exact ⟨h1, (State.keepsMachine_unitOnly hunit).1.raises, h2⟩
  · have hcarry : v.carryAfter o = v := by
      unfold State.carryAfter
      split
      · rename_i hpos
        exact absurd hor (by simp [hpos])
      · rfl
    have heq : t = v.raise .swept := by
      rw [ht, hcarry, State.sweptTest_rest hq hf hp]
      exact State.lookForWork_rest (s := v.raise .swept) hf hq hp
    rw [heq]
    exact ⟨rfl, fun q => State.mem_raise.mpr (.inl rfl)⟩
  · exact hscan hp id false ((State.lookForWork_begin hf hq hp hpos).trans (State.beginPass_found hid))
  · refine hpass hq hp ?_
    rw [State.lookForWork_begin hf hq hp hpos]
    exact State.beginPass_ends hq hf hid
  · exact hscan hp id _ ((State.lookForWork_carry hf hq hp hpos).trans (State.carryPass_found hid))
  · refine hpass hq hp ?_
    rw [State.lookForWork_carry hf hq hp hpos]
    exact State.carryPass_ends hq hf hid ha
  · exact hscan hp id false ((State.lookForWork_carry hf hq hp hpos).trans ((State.carryPass_again hid ha).trans (State.beginPass_found hid0)))
  · refine hpass hq hp ?_
    rw [State.lookForWork_carry hf hq hp hpos, State.carryPass_again hid ha]
    exact State.beginPass_ends hq hf hid0

/-- Settles O39: the result is written, and the unit then finds what it would have found by looking for work. -/
theorem recheckCompletionWritesTheResult : Obligations.RecheckCompletionWritesTheResult := by
  intro f s hs hf
  obtain ⟨hwmach, hwrec, hwrun, hwst, hwset⟩ := s.checkWritten_keeps f
  set v := (s.checkWritten f).updRecheck (fun r => { r with inFlight := none }) with hv
  have hvrec : v.recheck = { s.recheck with inFlight := none } := by
    show { (s.checkWritten f).recheck with inFlight := none } = _
    rw [hwrec]
  have hvf : v.recheck.inFlight = none := rfl
  have hsv : s.keepsMachine v [.conflict] := State.keepsMachine_trans hwmach
    (State.keepsMachine_mono (State.keepsMachine_unitOnly (State.unitOnly_updRecheck _ _ [])).1 (by simp))
  have hexec : exec .recheckCompletion s = .next (s.finishRecheck f) := by
    show Host.Outcome.next _ = _
    rw [if_pos hs, hf]
  have ht : s.finishRecheck f = ((v.carryAfter f.origin).sweptTest).lookForWork := s.finishRecheck_eq f
  set t := s.finishRecheck f with htdef
  have hunit : v.unitOnly t [.backlog, .swept] := by
    rw [ht]
    exact State.unitOnly_trans (State.unitOnly_trans (v.unitOnly_carryAfter _) (State.unitOnly_sweptTest _ (by simp)))
      (State.unitOnly_lookForWork _)
  obtain ⟨hvmach, hvstore, hvrun⟩ := State.keepsMachine_unitOnly hunit
  have hevs : ∀ q : Port, ∀ k, k ∈ (v.port q).events → k ∈ (t.port q).events := by
    obtain ⟨-, -, -, h⟩ := State.unitWorks_trans (State.unitWorks_trans (State.unitWorks_carryAfter v f.origin) (State.unitWorks_sweptTest _))
      (State.unitWorks_lookForWork _)
    rw [ht]
    exact h
  have hstale : ∀ pos, t.store.staleAbove? pos = v.store.staleAbove? pos := fun pos => by rw [hvstore]
  have hscans : ∀ {id : Nat} {again : Bool}, t.recheck = (v.scannedTo id again).recheck ∧ v.raisesOnly t [] →
      t.recheck = { s.recheck with scanPos := some id, again := again, inFlight := some (freshCheck id .scan) } ∧ s.raisesOnly t [.conflict] := by
    rintro id again ⟨h1, h2⟩
    refine ⟨h1.trans ?_, State.raisesOnly_trans hsv.raises h2⟩
    rw [State.scannedTo, hvrec]
  have hends : v.passEnds t → t.recheck = { s.recheck with
        scanPending := false, scanPos := none, again := false, backlog := false, inFlight := none }
      ∧ (∀ q : Port, .swept ∈ (t.port q).events) ∧ (s.recheck.backlog = true → ∀ q : Port, .backlog ∈ (t.port q).events) := by
    rintro ⟨h1, h2, h3⟩
    rw [hvrec] at h1 h3
    exact ⟨h1, h2, h3⟩
  obtain ⟨w1, w2, w3⟩ := State.worksOn hvf ht
  simp only [hvrec] at w1 w2 w3
  refine ⟨t, hexec, State.keepsMachine_trans (State.keepsMachine_mono hsv (by simp)) (State.keepsMachine_mono hvmach (by simp)),
    hvrun.trans hwrun, (congrArg Store.stations hvstore).trans hwst, (congrArg Store.settings hvstore).trans hwset, fun hd => ?_,
    fun hd l hl => ⟨fun hpass => ?_, fun x hx => ?_⟩, fun id rest hq => ?_, w2, fun hq hp => ⟨fun hpos => ⟨fun id hid => ?_, fun hid => ?_⟩,
    fun pos hpos => ⟨fun id hid => ?_, fun hid ha => ?_, fun hid ha => ⟨fun id hid0 => ?_, fun hid0 => ?_⟩⟩⟩⟩
  · have hw : s.checkWritten f = s := if_pos hd
    refine ⟨?_, ?_⟩
    · rw [hvstore, hv, hw]
      rfl
    · refine State.raisesOnly_mono (ks := [] ++ [.backlog, .swept]) (State.raisesOnly_trans (t := v) ?_ hvmach.raises) (by simp)
      intro q k _
      rw [hv, hw]
      cases q <;> exact .rfl
  · have hw : s.checkWritten f = s.updLine f.id (fun l => { l with status := .checked }) := by
      rw [State.checkWritten_of hd hl, hpass]
      rfl
    refine ⟨State.raisesOnly_mono (ks := [] ++ [.backlog, .swept]) (State.raisesOnly_trans (t := v) ?_ hvmach.raises) (by simp), ?_⟩
    · intro q k _
      rw [hv, hw]
      cases q <;> exact .rfl
    · rw [hvstore, hv, hw]
      rfl
  · have hw : s.checkWritten f = (s.updLine f.id (fun l => { l with status := .conflict x })).raise .conflict := by
      rw [State.checkWritten_of hd hl, hx]
      rfl
    refine ⟨?_, fun q => hevs q _ ?_⟩
    · rw [hvstore, hv, hw]
      rfl
    · have h : (.conflict : EventKind) ∈ ((s.checkWritten f).port q).events := by
        rw [hw]
        exact State.mem_raise.mpr (.inl rfl)
      cases q <;> exact h
  · obtain ⟨h1, h2, h3⟩ := w1 id rest hq
    refine ⟨h1, State.raisesOnly_trans hsv.raises h2, fun q => (h3 q).trans (or_congr_left (hsv.raises q .backlog (by simp)))⟩
  · exact hscans ((((w3 hq hp).1 hpos).1 id ((hstale 0).symm.trans hid)))
  · exact hends (((w3 hq hp).1 hpos).2 ((hstale 0).symm.trans hid))
  · exact hscans ((((w3 hq hp).2 pos hpos).1 id ((hstale pos).symm.trans hid)))
  · exact hends (((w3 hq hp).2 pos hpos).2.1 ((hstale pos).symm.trans hid) ha)
  · exact hscans (((((w3 hq hp).2 pos hpos).2.2 ((hstale pos).symm.trans hid) ha).1 id ((hstale 0).symm.trans hid0)))
  · exact hends ((((w3 hq hp).2 pos hpos).2.2 ((hstale pos).symm.trans hid) ha).2 ((hstale 0).symm.trans hid0))

end Sys2Proof.Machine
end

section
/-! PROOF. RETIRE and RECHECK (04, 4.5; 05), and the commit refused at completion (04, 4.4). -/
namespace Sys2Proof.Machine

/-! ## RETIRE (R80) -/

theorem exec_retire_ready {p : Port} {id : Nat} {s : State} (h : s.ready p (.retire p [])) (hc : (s.port p).claim = some id) :
    exec (.retire p []) s = .next (match s.retireRefusal? id with
      | some r => s.answered p (.retire p []) (noReply r)
      | none => (((s.taken p (.retire p [])).retireLine id).emptyClaim p).ok p) := by
  have hline : (s.taken p (.retire p [])).retireRefusal? id = s.retireRefusal? id := by
    simp only [State.retireRefusal?, taken_line?, State.taken_store]
  show Host.Outcome.next _ = _
  rw [takeLine_ready _ h, State.withNone_nil, State.withClaim_of_some _ ((State.taken_claim ..).trans hc), hline]
  simp only [taken_no] <;> rfl

theorem Store.children_isEmpty {st : Store} {id : Nat} : (st.children id).isEmpty = true ↔ ∀ k ∈ st.lines, k.parent? ≠ some id := by
  simp [Store.children, List.isEmpty_iff, List.filter_eq_nil_iff]

theorem Line.isActive_iff_kind {l : Line} : l.isActive = true ↔ l.lifecycle.kind = .active := beq_iff_eq

/-- The record is gone, before the unit and the last drop follow. -/
def State.recordRemoved (s : State) (id : Nat) : State :=
  (s.proceedChecks.reach (.parent id)).setLines (s.store.lines.filter (fun l => l.id != id))

theorem State.retireLine_eq (s : State) (id : Nat) : s.retireLine id
    = (((s.recordRemoved id).unqueue id).discardCheck id).updRunUnit (fun u => { u with lastDrop := forgetDrop id u.lastDrop }) := rfl

theorem State.unitOnly_discardCheck (s : State) (id : Nat) (ks : List EventKind) : s.unitOnly (s.discardCheck id) ks :=
  State.unitOnly_updRecheck s _ ks

theorem State.unitOnly_commit {s t : State} {ks : List EventKind} (h : s.unitOnly t ks) (q : Port) : (t.port q).commit = (s.port q).commit := by
  obtain ⟨r, e, e', rfl, -⟩ := h
  cases q <;> rfl

/-- What a retirement leaves (R80, R85, R87). -/
theorem State.retireLine_spec (s : State) (id : Nat) :
    let t := s.retireLine id
    s.keepsMachine t [.backlog] ∧ t.store = { s.store with lines := s.store.lines.filter (fun l => l.id != id) }
      ∧ t.recheck.queue = s.recheck.queue.filter (fun k => k != id) ∧ (∀ f ∈ t.recheck.inFlight, f.id = id → f.discard = true)
      ∧ t.run.lastDrop = forgetDrop id s.run.lastDrop ∧ s.proceedChecks.reaches t (.parent id) := by
  intro t
  have hunit : (s.recordRemoved id).unitOnly (((s.recordRemoved id).unqueue id).discardCheck id) [.backlog] :=
    State.unitOnly_trans (State.unitOnly_unqueue _ id) (State.unitOnly_discardCheck _ id _)
  obtain ⟨hmach, hstore, hrun⟩ := State.keepsMachine_unitOnly hunit
  obtain ⟨hreach, hreachq, hreachm⟩ := s.proceedChecks.reach_keeps (.parent id)
  have hbase : s.keepsMachine (s.recordRemoved id) [.backlog] :=
    State.keepsMachine_mono (State.keepsMachine_trans (State.keepsMachine_trans s.proceedChecks_keeps.2 hreachm) (State.setLines_keeps _ _))
      (by simp)
  refine ⟨?_, hstore.trans rfl, ?_, ?_, ?_, ?_⟩
  · obtain ⟨k1, k2, k3, k4, k5, k6, k7, k8, k9, k10⟩ := State.keepsMachine_trans hbase hmach
    refine ⟨k1, k2, k3, k4, k5, k6, k7, ?_, k9, k10⟩
    show ({ (((s.recordRemoved id).unqueue id).discardCheck id).run with
      lastDrop := forgetDrop id (((s.recordRemoved id).unqueue id).discardCheck id).run.lastDrop } : RunUnit) = _
    rw [k8]
    rfl
  · show (((s.recordRemoved id).unqueue id).discardCheck id).recheck.queue = _
    refine (State.unqueue_queue _ id).trans ?_
    show (s.proceedChecks.recheck.queue).filter _ = _
    rw [s.proceedChecks_queue.1]
  · intro f hf hid
    obtain ⟨g, hg, hfg⟩ := Option.map_eq_some_iff.mp (show (((s.recordRemoved id).unqueue id).recheck.inFlight.map
      (fun f => if f.id = id then { f with discard := true } else f)) = some f from hf)
    split at hfg
    · rw [← hfg]
    · rename_i hne
      rw [← hfg] at hid
      exact absurd hid hne
  · show forgetDrop id (((s.recordRemoved id).unqueue id).discardCheck id).run.lastDrop = _
    rw [hrun]
    rfl
  · intro q k hk
    obtain ⟨k', hk', h⟩ := s.proceedChecks.reach_reaches (.parent id) q k hk
    refine ⟨k', ?_, h⟩
    have hcommit : (t.port q).commit = ((((s.recordRemoved id).unqueue id).discardCheck id).port q).commit := by cases q <;> rfl
    rw [hcommit, State.unitOnly_commit hunit]
    cases q <;> exact hk'

theorem forgetDrop_spec (id : Nat) (d : Option LastDrop) : (∀ x ∈ forgetDrop id d, x.id ≠ id)
    ∧ (∀ x ∈ d, x.id ≠ id → forgetDrop id d = some x) ∧ (d = none → forgetDrop id d = none) := by
  cases d with
  | none => exact ⟨fun x hx => (nomatch hx), fun x hx => (nomatch hx), fun _ => rfl⟩
  | some d =>
    have heq : forgetDrop id (some d) = if d.id = id then none else some d := rfl
    rw [heq]
    split
    · rename_i h
      refine ⟨fun x hx => (nomatch hx), fun x hx hne => ?_, fun h => (nomatch h)⟩
      cases hx
      exact absurd h hne
    · rename_i h
      refine ⟨fun x hx => ?_, fun x hx _ => ?_, fun h => (nomatch h)⟩
      · cases hx
        exact h
      · cases hx
        rfl

theorem State.keepsMachine_emptyClaim {s t : State} {ks : List EventKind} (h : s.keepsMachine t ks) (p : Port) :
    (s.emptyClaim p).keepsMachine (t.emptyClaim p) ks := by
  obtain ⟨k1, k2, k3, k4, k5, k6, k7, k8, k9, k10⟩ := h
  obtain ⟨a1, a2, a3, a4, a5, a6, a7, a8⟩ := k9 .cab
  obtain ⟨b1, b2, b3, b4, b5, b6, b7, b8⟩ := k9 .plan
  cases p with
  | cab =>
    refine ⟨k1, k2, k3, k4, k5, k6, k7, k8, fun q => ?_, fun q k hk => ?_⟩
    · cases q
      · exact ⟨a1, a2, a3, rfl, rfl, rfl, a7, a8⟩
      · exact ⟨b1, b2, b3, b4, b5, b6, b7, b8⟩
    · cases q
      · exact k10 .cab k hk
      · exact k10 .plan k hk
  | plan =>
    refine ⟨k1, k2, k3, k4, k5, k6, k7, k8, fun q => ?_, fun q k hk => ?_⟩
    · cases q
      · exact ⟨a1, a2, a3, a4, a5, a6, a7, a8⟩
      · exact ⟨b1, b2, b3, rfl, rfl, rfl, b7, b8⟩
    · cases q
      · exact k10 .cab k hk
      · exact k10 .plan k hk

theorem State.emptyClaim_ok_fields (s : State) (p : Port) (q : Port) : ((s.emptyClaim p).ok p).store = s.store
    ∧ ((s.emptyClaim p).ok p).recheck = s.recheck ∧ ((s.emptyClaim p).ok p).run = s.run
    ∧ (((s.emptyClaim p).ok p).port q).commit = (s.port q).commit := by
  cases p <;> cases q <;> exact ⟨rfl, rfl, rfl, rfl⟩

/-- Settles O36: the tests of R80 in their order, and then the removal. -/
theorem retireRemovesTheLine : Obligations.RetireRemovesTheLine := by
  intro p id s h hc
  have hexec := exec_retire_ready h hc
  refine ⟨fun hl => ?_, fun l hl => ⟨fun hact => ?_, fun hact hch => ?_, fun hact hch => ?_⟩⟩
  · rw [hexec]
    simp only [State.retireRefusal?, hl]
  · rw [hexec]
    simp only [State.retireRefusal?, hl, Line.isActive_iff_kind.mpr hact, if_true]
  all_goals have hna : ¬l.isActive = true := mt Line.isActive_iff_kind.mp hact
  · have hne : ¬(s.store.children id).isEmpty = true := by
      rw [Store.children_isEmpty]
      obtain ⟨k, hk, hp⟩ := hch
      exact fun hall => hall k hk hp
    rw [hexec]
    simp only [State.retireRefusal?, hl, if_neg hna, if_neg hne]
  · have hpass : s.retireRefusal? id = none := by
      simp only [State.retireRefusal?, hl, if_neg hna, Store.children_isEmpty.mpr hch, if_true]
    rw [hpass] at hexec
    obtain ⟨hmach, hstore, hqueue, hflight, hdrop, hreach⟩ := (s.taken p (.retire p [])).retireLine_spec id
    set u := (s.taken p (.retire p [])).retireLine id with hu
    obtain ⟨d1, d2, d3⟩ := forgetDrop_spec id s.run.lastDrop
    have hfields := fun q => u.emptyClaim_ok_fields p q
    obtain ⟨f1, f2, f3, -⟩ := hfields .cab
    have hlines : ((u.emptyClaim p).ok p).store.lines = s.store.lines.filter (fun l => l.id != id) := by
      rw [f1, hstore, State.taken_store]
    rw [State.taken_run] at hdrop
    rw [State.taken_recheck] at hqueue
    refine ⟨_, hexec, ?_, ?_, fun k hk => ?_, ?_, ?_, ?_, fun k hk => ?_, ?_, ?_, ?_, ?_, ?_⟩
    · have hk := State.keepsMachine_reply (State.keepsMachine_emptyClaim hmach p) p okReply
      have heq := taken_emptyClaim_ok s p (.retire p []) []
      rw [State.ok] at heq
      rw [show okReply = Reply.ok [] from rfl, heq] at hk
      exact hk
    · show List.find? _ ((u.emptyClaim p).ok p).store.lines = none
      rw [hlines, List.find?_filter]
      refine List.find?_eq_none.mpr (fun l _ => ?_)
      simp
    · show List.find? _ ((u.emptyClaim p).ok p).store.lines = _
      rw [hlines, List.find?_filter]
      refine congrArg (List.find? · s.store.lines) (funext fun l => ?_)
      rw [Bool.eq_iff_iff, decide_eq_true_iff, beq_iff_eq, bne_iff_ne]
      exact ⟨fun hl => hl.2, fun hl => ⟨fun hid => hk (hl.symm.trans hid), hl⟩⟩
    · rw [f1, hstore, State.taken_store]
    · show ((u.emptyClaim p).ok p).store.settings = _
      rw [f1, hstore, State.taken_store]
      rfl
    · rw [f2, hqueue]
      simp
    · rw [f2, hqueue, List.mem_filter]
      simp [hk]
    · rw [f2]
      exact hflight
    · rw [f3, hdrop]
      exact d1
    · rw [f3, hdrop]
      exact d2
    · rw [f3, hdrop]
      exact d3
    · refine State.reaches_congr (u := (s.taken p (.retire p [])).proceedChecks) ?_
        (fun q => State.taken_proceedChecks_ports s p (.retire p []) q) (t := (u.emptyClaim p).ok p) (fun q k hk => ?_)
      · show (s.taken p (.retire p [])).store.lines = _
        rw [State.taken_store]
      · obtain ⟨k', hk', hr⟩ := hreach q k hk
        exact ⟨k', (hfields q).2.2.2.trans hk', hr⟩

/-! ## RECHECK (R81) -/

theorem exec_recheck_ready {p : Port} {w : Text} {id : Nat} {s : State} (h : s.ready p (.recheck p [w])) (hw : number? w = some (id : Int))
    (h1 : 1 ≤ id) (h2 : id ≤ 999) :
    exec (.recheck p [w]) s = .next (match s.line? id with
      | none => s.answered p (.recheck p [w]) (noReply .noline)
      | some l => if l.takesMarks then ((s.taken p (.recheck p [w])).markingChange (.line id)).ok p
        else s.answered p (.recheck p [w]) (noReply .state)) := by
  show Host.Outcome.next _ = _
  rw [takeLine_ready _ h, State.withId_of hw (by omega) (by omega)]
  simp only [Int.toNat_natCast, State.recheckId, taken_line?, taken_no] <;> rfl

/-- The line a RECHECK names, and the line whose draft in flight it names, are the line itself. -/
theorem State.marksLine_line (s : State) (id : Nat) : s.marksLine (.line id) = fun k => k.id == id := by
  have hdraft : ∀ (q : PortState) (k : Line), (q.draftHit (.line id) == some k.id) = true → k.id = id := by
    intro q k hk
    unfold PortState.draftHit at hk
    split at hk
    · rename_i cl d _ _ _
      have hhit : Change.hitsDraft (.line id) cl d = (cl == id) := rfl
      rw [hhit] at hk
      by_cases hcl : cl = id
      · subst hcl
        simp at hk
        exact hk.symm
      · simp [hcl] at hk
    · simp at hk
  funext k
  rw [Bool.eq_iff_iff]
  simp only [State.marksLine, Bool.or_eq_true, or_assoc]
  constructor
  · rintro (h | h | h)
    · exact h
    · exact beq_iff_eq.mpr (hdraft _ _ h)
    · exact beq_iff_eq.mpr (hdraft _ _ h)
  · exact .inl

theorem Recheck.takeMark_scan (r : Recheck) (id : Nat) : (r.takeMark id).scanPos = r.scanPos ∧ (r.takeMark id).inFlight = r.inFlight := by
  unfold Recheck.takeMark
  split
  · exact ⟨rfl, rfl⟩
  · split <;> exact ⟨rfl, rfl⟩

theorem State.applyMark_scanPos (s : State) (id : Nat) : (s.applyMark id).recheck.scanPos = s.recheck.scanPos := by
  unfold State.applyMark
  rw [State.evalBacklog_recheck]
  exact (s.recheck.takeMark_scan id).1

/-- Marks of one id, once or more, on the unit: the pass stands where it was, and the check in flight is discarded if it is of the id. -/
theorem State.marks_same_id {ids : List Nat} {id : Nat} (hall : ∀ k ∈ ids, k = id) (hne : ids ≠ []) (s : State) :
    (ids.foldl State.applyMark s).recheck.scanPos = s.recheck.scanPos
      ∧ (ids.foldl State.applyMark s).recheck.inFlight = s.recheck.inFlight.map (fun f => if f.id = id then { f with discard := true } else f) := by
  induction ids generalizing s with
  | nil => exact absurd rfl hne
  | cons k ks ih =>
    have hk : k = id := hall k List.mem_cons_self
    subst hk
    rw [List.foldl_cons]
    by_cases hks : ks = []
    · subst hks
      exact ⟨s.applyMark_scanPos k, s.applyMark_inFlight k⟩
    · obtain ⟨h1, h2⟩ := ih (fun j hj => hall j (List.mem_cons_of_mem _ hj)) hks (s.applyMark k)
      refine ⟨h1.trans (s.applyMark_scanPos k), ?_⟩
      rw [h2, s.applyMark_inFlight k, Option.map_map]
      refine congrArg (fun g => Option.map g s.recheck.inFlight) (funext fun f => ?_)
      simp only [Function.comp_apply]
      split <;> rfl

/-- A pass still to begin is begun before the mark (log 17). -/
theorem State.markLines_begins {s : State} {id m : Nat} {l : Line} (hl : s.line? id = some l) (ht : l.takesMarks = true)
    (hf : s.recheck.inFlight = none) (hq : s.recheck.queue = []) (hp : s.recheck.scanPending = true) (hpos : s.recheck.scanPos = none)
    (hm : s.store.staleAbove? 0 = some m) :
    let t := s.markLines (fun k => k.id == id)
    t.recheck.scanPos = some m
      ∧ t.recheck.inFlight = some { id := m, discard := m == id, origin := .scan, check := { made := 0, failure := none } } := by
  intro t
  have hids : ∀ k ∈ markedIds s.store.lines (fun k => k.id == id), k = id := by
    intro k hk
    obtain ⟨x, hx, rfl⟩ := List.mem_map.mp hk
    have hx' := (List.mem_filter.mp hx).2
    rw [Line.takesMark, Bool.and_eq_true, beq_iff_eq] at hx'
    exact hx'.2
  have hne : markedIds s.store.lines (fun k => k.id == id) ≠ [] := by
    refine List.ne_nil_of_mem (a := l.id) (List.mem_map_of_mem (List.mem_filter.mpr ⟨State.line?_mem hl, ?_⟩))
    rw [Line.takesMark, ht, State.line?_id hl]
    exact beq_self_eq_true _
  have hbefore : s.beforeMarks (fun k => k.id == id) = s.scannedTo m false := by
    rw [State.beforeMarks, if_neg (by simpa using hne), State.firstWork, hf, hq, hp, hpos]
    exact State.beginPass_found hm
  obtain ⟨-, hrec, -, -⟩ := s.markBase_spec (fun k => k.id == id)
  obtain ⟨h1, h2⟩ := State.marks_same_id hids hne (s.markBase (fun k => k.id == id))
  rw [← State.markLines_eq, hrec, hbefore] at h1 h2
  refine ⟨h1, h2.trans ?_⟩
  show some (if m = id then { freshCheck m .scan with discard := true } else freshCheck m .scan) = _
  split
  · rename_i h
    rw [beq_iff_eq.mpr h]
    rfl
  · rename_i h
    rw [beq_eq_false_iff_ne.mpr h]
    rfl

/-- Settles O37: the line's lifecycle decides, and the mark is the marking change of the line. -/
theorem recheckMarksTheLine : Obligations.RecheckMarksTheLine := by
  intro p w id s h hw h1 h2
  have hexec := exec_recheck_ready h hw h1 h2
  refine ⟨fun hl => ?_, fun l hl => ⟨fun hk => ?_, fun hk => ?_⟩⟩
  · rw [hexec, hl]
  · have hno : ¬l.takesMarks = true := by
      rw [Line.takesMarks_iff]
      rcases hk with hk | hk <;> rw [hk] <;> simp
    rw [hexec, hl]
    simp only [if_neg hno]
  · have ht : l.takesMarks = true := Line.takesMarks_iff.mpr hk
    rw [hl] at hexec
    simp only [if_pos ht] at hexec
    obtain ⟨g1, g2, g3, g4, g5⟩ := State.markingChange_ok (s.isMarkBase_taken p (.recheck p [w]) (.line id))
    rw [State.marksLine_line] at g2
    refine ⟨_, hexec, g1, g2, g5, g3.trans (by rw [State.taken_store]), ?_, ?_⟩
    · rw [g4, State.taken_settings]
    · intro m hf hq hp hpos hm
      have hu : (s.taken p (.recheck p [w])).markingChange (.line id)
          = ((s.taken p (.recheck p [w])).reach (.line id)).markLines (fun k => k.id == id) := by
        rw [State.markingChange, State.marksLine_line]
      have hrec : ((s.taken p (.recheck p [w])).reach (.line id)).recheck = s.recheck := State.taken_recheck s p _
      have hstore : ((s.taken p (.recheck p [w])).reach (.line id)).store = s.store := State.taken_store s p _
      have hbegin := State.markLines_begins (s := (s.taken p (.recheck p [w])).reach (.line id)) (id := id) (m := m) (l := l)
        (by rw [State.line?, hstore]; exact hl) ht (by rw [hrec]; exact hf) (by rw [hrec]; exact hq) (by rw [hrec]; exact hp)
        (by rw [hrec]; exact hpos) (by rw [hstore]; exact hm)
      rw [← hu] at hbegin
      cases p <;> exact hbegin

/-! ## The commit refused at completion (R74) -/

theorem exec_commitCompletion {p : Port} {c : CommitRun} {id : Nat} {d : Draft} {s : State} (hs : s.running = true)
    (hc : (s.port p).commit = some c) (hclaim : (s.port p).claim = some id) (hd : (s.port p).draft = some d) :
    exec (.commitCompletion p) s = .next (s.completeCommit p c id d) := by
  show Host.Outcome.next _ = _
  rw [if_pos hs]
  simp only [hc, hclaim, hd]

theorem State.commitOver_reply (s : State) (p : Port) (r : Reply) :
    (s.updPort p (fun q => { q with commit := none })).reply p r = s.commitAnswered p r := by
  cases p <;> rfl

theorem State.completeCommit_refused {s : State} {p : Port} {c : CommitRun} {id : Nat} {d : Draft} {r : Reply}
    (hcheck : c.check.result s.store (d.subject id) = none) (hr : s.completionRefusal? c (d.subject id) d = some r) :
    s.completeCommit p c id d = s.commitAnswered p r := by
  simp only [State.completeCommit, hcheck, hr, State.commitOver_reply]

theorem State.completeCommit_failed {s : State} {p : Port} {c : CommitRun} {id : Nat} {d : Draft} {f : Failure}
    (hcheck : c.check.result s.store (d.subject id) = some f) :
    s.completeCommit p c id d = s.commitAnswered p (checkReply f) := by
  simp only [State.completeCommit, hcheck, State.commitOver_reply]

theorem frozenOut_iff {x : Store} {l : Option Line} {u : Subject} : frozenOut x l u = true
    ↔ ∃ k r st, l = some k ∧ k.lifecycle = .active r st ∧ meetsFreeze x k r.furthest u.points u.spans = false := by
  cases l with
  | none => simp [frozenOut]
  | some k => cases hk : k.lifecycle <;> simp [frozenOut, hk]

/-- Settles O32: the tests of R74 in their order. -/
theorem commitRefusedAtCompletion : Obligations.CommitRefusedAtCompletion := by
  intro p c id d s hs hc hclaim hd u l refused
  have hexec := exec_commitCompletion hs hc hclaim hd
  have hid : s.line? u.id = l := rfl
  refine ⟨fun f hf => ?_, fun hpass => ?_⟩
  · show exec _ s = _
    rw [hexec]
    exact congrArg Host.Outcome.next (State.completeCommit_failed hf)
  have hno : ∀ r, s.completionRefusal? c u d = some r → refused r := by
    intro r hr
    show exec _ s = _
    rw [hexec, State.completeCommit_refused hpass hr]
  have hstale : (l.any (fun k => d.base != some k.revision)) = true ↔ ∃ k, l = some k ∧ d.base ≠ some k.revision := by
    rw [any_line_iff]
    simp only [bne_iff_ne]
  have hfull : (l.isNone && decide (Config.maxLines ≤ s.store.lines.length)) = true ↔ l = none ∧ 40 ≤ s.store.lines.length := by
    rw [Bool.and_eq_true, Option.isNone_iff_eq_none, decide_eq_true_iff]
    rfl
  refine ⟨fun hk => hno _ ?_, fun hk => ⟨fun hb => hno _ ?_, fun hl hlen => hno _ ?_, fun hbase hlen => ⟨fun f hf => hno _ ?_,
    fun hf => ⟨fun k r st hl hlc hfr => hno _ ?_, fun hfr hpool => hno _ ?_⟩⟩⟩⟩
  all_goals unfold State.completionRefusal?
  all_goals dsimp only
  all_goals rw [hid]
  · rw [if_pos hk]
    rfl
  all_goals rw [if_neg (not_not.mpr hk)]
  · rw [if_pos (hstale.mpr hb)]
    rfl
  · have hns : ¬(l.any (fun k => d.base != some k.revision)) = true := by simp [hl]
    rw [if_neg hns, if_pos (hfull.mpr ⟨hl, hlen⟩)]
    rfl
  all_goals
    have hns : ¬(l.any (fun k => d.base != some k.revision)) = true := fun h => by
      obtain ⟨k, hl, hne⟩ := hstale.mp h
      exact hne (hbase k hl)
    have hnf : ¬(l.isNone && decide (Config.maxLines ≤ s.store.lines.length)) = true := fun h => by
      obtain ⟨hl, hge⟩ := hfull.mp h
      exact absurd (hlen hl) (by omega)
    rw [if_neg hns, if_neg hnf]
  · rw [show forestFailure s.store u = some f from hf]
    rfl
  all_goals rw [show forestFailure s.store u = none from hf]
  all_goals dsimp only
  · rw [if_pos (frozenOut_iff.mpr ⟨k, r, st, hl, hlc, hfr⟩)]
    rfl
  · have hin : ¬frozenOut s.store l u = true := fun h => by
      obtain ⟨k, r, st, hl, hlc, hfz⟩ := frozenOut_iff.mp h
      rw [hfr k r st hl hlc] at hfz
      exact absurd hfz (by simp)
    rw [if_neg hin, if_pos hpool]
    rfl

end Sys2Proof.Machine
end

section
/-! PROOF. The commits that are written (04, 4.4; R75 to R78). -/
namespace Sys2Proof.Machine

/-! ## A commit written -/

/-- The completion of a commit that passes its tests (R74). -/
theorem option_map_id_of {α : Type} {x : Option α} {f : α → α} (h : ∀ a, x = some a → f a = a) : x.map f = x := by
  cases x with
  | none => rfl
  | some a => exact congrArg some (h a rfl)

theorem exec_commitCompletion_written {p : Port} {c : CommitRun} {id : Nat} {d : Draft} {s : State} (hs : s.running = true)
    (h : s.Completes p c id d) :
    exec (.commitCompletion p) s = .next (((s.commitOver p).writeCommit id d c.reached).commitDone p c.reached) := by
  rw [exec_commitCompletion hs h.commit h.claim h.draft]
  simp only [State.completeCommit, h.check, h.pass, State.commitOver]

theorem State.commitOver_commitDone (s : State) (p : Port) (b : Bool) : (s.commitOver p).commitDone p b = s.commitWritten p b := by
  cases p <;> rfl

theorem State.commitOver_commit (s : State) (p : Port) : ((s.commitOver p).port p).commit = none := by
  cases p <;> rfl

theorem State.commitOver_other (s : State) (p : Port) : (s.commitOver p).port (otherPort p) = s.port (otherPort p) := by
  cases p <;> rfl

theorem State.commitOver_recheck (s : State) (p : Port) : (s.commitOver p).recheck = s.recheck := by
  cases p <;> rfl

theorem State.commitOver_events (s : State) (p q : Port) : ((s.commitOver p).port q).events = (s.port q).events := by
  cases p <;> cases q <;> rfl

theorem State.commitDone_commit (s : State) (p q : Port) (b : Bool) : ((s.commitDone p b).port q).commit = (s.port q).commit := by
  cases p <;> cases q <;> rfl

theorem State.keepsMachine_commitWritten {s w : State} {p : Port} {ks : List EventKind} (h : (s.commitOver p).keepsMachine w ks)
    (b : Bool) : (s.commitWritten p b).keepsMachine (w.commitDone p b) ks := by
  rw [← s.commitOver_commitDone]
  exact State.keepsMachine_commitDone h p b

theorem State.commitDone_line? (s : State) (p : Port) (b : Bool) (k : Nat) : (s.commitDone p b).line? k = s.line? k := by
  rw [State.line?, (s.commitDone_store p b).1, State.line?]

/-- The forest tests keep a line from naming itself as parent (R56). -/
theorem parent_ne_of_forest {st : Store} {u : Subject} (h : forestFailure st u = none) : u.parent ≠ some u.id := by
  intro hp
  obtain ⟨-, h1, h2⟩ := forestFailure_none h
  obtain ⟨k, hk⟩ : ∃ k, st.line? u.id = some k := by
    unfold parentExistsTest at h1
    rw [hp] at h1
    dsimp only at h1
    split at h1
    · rename_i hs
      exact Option.isSome_iff_exists.mp hs
    · cases h1
  unfold cycleAndLevelTest at h2
  rw [hp] at h2
  dsimp only at h2
  rw [show Config.maxLevels = 2 + 1 from rfl, Store.chainUp_succ hk, if_pos (by simp)] at h2
  cases h2

theorem State.Completes.parent_ne {s : State} {p : Port} {c : CommitRun} {id : Nat} {d : Draft} (h : s.Completes p c id d) :
    d.parent ≠ some id := by
  obtain ⟨-, -, -, hforest, -, -⟩ := State.completionRefusal?_none h.pass
  exact parent_ne_of_forest hforest

/-! ## Which commits in flight a write reaches (R78) -/

theorem State.proceedChecks_ports (s : State) (q : Port) : (s.proceedChecks.port q).claim = (s.port q).claim
    ∧ (s.proceedChecks.port q).draft = (s.port q).draft
    ∧ (s.proceedChecks.port q).commit.map (fun k => k.reached) = (s.port q).commit.map (fun k => k.reached) := by
  have key : ∀ (x : PortState) (st : Store) (n : Nat), (x.proceed st n).claim = x.claim ∧ (x.proceed st n).draft = x.draft
      ∧ (x.proceed st n).commit.map (fun k => k.reached) = x.commit.map (fun k => k.reached) := by
    intro x st n
    obtain ⟨h, -, h2⟩ := PortState.proceed_eq x st n
    refine ⟨?_, ?_, h2⟩ <;> rw [h]
  cases q
  · exact key _ _ _
  · exact key _ _ _

/-- A change that reaches through one table as it does through another, for every commit in flight. -/
theorem State.reaches_of_lines {s u t : State} {c : Change}
    (hports : ∀ q : Port, (u.port q).claim = (s.port q).claim ∧ (u.port q).draft = (s.port q).draft
      ∧ (u.port q).commit.map (fun k => k.reached) = (s.port q).commit.map (fun k => k.reached))
    (hlines : ∀ (q : Port) (k : Nat), (s.port q).commit ≠ none → (s.port q).claim = some k →
      ((∃ l, u.store.line? k = some l ∧ c.hitsLine l = true) ↔ ∃ l, s.store.line? k = some l ∧ c.hitsLine l = true))
    (h : u.reaches t c) : s.reaches t c := by
  intro q k hk
  obtain ⟨e1, e2, e3⟩ := hports q
  rw [hk] at e3
  obtain ⟨k0, hk0, e4⟩ := Option.map_eq_some_iff.mp e3
  obtain ⟨k', hk', h'⟩ := h q k0 hk0
  have hby : (u.port q).reachedBy u.store c ↔ (s.port q).reachedBy s.store c := by
    unfold PortState.reachedBy
    simp only [e1, e2]
    refine exists_congr fun id => and_congr_right fun hid => or_congr_right (hlines q id ?_ hid)
    rw [hk]
    exact Option.some_ne_none k
  refine ⟨k', hk', h'.trans ?_⟩
  rw [e4, hby]

theorem State.reaches_commits {s t u : State} {c : Change} (h : s.reaches t c)
    (hc : ∀ q : Port, (u.port q).commit = (t.port q).commit) : s.reaches u c := by
  intro q k hk
  obtain ⟨k', hk', h'⟩ := h q k hk
  exact ⟨k', (hc q).trans hk', h'⟩

/-! ## A commit of a free id (R75) -/

theorem Draft.outlet_parent (d : Draft) : d.outlet.map (fun o => o.parent) = d.parent := by
  cases h : d.parent <;> simp [Draft.outlet, h]

/-- The table with the new line in it, the commits in flight told. -/
def State.lineCreated (s : State) (id : Nat) (d : Draft) : State :=
  (s.proceedChecks.setLines (insertLine (d.newLine id) s.store.lines)).reach (.parent id)

theorem State.writeCommit_new {s : State} {id : Nat} (h : s.line? id = none) (d : Draft) (reached : Bool) :
    s.writeCommit id d reached = if reached then (s.lineCreated id d).markLines (fun l => l.id == id) else s.lineCreated id d := by
  have h0 : s.proceedChecks.line? id = none := h
  simp only [State.writeCommit, h0]
  rfl

theorem State.lineCreated_spec (s : State) (id : Nat) (d : Draft) : s.keepsMachine (s.lineCreated id d) [] ∧ (s.lineCreated id d).run = s.run
    ∧ (s.lineCreated id d).store = { s.store with lines := insertLine (d.newLine id) s.store.lines }
    ∧ (s.lineCreated id d).recheck.queue = s.recheck.queue ∧ (s.lineCreated id d).recheck.scanPending = s.recheck.scanPending
    ∧ (s.lineCreated id d).recheck.backlog = s.recheck.backlog := by
  obtain ⟨r1, r2, r3⟩ := State.reach_keeps (s.proceedChecks.setLines (insertLine (d.newLine id) s.store.lines)) (.parent id)
  obtain ⟨q1, q2, q3⟩ := s.proceedChecks_queue
  refine ⟨State.keepsMachine_trans (State.keepsMachine_trans s.proceedChecks_keeps.2 (State.setLines_keeps _ _)) r3, rfl, r1, ?_, ?_, ?_⟩
  · exact (congrArg Recheck.queue r2).trans q1
  · exact (congrArg Recheck.scanPending r2).trans q2
  · exact (congrArg Recheck.backlog r2).trans q3

theorem State.lineCreated_line? {s : State} {id : Nat} (h : s.line? id = none) (d : Draft) (k : Nat) :
    (s.lineCreated id d).line? k = if k = id then some (d.newLine id) else s.line? k := by
  show (s.lineCreated id d).store.lines.find? _ = _
  rw [(s.lineCreated_spec id d).2.2.1]
  exact insertLine_find (d.newLine id) s.store.lines h k

theorem State.lineCreated_mem {s : State} {id : Nat} (h : s.line? id = none) (d : Draft) {l : Line}
    (hl : l ∈ (s.lineCreated id d).store.lines) (hid : l.id = id) : l = d.newLine id := by
  rw [(s.lineCreated_spec id d).2.2.1] at hl
  exact (mem_insertLine.mp hl).resolve_right (fun hm => Store.line?_eq_none.mp h l hm hid)

theorem State.lineCreated_reaches {s : State} {id : Nat} (h : s.line? id = none) {d : Draft} (hp : d.parent ≠ some id) :
    s.reaches (s.lineCreated id d) (.parent id) := by
  refine State.reaches_of_lines (fun q => s.proceedChecks_ports q) (fun q k _ _ => ?_)
    (u := s.proceedChecks.setLines (insertLine (d.newLine id) s.store.lines)) (State.reach_reaches _ (.parent id))
  have hk : (s.proceedChecks.setLines (insertLine (d.newLine id) s.store.lines)).store.line? k
      = if k = id then some (d.newLine id) else s.line? k := insertLine_find (d.newLine id) s.store.lines h k
  rw [hk]
  split
  · rename_i hkid
    have hs : s.store.line? k = none := hkid ▸ h
    have hnew : Change.hitsLine (.parent id) (d.newLine id) = false := by
      show ((d.newLine id).parent? == some id) = false
      rw [beq_eq_false_iff_ne]
      rw [show (d.newLine id).parent? = d.parent from Draft.outlet_parent d]
      exact hp
    simp [hs, hnew]
  · exact Iff.rfl

/-- The new line as a commit leaves it. -/
theorem Draft.newLine_setStaged (d : Draft) (id : Nat) : (d.newLine id).setStaged none = d.newLine id := rfl

theorem Draft.newLine_eq (d : Draft) (id : Nat) (st : CheckStatus) : { d.newLine id with status := st }
    = { id := id, label := d.label, outlet := d.parent.map (fun k => { parent := k, junction := d.junction.getD 0 }),
        lifecycle := .planned, status := st, revision := 0,
        profile := (present d.points).map (fun q => { point := q, closure := none }), spans := present d.spans } := rfl

/-- Settles O33: the write of the new line, and the mark of it where the commit was reached. -/
theorem commitCreatesTheLine : Obligations.CommitCreatesTheLine := by
  intro p c id d s hs hc hclaim hd hcheck hpass hl
  have hcomp : s.Completes p c id d := ⟨hc, hclaim, hd, hcheck, hpass⟩
  have hexec := exec_commitCompletion_written hs hcomp
  have hline : ∀ k, (s.commitOver p).line? k = s.line? k := fun k => by rw [State.line?, s.commitOver_store, State.line?]
  have hnone : (s.commitOver p).line? id = none := (hline id).trans hl
  rw [State.writeCommit_new hnone] at hexec
  obtain ⟨kmach, krun, kstore, kqueue, kscan, kback⟩ := (s.commitOver p).lineCreated_spec id d
  have kline := State.lineCreated_line? hnone d
  have kreach := State.lineCreated_reaches hnone hcomp.parent_ne
  refine ⟨_, hexec, ?_⟩
  cases hr : c.reached with
  | false =>
    rw [if_neg Bool.false_ne_true]
    obtain ⟨f1, f2, f3⟩ := ((s.commitOver p).lineCreated id d).commitDone_store p false
    refine ⟨State.keepsMachine_commitWritten (State.keepsMachine_mono kmach (by simp)) false, ?_, ?_, fun k hk => ?_, ?_, ?_, ?_,
      fun h => absurd h Bool.false_ne_true, fun _ => ⟨?_, ?_, ?_⟩⟩
    · rw [f3, krun, s.commitOver_run]
    · rw [State.commitDone_line?, kline, if_pos rfl]
      rfl
    · rw [State.commitDone_line?, kline, if_neg hk, hline]
    · rw [f1, kstore, s.commitOver_store]
    · show State.settings _ = _
      rw [State.settings, f1, kstore, s.commitOver_store]
      rfl
    · exact State.reaches_commits kreach (fun q => State.commitDone_commit _ p q false)
    · rw [f2, kqueue, s.commitOver_recheck]
    · rw [f2, kscan, s.commitOver_recheck]
    · rw [f2, kback, s.commitOver_recheck]
  | true =>
    rw [if_pos rfl]
    let w := (s.commitOver p).lineCreated id d
    have hmarked := State.markLines_marked w (fun l => l.id == id)
    obtain ⟨qrun, qmach⟩ := State.markLines_quiet w (fun l => l.id == id) (fun l hl _ hhit => by
      rw [State.lineCreated_mem hnone d hl (beq_iff_eq.mp hhit)]
      rfl)
    obtain ⟨hstations, hsettings⟩ := State.markLines_store w (fun l => l.id == id)
    obtain ⟨f1, f2, f3⟩ := (w.markLines (fun l => l.id == id)).commitDone_store p true
    refine ⟨State.keepsMachine_commitWritten (State.keepsMachine_trans (State.keepsMachine_mono kmach (by simp)) qmach) true,
      ?_, ?_, fun k hk => ?_, ?_, ?_, ?_, fun _ => ?_, fun h => absurd h.symm Bool.false_ne_true⟩
    · rw [f3, qrun, krun, s.commitOver_run]
    · rw [State.commitDone_line?, State.marked_line? hmarked, kline, if_pos rfl]
      simp only [Option.map_some]
      rw [if_pos (by simp [Draft.newLine, Line.takesMarks, Lifecycle.kind])]
      rfl
    · rw [State.commitDone_line?, State.marked_line? hmarked, kline, if_neg hk, hline]
      refine option_map_id_of fun l hl => ?_
      rw [if_neg]
      simp [State.line?_id hl, hk]
    · rw [f1, hstations, kstore, s.commitOver_store]
    · show State.settings _ = _
      rw [State.settings, f1, hsettings, kstore, s.commitOver_store]
      rfl
    · exact State.reaches_commits kreach (fun q => (State.commitDone_commit _ p q true).trans (State.markLines_commit w _ q))
    · rw [f2]
      refine (hmarked.2.1 (d.newLine id) ?_ rfl (beq_self_eq_true id)).1
      rw [kstore]
      exact mem_insertLine.mpr (.inl rfl)

/-! ## A commit of a PLANNED line (R76) -/

/-- The record replaced, the commits in flight told, the queue and the check in flight rid of the id. -/
def State.planReplaced (s : State) (id : Nat) (d : Draft) (reached : Bool) : State :=
  let s1 := (s.proceedChecks.updLine id d.replaced).reach (.parent id)
  (if reached then s1 else s1.unqueue id).discardCheck id

/-- The lines that such a commit marks. -/
def State.hitByPlan (s : State) (id : Nat) (reached : Bool) (l : Line) : Bool := s.marksLine (.parent id) l || (reached && l.id == id)

theorem State.writeCommit_planned {s : State} {id : Nat} {l : Line} (h : s.line? id = some l) (hl : l.lifecycle = .planned) (d : Draft)
    (reached : Bool) : s.writeCommit id d reached = (s.planReplaced id d reached).markLines (s.hitByPlan id reached) := by
  have h0 : s.proceedChecks.line? id = some l := h
  simp only [State.writeCommit, h0, hl, State.writePlanned, State.marksLine_proceedChecks, State.planReplaced]
  rfl

theorem State.planReplaced_spec (s : State) (id : Nat) (d : Draft) (reached : Bool) : let t := s.planReplaced id d reached
    s.keepsMachine t [.backlog] ∧ t.store = { s.store with lines := s.store.lines.map (fun k => if k.id = id then d.replaced k else k) }
      ∧ t.run = s.run ∧ (reached = false → id ∉ t.recheck.queue) ∧ (∀ f ∈ t.recheck.inFlight, f.id = id → f.discard = true)
      ∧ ∀ q : Port, (t.port q).commit = (((s.proceedChecks.updLine id d.replaced).reach (.parent id)).port q).commit := by
  intro t
  let s1 := (s.proceedChecks.updLine id d.replaced).reach (.parent id)
  obtain ⟨r1, -, r3⟩ := State.reach_keeps (s.proceedChecks.updLine id d.replaced) (.parent id)
  have hbase : s.keepsMachine s1 [] := State.keepsMachine_trans (State.keepsMachine_trans s.proceedChecks_keeps.2 (State.updLine_keeps _ _ _)) r3
  have hunqueue : s1.unitOnly (if reached then s1 else s1.unqueue id) [.backlog] := by
    split
    · exact State.unitOnly_refl _ _
    · exact State.unitOnly_unqueue _ id
  have hunit : s1.unitOnly t [.backlog] := State.unitOnly_trans hunqueue (State.unitOnly_discardCheck _ id _)
  obtain ⟨u1, u2, u3⟩ := State.keepsMachine_unitOnly hunit
  refine ⟨State.keepsMachine_trans (State.keepsMachine_mono hbase (by simp)) u1, u2.trans r1, u3, fun hr => ?_, fun f hf hid => ?_,
    State.unitOnly_commit hunit⟩
  · show id ∉ (if reached = true then s1 else s1.unqueue id).recheck.queue
    rw [if_neg (by simp [hr]), State.unqueue_queue]
    simp
  · obtain ⟨g, -, hfg⟩ := Option.map_eq_some_iff.mp (show ((if reached = true then s1 else s1.unqueue id).recheck.inFlight.map
      (fun f => if f.id = id then { f with discard := true } else f)) = some f from hf)
    split at hfg
    · rw [← hfg]
    · rename_i hne
      rw [← hfg] at hid
      exact absurd hid hne

theorem Draft.replaced_parent (d : Draft) (l : Line) : (d.replaced l).parent? = d.parent := Draft.outlet_parent d

/-- The commit's write reaches the other commits in flight as the change of its line does. -/
theorem State.planReplaced_reaches {s : State} {id : Nat} {d : Draft}
    (hclaims : ∀ q : Port, (s.port q).commit ≠ none → (s.port q).claim ≠ some id) :
    s.reaches ((s.proceedChecks.updLine id d.replaced).reach (.parent id)) (.parent id) := by
  refine State.reaches_of_lines (u := s.proceedChecks.updLine id d.replaced) (fun q => s.proceedChecks_ports q) (fun q k hcommit hclaim => ?_)
    (State.reach_reaches _ (.parent id))
  have hk : k ≠ id := fun h => hclaims q hcommit (h ▸ hclaim)
  have hline : (s.proceedChecks.updLine id d.replaced).line? k = s.line? k :=
    (State.updLine_line? (fun l => d.replaced_id l) _ id k).trans (if_neg hk)
  rw [show (s.proceedChecks.updLine id d.replaced).store.line? k = s.store.line? k from hline]

/-- With no commit in flight that claims the id, only a line that names it as parent, or whose draft in flight does, is marked. -/
theorem State.marksLine_parent_self {s : State} {id : Nat} (hclaims : ∀ q : Port, (s.port q).commit ≠ none → (s.port q).claim ≠ some id)
    {l : Line} (hid : l.id = id) (hp : l.parent? ≠ some id) : s.marksLine (.parent id) l = false := by
  have hdraft : ∀ q : Port, ((s.port q).draftHit (.parent id) == some l.id) = false := by
    intro q
    rw [beq_eq_false_iff_ne]
    intro h
    unfold PortState.draftHit at h
    split at h
    · rename_i cl d hc hcl _
      split at h
      · cases h
        exact hclaims q (by rw [hc]; exact Option.some_ne_none _) (hcl.trans (congrArg some hid))
      · cases h
    · cases h
  have hline : Change.hitsLine (.parent id) l = false := beq_eq_false_iff_ne.mpr hp
  simp only [State.marksLine, hline, Bool.false_or, Bool.or_eq_false_iff]
  exact ⟨hdraft .cab, hdraft .plan⟩

theorem Line.setStaged_of_planned {l : Line} (h : l.lifecycle = .planned) (st : Option Staged) : l.setStaged st = l := by
  rw [Line.setStaged, h]

theorem Line.staged?_of_planned {l : Line} (h : l.lifecycle = .planned) : l.staged? = none := by
  rw [Line.staged?, h]

theorem Draft.replaced_takesMarks {d : Draft} {l : Line} (h : l.lifecycle = .planned) : (d.replaced l).takesMarks = true := by
  rw [Line.takesMarks_iff]
  exact .inl (congrArg Lifecycle.kind h)

/-- The record that has the id in a table whose ids ascend is the one that is found. -/
theorem State.eq_of_line? {s : State} (h : s.store.idsAscending) {id : Nat} {l k : Line} (hl : s.line? id = some l) (hk : k ∈ s.store.lines)
    (hid : k.id = id) : k = l :=
  Store.eq_of_id h hk (State.line?_mem hl) (hid.trans (State.line?_id hl).symm)

/-- The drop that the marks note is of a line other than the one replaced, which has no staged revision. -/
theorem State.notesDrop_replaced {s w t : State} {id : Nat} {l : Line} {d : Draft} {hit child : Line → Bool} (hasc : s.store.idsAscending)
    (hl : s.line? id = some l) (hplan : l.lifecycle = .planned)
    (hw : w.store = { s.store with lines := s.store.lines.map (fun k => if k.id = id then d.replaced k else k) })
    (hdrop : w.run.lastDrop = s.run.lastDrop) (hevents : ∀ p : Port, .dropped ∈ (w.port p).events ↔ .dropped ∈ (s.port p).events)
    (hother : ∀ k : Line, k.id ≠ id → hit k = child k) (hself : ∀ k : Line, k.id = id → child k = false) (h : w.notesDrop t hit) :
    s.notesDrop t child := by
  have hfind : w.store.lines.find? (fun k => k.takesMarks && hit k && k.staged?.isSome)
      = s.store.lines.find? (fun k => k.takesMarks && child k && k.staged?.isSome) := by
    rw [hw, List.find?_map]
    have hcongr : s.store.lines.find? ((fun k => k.takesMarks && hit k && k.staged?.isSome) ∘ fun k => if k.id = id then d.replaced k else k)
        = s.store.lines.find? (fun k => k.takesMarks && child k && k.staged?.isSome) := by
      refine List.find?_congr fun k hk => ?_
      rw [Function.comp_apply]
      split
      · rename_i hid
        have hkl : k = l := State.eq_of_line? hasc hl hk hid
        rw [Line.staged?_of_planned (l := d.replaced k) (by rw [hkl]; exact hplan), hself k hid]
        simp
      · rename_i hid
        rw [hother k hid]
    rw [hcongr]
    refine option_map_id_of fun k hk => if_neg fun hid => ?_
    have hpred := List.find?_some hk
    rw [hself k hid] at hpred
    simp at hpred
  obtain ⟨h1, h2⟩ := h
  rw [hfind] at h1 h2
  refine ⟨h1, fun hnone => ?_⟩
  obtain ⟨h3, h4⟩ := h2 hnone
  exact ⟨h3.trans hdrop, fun p => (h4 p).trans (hevents p)⟩

theorem State.notesDrop_commitDone {s t : State} {hit : Line → Bool} (h : s.notesDrop t hit) (p : Port) (b : Bool) :
    s.notesDrop (t.commitDone p b) hit := by
  obtain ⟨h1, h2⟩ := h
  have hrun := (t.commitDone_store p b).2.2
  refine ⟨fun l hl => ⟨?_, fun q => ?_⟩, fun hl => ⟨?_, fun q => ?_⟩⟩
  · rw [hrun]
    exact (h1 l hl).1
  · rw [State.commitDone_events]
    exact (h1 l hl).2 q
  · rw [hrun]
    exact (h2 hl).1
  · rw [State.commitDone_events]
    exact (h2 hl).2 q

/-- Settles O34: the record written, then the marks of the change of the line. -/
theorem commitReplacesAPlan : Obligations.CommitReplacesAPlan := by
  intro p c id d l s hs hc hclaim hd hcheck hpass hl hplan hother ended child
  have hcomp : s.Completes p c id d := ⟨hc, hclaim, hd, hcheck, hpass⟩
  have hexec : exec (.commitCompletion p) s = .next ((ended.writeCommit id d c.reached).commitDone p c.reached) :=
    exec_commitCompletion_written hs hcomp
  have hstore : ended.store = s.store := s.commitOver_store p
  have hline : ∀ k, ended.line? k = s.line? k := fun k => by
    rw [State.line?, State.line?, hstore]
  have hlines : ended.store.lines = s.store.lines := by rw [hstore]
  have hel : ended.line? id = some l := (hline id).trans hl
  rw [State.writeCommit_planned hel hplan] at hexec
  have hclaims : ∀ q : Port, (ended.port q).commit ≠ none → (ended.port q).claim ≠ some id := by
    intro q hq
    rcases State.port_other p q with rfl | rfl
    · exact absurd (s.commitOver_commit q) hq
    · rw [show ended.port (otherPort p) = s.port (otherPort p) from s.commitOver_other p]
      exact hother
  let w := ended.planReplaced id d c.reached
  let hit := ended.hitByPlan id c.reached
  obtain ⟨kmach, kstore, krun, kqueue, kflight, kcommit⟩ := ended.planReplaced_spec id d c.reached
  have hwlines : w.store.lines = s.store.lines.map (fun k => if k.id = id then d.replaced k else k) := by
    rw [kstore, ← hlines]
  have hwline : ∀ k, w.line? k = if k = id then (s.line? k).map d.replaced else s.line? k := by
    intro k
    rw [← hline k]
    refine Eq.trans ?_ (State.updLine_line? (fun l => d.replaced_id l) ended id k)
    rw [State.line?, kstore]
    rfl
  have hmarked := State.markLines_marked w hit
  obtain ⟨hstations, hsettings⟩ := State.markLines_store w hit
  obtain ⟨f1, f2, f3⟩ := (w.markLines hit).commitDone_store p c.reached
  have hitSelf : ∀ k : Line, hit (d.replaced k) = (c.reached && k.id == id) ∨ k.id ≠ id := by
    intro k
    by_cases hid : k.id = id
    · refine .inl ?_
      show (ended.marksLine (.parent id) (d.replaced k) || _) = _
      rw [State.marksLine_parent_self hclaims ((d.replaced_id k).trans hid) (by rw [d.replaced_parent]; exact hcomp.parent_ne),
        Bool.false_or, d.replaced_id]
    · exact .inr hid
  have hitOther : ∀ k : Line, k.id ≠ id → hit k = ended.marksLine (.parent id) k := by
    intro k hid
    show (_ || (c.reached && k.id == id)) = _
    rw [beq_eq_false_iff_ne.mpr hid, Bool.and_false, Bool.or_false]
  have hmem : d.replaced l ∈ w.store.lines := by
    rw [hwlines]
    exact List.mem_map.mpr ⟨l, State.line?_mem hl, if_pos (State.line?_id hl)⟩
  have hlid : l.id = id := State.line?_id hl
  have hitLine : hit (d.replaced l) = c.reached := by
    rw [(hitSelf l).resolve_right (not_not.mpr hlid), beq_iff_eq.mpr hlid, Bool.and_true]
  refine ⟨_, hexec, ?_, ?_, fun k m hk hm => ?_, fun k hk hm => ?_, ?_, ?_, fun m hm htakes hchild => ?_, ?_, fun hasc => ?_, fun hr => ?_,
    fun hr => ?_, fun f hf hid => ?_⟩
  · exact State.keepsMachine_commitWritten (State.keepsMachine_trans (State.keepsMachine_mono kmach (by simp)) (State.markLines_keeps w hit)) _
  · rw [State.commitDone_line?, State.marked_line? hmarked, hwline, if_pos rfl, hl, Option.map_some, Option.map_some, hitLine,
      Draft.replaced_takesMarks hplan, Bool.true_and, Line.setStaged_of_planned (by exact hplan)]
    rw [Draft.replaced, hplan, hlid]
    cases c.reached <;> rfl
  · rw [State.commitDone_line?, State.marked_line? hmarked, hwline, if_neg hk, hm, Option.map_some,
      hitOther m (by rw [State.line?_id hm]; exact hk)]
  · rw [State.commitDone_line?, State.marked_line? hmarked, hwline, if_neg hk, hm]
    rfl
  · rw [f1, hstations, kstore]
    show ended.store.stations = s.store.stations
    rw [hstore]
  · show State.settings _ = _
    rw [State.settings, f1, hsettings, kstore]
    show ended.store.settings = s.store.settings
    rw [hstore]
  · obtain ⟨hne, hm'⟩ := Bool.and_eq_true_iff.mp hchild
    have hne : m.id ≠ id := of_decide_eq_true hne
    rw [f2]
    refine hmarked.2.1 m ?_ htakes ((hitOther m hne).trans hm')
    rw [hwlines]
    exact List.mem_map.mpr ⟨m, hm, if_neg hne⟩
  · refine State.reaches_commits (State.planReplaced_reaches (d := d) hclaims) (fun q => ?_)
    rw [State.commitDone_commit, State.markLines_commit]
    exact kcommit q
  · have hasc' : ended.store.idsAscending := hstore ▸ hasc
    have hnotes : ended.notesDrop (w.markLines hit) child := by
      refine State.notesDrop_replaced hasc' hel hplan kstore (congrArg RunUnit.lastDrop krun) (fun q => ?_) (fun k hk => ?_) (fun k hk => ?_)
        hmarked.2.2
      · exact kmach.raises q .dropped (by simp)
      · exact (hitOther k hk).trans (by simp [child, hk])
      · simp [child, hk]
    exact State.notesDrop_commitDone hnotes p c.reached
  · rw [f2]
    intro hmem
    rcases State.markLines_queue_sub w hit id hmem with hq | ⟨k, hk, -, hhit, hid⟩
    · exact kqueue hr hq
    · rw [hwlines] at hk
      obtain ⟨m, -, hmk⟩ := List.mem_map.mp hk
      split at hmk
      · rename_i hmid
        rw [← hmk, (hitSelf m).resolve_right (not_not.mpr hmid), hr] at hhit
        exact absurd hhit Bool.false_ne_true
      · rename_i hmid
        exact hmid (by rw [hmk]; exact hid)
  · rw [f2]
    have hq := (hmarked.2.1 (d.replaced l) hmem (Draft.replaced_takesMarks hplan) (hitLine.trans hr)).1
    rw [d.replaced_id, hlid] at hq
    exact hq
  · rw [f2] at hf
    rcases State.markLines_inFlight w hit f hf with ⟨g, hg, hgid, hdis⟩ | ⟨k, hk, hkid, hstale⟩
    · exact hdis (kflight g hg (hgid.symm.trans hid))
    · rw [hwlines] at hk
      obtain ⟨m, -, hmk⟩ := List.mem_map.mp hk
      split at hmk
      · rw [← hmk] at hstale
        exact nomatch hstale
      · rename_i hmid
        exact absurd (by rw [hmk, hkid, hid]) hmid

/-! ## A commit of the ACTIVE line (R77) -/

theorem State.proceedChecks_events (s : State) (q : Port) : (s.proceedChecks.port q).events = (s.port q).events := by
  have key : ∀ (x : PortState) (st : Store) (n : Nat), (x.proceed st n).events = x.events := fun x st n => by
    rw [(PortState.proceed_eq x st n).1]
  cases q
  · exact key _ _ _
  · exact key _ _ _

/-- The record of the ACTIVE line with its revision staged, or without one where the commit was reached. -/
def State.revisionStaged (s : State) (l : Line) (d : Draft) (reached : Bool) : State :=
  s.proceedChecks.updLine l.id (d.stagedOn l reached)

theorem State.writeCommit_active {s : State} {id : Nat} {l : Line} {r : RunContext} {st : Option Staged} (h : s.line? id = some l)
    (hl : l.lifecycle = .active r st) (d : Draft) (reached : Bool) : s.writeCommit id d reached
      = if reached then ((s.revisionStaged l d reached).noteDrop id .stale).markLines (fun k => k.id == id)
        else s.revisionStaged l d reached := by
  have h0 : s.proceedChecks.line? id = some l := h
  have hid : l.id = id := State.line?_id h
  simp only [State.writeCommit, h0, hl, State.writeActive, hid]
  rw [State.revisionStaged, hid]
  rfl

theorem State.revisionStaged_spec (s : State) (l : Line) (d : Draft) (reached : Bool) : let t := s.revisionStaged l d reached
    s.keepsMachine t [] ∧ t.run = s.run ∧ t.store.stations = s.store.stations ∧ t.store.settings = s.store.settings
      ∧ t.store.lines = s.store.lines.map (fun k => if k.id = l.id then d.stagedOn l reached k else k)
      ∧ (∀ k, t.line? k = if k = l.id then (s.line? k).map (d.stagedOn l reached) else s.line? k)
      ∧ t.recheck.queue = s.recheck.queue ∧ t.recheck.scanPending = s.recheck.scanPending ∧ t.recheck.backlog = s.recheck.backlog := by
  obtain ⟨q1, q2, q3⟩ := s.proceedChecks_queue
  exact ⟨State.keepsMachine_trans s.proceedChecks_keeps.2 (State.updLine_keeps _ _ _), rfl, rfl, rfl, rfl,
    fun k => State.updLine_line? (fun k => d.stagedOn_id l reached k) _ l.id k, q1, q2, q3⟩

theorem Draft.stagedOn_staged? (d : Draft) (l k : Line) : (d.stagedOn l true k).staged? = none := by
  cases h : k.lifecycle <;> simp [Draft.stagedOn, Line.staged?, Line.setStaged, h]

theorem Draft.stagedOn_active {l : Line} {r : RunContext} {st : Option Staged} (h : l.lifecycle = .active r st) (d : Draft) (reached : Bool) :
    d.stagedOn l reached l = { l with
      label := d.label
      lifecycle := .active r (if reached then none else some (d.stagedFor l)) } := by
  rw [Draft.stagedOn, Line.setStaged, h]

theorem State.noteDrop_spec (s : State) (id : Nat) (reason : DropReason) : s.keepsMachine (s.noteDrop id reason) [.dropped]
    ∧ (s.noteDrop id reason).run.lastDrop = some { id := id, reason := reason }
    ∧ (∀ p : Port, .dropped ∈ ((s.noteDrop id reason).port p).events) ∧ (s.noteDrop id reason).store = s.store
    ∧ (s.noteDrop id reason).recheck = s.recheck := by
  obtain ⟨k1, k2, k3, k4, k5, k6, k7, k8, k9, k10⟩ := s.raise_keeps .dropped
  exact ⟨⟨k1, k2, k3, k4, k5, k6, k7, rfl, k9, k10⟩, rfl, fun p => (State.mem_raise (s := s) (q := p)).mpr (.inl rfl), rfl, rfl⟩

/-- Settles O35: the record with its revision staged; where the commit was reached, the drop noted and the line marked after it. -/
theorem commitStagesARevision : Obligations.CommitStagesARevision := by
  intro p c id d l r st s hs hc hclaim hd hcheck hpass hl hact
  have hcomp : s.Completes p c id d := ⟨hc, hclaim, hd, hcheck, hpass⟩
  have hexec := exec_commitCompletion_written hs hcomp
  have hstore := s.commitOver_store p
  have hline : ∀ k, (s.commitOver p).line? k = s.line? k := fun k => by rw [State.line?, State.line?, hstore]
  have hid : l.id = id := State.line?_id hl
  rw [State.writeCommit_active ((hline id).trans hl) hact] at hexec
  obtain ⟨kmach, krun, kstations, ksettings, klines, kline, kqueue, kscan, kback⟩ := (s.commitOver p).revisionStaged_spec l d c.reached
  refine ⟨_, hexec, ?_⟩
  cases hr : c.reached with
  | false =>
    rw [hr] at kmach krun kstations ksettings kline kqueue kscan kback
    simp only [Bool.false_eq_true, if_false]
    obtain ⟨f1, f2, f3⟩ := ((s.commitOver p).revisionStaged l d false).commitDone_store p false
    refine ⟨State.keepsMachine_commitWritten kmach false, ?_, fun k hk => ?_, ?_, ?_, fun h => (nomatch h), fun _ => ⟨?_, fun q => ?_, ?_, ?_, ?_⟩⟩
    · rw [State.commitDone_line?, kline, if_pos hid.symm, hline, hl, Option.map_some, Draft.stagedOn_active hact]
      rfl
    · rw [State.commitDone_line?, kline, if_neg (by rw [hid]; exact hk), hline]
    · rw [f1, kstations, hstore]
    · rw [State.settings, f1, ksettings, hstore]
      rfl
    · rw [f3, krun, s.commitOver_run]
    · rw [State.commitDone_events, ← s.commitOver_events p q]
      exact (s.commitOver p).proceedChecks_events q
    · rw [f2, kqueue, s.commitOver_recheck]
    · rw [f2, kscan, s.commitOver_recheck]
    · rw [f2, kback, s.commitOver_recheck]
  | true =>
    rw [hr] at kmach krun kstations ksettings klines kline kqueue kscan kback
    simp only [if_true]
    let v := (s.commitOver p).revisionStaged l d true
    let w := v.noteDrop id .stale
    obtain ⟨nmach, ndrop, nevents, nstore, -⟩ := State.noteDrop_spec v id .stale
    have hmarked := State.markLines_marked w (fun k => k.id == id)
    obtain ⟨qrun, qmach⟩ := State.markLines_quiet w (fun k => k.id == id) (fun k hk _ hhit => by
      rw [nstore, klines] at hk
      obtain ⟨m, -, rfl⟩ := List.mem_map.mp hk
      split
      · exact d.stagedOn_staged? l m
      · rename_i hne
        rw [if_neg hne] at hhit
        exact absurd ((beq_iff_eq.mp hhit).trans hid.symm) hne)
    obtain ⟨hstations, hsettings⟩ := State.markLines_store w (fun k => k.id == id)
    obtain ⟨f1, f2, f3⟩ := (w.markLines (fun k => k.id == id)).commitDone_store p true
    have hwline : ∀ k, w.line? k = v.line? k := fun k => by rw [State.line?, State.line?, nstore]
    have hvl : v.line? id = some (d.stagedOn l true l) := by rw [kline, if_pos hid.symm, hline, hl, Option.map_some]
    have htakes : (d.stagedOn l true l).takesMarks = true := by
      rw [Line.takesMarks_iff, Draft.stagedOn_active hact]
      exact .inr rfl
    have hhit : ((d.stagedOn l true l).id == id) = true := by rw [d.stagedOn_id, hid, beq_self_eq_true]
    have hmk := hmarked.2.1 (d.stagedOn l true l) (State.line?_mem ((hwline id).trans hvl)) htakes hhit
    rw [d.stagedOn_id, hid] at hmk
    refine ⟨?_, ?_, fun k hk => ?_, ?_, ?_, fun _ => ⟨?_, fun q => ?_, ?_, ?_⟩, fun h => (nomatch h)⟩
    · refine State.keepsMachine_commitWritten (State.keepsMachine_trans (State.keepsMachine_trans (State.keepsMachine_mono kmach (by simp))
        (State.keepsMachine_mono nmach (by simp))) (State.keepsMachine_mono qmach (by simp))) true
    · rw [State.commitDone_line?, State.marked_line? hmarked, hwline, hvl, Option.map_some, htakes, hhit, Bool.and_true, if_pos rfl,
        Draft.stagedOn_active hact]
      rfl
    · rw [State.commitDone_line?, State.marked_line? hmarked, hwline, kline, if_neg (by rw [hid]; exact hk), hline]
      refine option_map_id_of fun m hm => if_neg ?_
      simp [State.line?_id hm, hk]
    · rw [f1, hstations, nstore, kstations, hstore]
    · rw [State.settings, f1, hsettings, nstore, ksettings, hstore]
      rfl
    · rw [f3, qrun, ndrop]
    · rw [State.commitDone_events]
      exact (qmach.raises q .dropped (by simp)).mpr (nevents q)
    · rw [f2]
      exact hmk.1
    · rw [f2]
      exact hmk.2

end Sys2Proof.Machine
end

section
/-! PROOF. The ends of a run: DESELECT and ABANDON (07; R12, R113, R121). -/
namespace Sys2Proof.Machine

/-- The run IDLE: the chainage unknown and the evaluator empty (R98, R110, R133). -/
def State.runEnded (s : State) : State :=
  { s with
    chain := { s.chain with known := false, position := 0 }
    run := { s.run with coast := 0, timer := none, wait := none }
    eval := { serving := none, gradeCount := 0, gradeFlag := false, drive := 0, reference := none } }

theorem State.keepsMachine_leaveActive {s t : State} {ks : List EventKind} (h : s.keepsMachine t ks) (x : Lifecycle) :
    s.runEnded.keepsMachine (t.leaveActive x) (.run :: ks) := by
  obtain ⟨k1, k2, k3, k4, k5, k6, k7, k8, k9, k10⟩ := h
  obtain ⟨m1, m2, m3, m4, m5, m6, m7, -, m9⟩ := t.leaveActive_machine x
  refine ⟨m1.trans k1, m2.trans k2, m3.trans k3, m4.trans k4, ?_, m6, m7.trans k7, ?_, fun p => ?_, fun p k hk => ?_⟩
  · rw [m5, k5]
    rfl
  · rw [m9, k8]
    rfl
  · rw [State.leaveActive_port]
    exact k9 p
  · obtain ⟨hrun, hks⟩ := not_or.mp (fun h => hk (List.mem_cons.mpr h))
    rw [State.leaveActive_port]
    exact (mem_setKind _ _ _).trans ((or_iff_right hrun).trans (k10 p k hks))

theorem State.reply_events (s : State) (p q : Port) (r : Reply) : ((s.reply p r).port q).events = (s.port q).events := by
  cases p <;> cases q <;> rfl

theorem State.taken_events (s : State) (p q : Port) (row : Instr) : ((s.taken p row).port q).events = (s.port q).events := by
  cases p <;> cases q <;> rfl

theorem State.reaches_of_taken {s t : State} {p : Port} {row : Instr} {c : Change} (h : (s.taken p row).reaches t c) : s.reaches t c :=
  State.reaches_congr (by rw [State.taken_store]) (fun q => by cases p <;> cases q <;> exact ⟨rfl, rfl, rfl⟩) h

/-! ## DESELECT (R113) -/

theorem exec_deselect_ready {s : State} {l : Line} (h : s.ready .cab (.deselect .cab [])) (ha : s.active? = some l) :
    exec (.deselect .cab []) s = .next (if s.isArmed then
        (((s.taken .cab (.deselect .cab [])).leaveActive .planned).noteDropIf l .deselect).ok .cab
      else s.answered .cab (.deselect .cab []) (noReply .state)) := by
  show Host.Outcome.next _ = _
  rw [takeLine_ready _ h, State.withNone_nil, State.cabOnly_cab, taken_isArmed]
  simp only [State.deselectLine, taken_active?, ha, taken_no]

/-! ## ABANDON (R121) -/

theorem exec_abandon_ready {s : State} (h : s.ready .cab (.abandon .cab [])) :
    exec (.abandon .cab []) s = .next (if s.abandonable then (s.taken .cab (.abandon .cab [])).abandonLine.ok .cab
      else s.answered .cab (.abandon .cab []) (noReply .state)) := by
  show Host.Outcome.next _ = _
  rw [takeLine_ready _ h, State.withNone_nil, State.cabOnly_cab, State.abandonable, taken_isArmed, taken_stopped]
  simp only [taken_no]
  rfl

/-- The record that ABANDON leaves of the ACTIVE line. -/
def Line.abandoned (l : Line) : Line := { l.closeAll with lifecycle := .abandoned }

/-- The module with the ACTIVE line given up and its drop noted, before the marks. -/
def State.givenUp (s : State) (l : Line) : State :=
  ((s.proceedChecks.updActive Line.closeAll).leaveActive .abandoned).noteDropIf l .abandon

theorem State.abandonLine_eq {s : State} {l : Line} (h : s.active? = some l) :
    s.abandonLine = (s.givenUp l).markingChange (.parent l.id) := by
  rw [State.abandonLine, h]
  rfl

theorem Line.closeAll_isActive (l : Line) : l.closeAll.isActive = l.isActive := rfl

theorem State.givenUp_store (s : State) (l : Line) : (s.givenUp l).store
    = { s.store with lines := s.store.lines.map (fun k => if k.isActive then k.abandoned else k) } := by
  rw [State.givenUp, (State.noteDropIf_spec _ l .abandon).1, State.leaveActive_store]
  show ({ s.store with lines := (s.store.lines.map (fun k => if k.isActive then k.closeAll else k)).map _ } : Store) = _
  rw [List.map_map]
  refine congrArg (fun ls => ({ s.store with lines := ls } : Store)) (List.map_congr_left fun k _ => ?_)
  rw [Function.comp_apply]
  by_cases hk : k.isActive = true
  · rw [if_pos hk, k.closeAll_isActive, if_pos hk, if_pos hk]
    rfl
  · rw [if_neg hk, if_neg hk, if_neg hk]

theorem State.givenUp_marksLine (s : State) (l : Line) (c : Change) (k : Line) : (s.givenUp l).marksLine c k = s.marksLine c k := by
  rw [State.givenUp, (State.noteDropIf_spec _ l .abandon).2.1, State.leaveActive_marksLine]
  exact congrFun (s.marksLine_proceedChecks c) k

theorem State.givenUp_keeps (s : State) (l : Line) : s.runEnded.keepsMachine (s.givenUp l) [.run, .dropped] :=
  State.keepsMachine_trans
    (State.keepsMachine_mono (State.keepsMachine_leaveActive (State.keepsMachine_trans s.proceedChecks_keeps.2 (State.setLines_keeps _ _))
      .abandoned) (by simp))
    (State.keepsMachine_mono (State.noteDropIf_spec _ l .abandon).2.2.1 (by simp))

theorem State.givenUp_run (s : State) (l : Line) (q : Port) : .run ∈ ((s.givenUp l).port q).events := by
  refine (State.noteDropIf_spec _ l .abandon).2.2.2 q ?_
  rw [State.leaveActive_port]
  exact (mem_setKind _ _ _).mpr (.inl rfl)

theorem State.givenUp_drops (s : State) {l : Line} (h : l.staged? ≠ none) :
    (s.givenUp l).run.lastDrop = some { id := l.id, reason := .abandon } ∧ ∀ q : Port, .dropped ∈ ((s.givenUp l).port q).events := by
  have hd : s.givenUp l = ((s.proceedChecks.updActive Line.closeAll).leaveActive .abandoned).noteDrop l.id .abandon :=
    if_pos (Option.isSome_iff_ne_none.mpr h)
  obtain ⟨-, h2, h3, -⟩ := State.noteDrop_spec ((s.proceedChecks.updActive Line.closeAll).leaveActive .abandoned) l.id .abandon
  rw [hd]
  exact ⟨h2, h3⟩

theorem State.givenUp_stands (s : State) {l : Line} (h : l.staged? = none) : (s.givenUp l).run.lastDrop = s.run.lastDrop
    ∧ ∀ q : Port, .dropped ∈ ((s.givenUp l).port q).events ↔ .dropped ∈ (s.port q).events := by
  have hd : s.givenUp l = (s.proceedChecks.updActive Line.closeAll).leaveActive .abandoned := if_neg (by simp [h])
  obtain hk := State.keepsMachine_leaveActive (State.keepsMachine_trans s.proceedChecks_keeps.2 (State.setLines_keeps _ _)) .abandoned
  rw [hd]
  exact ⟨rfl, fun q => hk.raises q .dropped (by simp)⟩

theorem State.line?_map {f : Line → Line} (hf : ∀ l, (f l).id = l.id) {s t : State} (h : t.store.lines = s.store.lines.map f) (id : Nat) :
    t.store.line? id = (s.store.line? id).map f := by
  rw [Store.line?, h]
  exact find_map_id hf s.store.lines id

theorem State.noteDropIf_ports (s : State) (l : Line) (d : DropReason) (q : Port) : ((s.noteDropIf l d).port q).claim = (s.port q).claim
    ∧ ((s.noteDropIf l d).port q).draft = (s.port q).draft ∧ ((s.noteDropIf l d).port q).commit = (s.port q).commit := by
  rw [State.noteDropIf]
  split
  · cases q <;> exact ⟨rfl, rfl, rfl⟩
  · exact ⟨rfl, rfl, rfl⟩

theorem State.givenUp_ports (s : State) (l : Line) (q : Port) : ((s.givenUp l).port q).claim = (s.proceedChecks.port q).claim
    ∧ ((s.givenUp l).port q).draft = (s.proceedChecks.port q).draft ∧ ((s.givenUp l).port q).commit = (s.proceedChecks.port q).commit := by
  obtain ⟨h1, h2, h3⟩ := State.noteDropIf_ports ((s.proceedChecks.updActive Line.closeAll).leaveActive .abandoned) l .abandon q
  rw [State.leaveActive_port] at h1 h2 h3
  exact ⟨h1, h2, h3⟩

theorem State.givenUp_reaches (s : State) (l : Line) {t : State} {id : Nat} (h : (s.givenUp l).reaches t (.parent id)) :
    s.reaches t (.parent id) := by
  have hid : ∀ k : Line, (if k.isActive then k.abandoned else k).id = k.id := fun k => by
    split <;> rfl
  have hparent : ∀ k : Line, Change.hitsLine (.parent id) (if k.isActive then k.abandoned else k) = Change.hitsLine (.parent id) k := fun k => by
    split <;> rfl
  refine State.reaches_of_lines (fun q => ?_) (fun q k _ _ => ?_) h
  · obtain ⟨h1, h2, h3⟩ := s.proceedChecks_ports q
    obtain ⟨g1, g2, g3⟩ := s.givenUp_ports l q
    rw [g1, g2, g3]
    exact ⟨h1, h2, h3⟩
  · rw [State.line?_map hid (congrArg Store.lines (s.givenUp_store l)) k]
    cases s.store.line? k with
    | none => exact Iff.rfl
    | some m => simp [hparent m]

theorem Line.abandoned_staged? (l : Line) : l.abandoned.staged? = none := rfl

theorem Line.staged?_of_not_active {l : Line} (h : l.isActive = false) : l.staged? = none := by
  unfold Line.staged?
  split
  · rename_i r st hl
    simp [Line.isActive, hl, Lifecycle.kind] at h
  · rfl

/-- Once the ACTIVE line is given up no line has a staged revision, and its marks discard none. -/
theorem State.givenUp_notes {s t : State} {l : Line} {hit : Line → Bool} (h : (s.givenUp l).notesDrop t hit) :
    t.run.lastDrop = (s.givenUp l).run.lastDrop ∧ ∀ q : Port, .dropped ∈ (t.port q).events ↔ .dropped ∈ ((s.givenUp l).port q).events := by
  refine h.2 (List.find?_eq_none.mpr fun k hk => ?_)
  rw [s.givenUp_store l] at hk
  obtain ⟨m, -, rfl⟩ := List.mem_map.mp hk
  split
  · simp [m.abandoned_staged?]
  · rename_i hm
    simp [Line.staged?_of_not_active (Bool.not_eq_true _ ▸ hm)]

theorem State.abandonable_of {s : State} {l : Line} {r : RunContext} (ha : s.active? = some l) (hr : l.run? = some r) :
    s.abandonable = true ↔ r.state = .armed ∨ r.state.isStopped = true := by
  rw [State.abandonable, Bool.or_eq_true, State.isArmed_of ha hr, State.stopped_of ha hr]

theorem taken_runEnded_ok (s : State) (row : Instr) : (s.taken .cab row).runEnded.ok .cab = (s.answered .cab row okReply).runEnded := rfl

/-- A line given up takes no mark. -/
theorem Line.marked_abandoned (hit : Line → Bool) (k : Line) :
    (if (if k.isActive then k.abandoned else k).takesMarks && hit (if k.isActive then k.abandoned else k)
      then { (if k.isActive then k.abandoned else k).setStaged none with status := .stale } else if k.isActive then k.abandoned else k)
      = if k.isActive then k.abandoned else if k.takesMarks && hit k then { k.setStaged none with status := .stale } else k := by
  by_cases hk : k.isActive = true
  · simp only [if_pos hk]
    exact if_neg (by simp [Line.abandoned, Line.takesMarks, Lifecycle.kind])
  · simp only [if_neg hk]

/-- Settles O48: the run is ended, the drop noted, and ABANDON goes on with the marks of the change of its line. -/
theorem runEndsWithItsLine : Obligations.RunEndsWithItsLine := by
  intro l r s ha hr ended
  refine ⟨fun h => ⟨fun hno => ?_, fun harmed hst => ?_, fun harmed hst => ?_⟩, fun h => ⟨fun hdig => ?_, fun hok => ?_⟩⟩
  · rw [exec_deselect_ready h ha, if_neg (by rw [State.isArmed_of ha hr]; exact hno)]
  · rw [exec_deselect_ready h ha, if_pos ((State.isArmed_of ha hr).mpr harmed), State.noteDropIf, if_neg (by simp [hst])]
    rfl
  · rw [exec_deselect_ready h ha, if_pos ((State.isArmed_of ha hr).mpr harmed), State.noteDropIf,
      if_pos (Option.isSome_iff_ne_none.mpr hst)]
    rfl
  · have hno : ¬s.abandonable = true := by
      rw [State.abandonable_of ha hr]
      rcases hdig with hc | hc <;> rw [hc] <;> simp [RunState.isStopped]
    rw [exec_abandon_ready h, if_neg hno]
  · have hexec := exec_abandon_ready h
    rw [if_pos ((State.abandonable_of ha hr).mpr hok), State.abandonLine_eq (by rw [taken_active?]; exact ha)] at hexec
    let v := s.taken .cab (.abandon .cab [])
    let w := v.givenUp l
    obtain ⟨⟨mlines, mqueue, mdrop⟩, mkeeps, mstations, msettings, mreach⟩ := State.markingChange_spec w (.parent l.id)
    have hmarks : w.marksLine (.parent l.id) = s.marksLine (.parent l.id) := by
      funext k
      rw [State.givenUp_marksLine, State.marksLine_taken]
    have hwstore := v.givenUp_store l
    have hwlines : w.store.lines = s.store.lines.map (fun k => if k.isActive then k.abandoned else k) := by
      rw [hwstore]
      rfl
    rw [hmarks] at mlines mqueue mdrop
    obtain ⟨hnote1, hnote2⟩ := State.givenUp_notes mdrop
    have hraise := mkeeps.raises
    have hevents : ∀ q : Port, (((w.markingChange (.parent l.id)).ok .cab).port q).events = ((w.markingChange (.parent l.id)).port q).events :=
      fun q => State.reply_events _ .cab q okReply
    refine ⟨_, hexec, ?_, ?_, ?_, ?_, fun k hk hka htakes hhit => ?_, fun hst => ⟨?_, fun q => ?_⟩, fun hst => ⟨?_, fun q => ?_⟩, ?_, fun q => ?_⟩
    · have hk := State.keepsMachine_reply (State.keepsMachine_trans (State.keepsMachine_mono (v.givenUp_keeps l) (by simp))
        (State.keepsMachine_mono mkeeps (by simp))) .cab okReply (ks := [.run, .dropped, .backlog, .swept])
      exact hk
    · exact mstations.trans (by rw [hwstore]; rfl)
    · exact msettings.trans (by rw [hwstore]; rfl)
    · refine mlines.trans ?_
      rw [hwlines, List.map_map]
      refine List.map_congr_left fun k _ => ?_
      rw [Function.comp_apply, Line.marked_abandoned, Line.abandoned, ← Line.closeAll_profile]
      rfl
    · refine (mqueue k ?_ htakes hhit).1
      rw [hwlines]
      exact List.mem_map.mpr ⟨k, hk, if_neg (by simp [hka])⟩
    · exact hnote1.trans (v.givenUp_drops hst).1
    · rw [hevents]
      exact (hnote2 q).mpr ((v.givenUp_drops hst).2 q)
    · exact hnote1.trans (v.givenUp_stands hst).1
    · rw [hevents]
      exact (hnote2 q).trans (((v.givenUp_stands hst).2 q).trans (by rw [s.taken_events]))
    · exact State.reaches_reply (State.reaches_of_taken (State.givenUp_reaches v l mreach)) .cab okReply
    · rw [hevents]
      exact (hraise q .run (by simp)).mpr (v.givenUp_run l q)

end Sys2Proof.Machine
end

section
/-! PROOF. Elevations and the freeze condition (01, 09; R4 to R6, R137, R138, R150, R151, R161). -/
namespace Sys2Proof.Machine

/-! ## Rounding -/

/-- The quotient times the divisor is the number but for half the divisor at most, and half of it only away from zero. -/
theorem roundDiv_spec (n : Int) {d : Int} (hd : 0 < d) : 2 * (((d * roundDiv n d - n).natAbs : Nat) : Int) ≤ d
    ∧ (2 * (((d * roundDiv n d - n).natAbs : Nat) : Int) = d → n.natAbs < (d * roundDiv n d).natAbs) := by
  have key : ∀ m : Int, 0 ≤ m → 2 * (d * ((2 * m + d) / (2 * d))) ≤ 2 * m + d ∧ 2 * m + d < 2 * (d * ((2 * m + d) / (2 * d))) + 2 * d := by
    intro m _
    have h1 := Int.mul_ediv_add_emod (2 * m + d) (2 * d)
    have h2 := Int.emod_nonneg (2 * m + d) (b := 2 * d) (by omega)
    have h3 := Int.emod_lt_of_pos (2 * m + d) (b := 2 * d) (by omega)
    rw [mul_assoc] at h1
    omega
  unfold roundDiv
  split
  · rename_i hn
    have hk := key n hn
    omega
  · rename_i hn
    have hk := key (-n) (by omega)
    rw [mul_neg]
    omega

theorem roundDiv_mul (x : Int) {d : Int} (hd : 0 < d) : roundDiv (x * d) d = x := by
  have h := (roundDiv_spec (x * d) hd).1
  have hdist : d * roundDiv (x * d) d - x * d = d * (roundDiv (x * d) d - x) := by ring
  rw [hdist, Int.natAbs_mul, Nat.cast_mul, Int.natAbs_of_nonneg hd.le] at h
  by_contra hne
  have h1 : (1 : Int) ≤ (((roundDiv (x * d) d - x).natAbs : Nat) : Int) := by omega
  have h2 := mul_le_mul_of_nonneg_left h1 hd.le
  omega

/-! ## The segment and the span at a chainage -/

/-- What holds of the elements before a place, and of none from there on, counts to the place. -/
theorem length_filter_of_prefix {α : Type} {p : α → Bool} {xs : List α} {i : Nat} (hi : i ≤ xs.length)
    (hbefore : ∀ (j : Nat) (x : α), j < i → xs[j]? = some x → p x = true)
    (hafter : ∀ (j : Nat) (x : α), i ≤ j → xs[j]? = some x → p x = false) : (xs.filter p).length = i := by
  have htake : (xs.take i).filter p = xs.take i := by
    refine List.filter_eq_self.mpr fun x hx => ?_
    obtain ⟨j, hj⟩ := List.mem_iff_getElem?.mp hx
    rw [List.getElem?_take] at hj
    split at hj
    · exact hbefore j x (by assumption) hj
    · cases hj
  have hdrop : (xs.drop i).filter p = [] := by
    refine List.filter_eq_nil_iff.mpr fun x hx => ?_
    obtain ⟨j, hj⟩ := List.mem_iff_getElem?.mp hx
    rw [List.getElem?_drop] at hj
    rw [hafter (i + j) x (Nat.le_add_right i j) hj]
    exact Bool.false_ne_true
  rw [← List.take_append_drop i xs, List.filter_append, htake, hdrop, List.append_nil, List.length_take, Nat.min_eq_left hi]

theorem pairwise_lt_getElem? {α : Type} {f : α → Int} {xs : List α} (h : xs.Pairwise (fun a b => f a < f b)) {i j : Nat} {a b : α}
    (ha : xs[i]? = some a) (hb : xs[j]? = some b) (hij : i < j) : f a < f b := by
  obtain ⟨hi, rfl⟩ := List.getElem?_eq_some_iff.mp ha
  obtain ⟨hj, rfl⟩ := List.getElem?_eq_some_iff.mp hb
  exact List.pairwise_iff_getElem.mp h i j hi hj hij

theorem segmentIndex_of {pts : List Point} {k : Nat} {a b : Point} {c : Int} (hasc : pts.Pairwise (fun x y => x.chainage < y.chainage))
    (ha : pts[k]? = some a) (hb : pts[k + 1]? = some b) (hc : k = 0 ∨ a.chainage ≤ c) (hd : pts.length = k + 2 ∨ c < b.chainage) :
    segmentIndex pts c = k := by
  have hlen : k + 1 < pts.length := (List.getElem?_eq_some_iff.mp hb).1
  have hinner : ∀ (j : Nat) (x : Point), (pts.drop 1).dropLast[j]? = some x → j + 2 < pts.length ∧ pts[j + 1]? = some x := by
    intro j x hx
    rw [List.getElem?_dropLast] at hx
    split at hx
    · rename_i hj
      rw [List.getElem?_drop, Nat.add_comm] at hx
      rw [List.length_drop] at hj
      exact ⟨by omega, hx⟩
    · cases hx
  refine length_filter_of_prefix (by rw [List.length_dropLast, List.length_drop]; omega) (fun j x hj hx => ?_) (fun j x hj hx => ?_)
  · obtain ⟨-, hx⟩ := hinner j x hx
    have hac : a.chainage ≤ c := hc.resolve_left (by omega)
    rw [decide_eq_true_iff]
    rcases Nat.lt_or_eq_of_le (show j + 1 ≤ k by omega) with hlt | heq
    · exact (pairwise_lt_getElem? (f := Point.chainage) hasc hx ha hlt).le.trans hac
    · rw [heq, ha] at hx
      cases hx
      exact hac
  · obtain ⟨hjlen, hx⟩ := hinner j x hx
    have hcb : c < b.chainage := hd.resolve_left (by omega)
    rw [decide_eq_false_iff_not, not_le]
    rcases Nat.lt_or_eq_of_le (show k + 1 ≤ j + 1 by omega) with hlt | heq
    · exact hcb.trans (pairwise_lt_getElem? (f := Point.chainage) hasc hb hx hlt)
    · rw [← heq, hb] at hx
      cases hx
      exact hcb

theorem spanIndex_of {spans : List Span} {k : Nat} {x : Span} {c : Int} (hasc : spans.Pairwise (fun x y => x.start < y.start))
    (hx : spans[k]? = some x) (hc : k = 0 ∨ x.start ≤ c) (hd : ∀ y, spans[k + 1]? = some y → c < y.start) : spanIndex spans c = k := by
  have hlen : k < spans.length := (List.getElem?_eq_some_iff.mp hx).1
  have htail : ∀ j : Nat, (spans.drop 1)[j]? = spans[j + 1]? := fun j => by rw [List.getElem?_drop, Nat.add_comm]
  refine length_filter_of_prefix (by rw [List.length_drop]; omega) (fun j y hj hy => ?_) (fun j y hj hy => ?_)
  · rw [htail] at hy
    have hxc : x.start ≤ c := hc.resolve_left (by omega)
    rw [decide_eq_true_iff]
    rcases Nat.lt_or_eq_of_le (show j + 1 ≤ k by omega) with hlt | heq
    · exact (pairwise_lt_getElem? (f := Span.start) hasc hy hx hlt).le.trans hxc
    · rw [heq, hx] at hy
      cases hy
      exact hxc
  · rw [htail] at hy
    rw [decide_eq_false_iff_not, not_le]
    obtain ⟨z, hz⟩ : ∃ z, spans[k + 1]? = some z :=
      ⟨_, List.getElem?_eq_getElem (by have := (List.getElem?_eq_some_iff.mp hy).1; omega)⟩
    rcases Nat.lt_or_eq_of_le (show k + 1 ≤ j + 1 by omega) with hlt | heq
    · exact (hd z hz).trans (pairwise_lt_getElem? (f := Span.start) hasc hz hy hlt)
    · rw [← heq] at hy
      exact hd y hy

/-- The straight line of the segment in which the chainage lies. -/
theorem invertAt_of {pts : List Point} {k : Nat} {a b : Point} {c : Int} (hk : segmentIndex pts c = k) (ha : pts[k]? = some a)
    (hb : pts[k + 1]? = some b) : invertAt pts c = lineAt a b c := by
  rw [invertAt, hk, ha, hb]

theorem lineAt_start {a b : Point} (h : a.chainage < b.chainage) : lineAt a b a.chainage = a.invert := by
  rw [lineAt, sub_self, mul_zero, add_zero]
  exact roundDiv_mul a.invert (by omega)

theorem lineAt_end {a b : Point} (h : a.chainage < b.chainage) : lineAt a b b.chainage = b.invert := by
  rw [lineAt, show a.invert * (b.chainage - a.chainage) + (b.invert - a.invert) * (b.chainage - a.chainage)
    = b.invert * (b.chainage - a.chainage) by ring]
  exact roundDiv_mul b.invert (by omega)

/-! ## Trim and freeze -/

theorem trimAt_ramp {r : RunContext} {ramp c : Int} (h1 : r.rampStart ≤ c) (h2 : c < r.rampStart + ramp) :
    trimAt r ramp c = roundDiv (r.trimFrom * ramp + (r.trimTo - r.trimFrom) * (c - r.rampStart)) ramp := by
  rw [trimAt, if_neg (by omega), if_neg (by omega)]

/-- Test 1 of R151, with the first point at or above the freeze chainage named. -/
theorem keepsPoints_iff {freeze : Int} {current lists : List Point} {j : Nat} {b : Point} (hb : current[j]? = some b) (hj : freeze ≤ b.chainage)
    (hfirst : ∀ i a, i < j → current[i]? = some a → a.chainage < freeze) :
    keepsPoints freeze current lists = true ↔ ∀ i ≤ j, lists[i]? = current[i]? := by
  obtain ⟨hlt, hget⟩ := List.getElem?_eq_some_iff.mp hb
  have hidx : current.findIdx (fun p => decide (freeze ≤ p.chainage)) = j := by
    refine (List.findIdx_eq hlt).mpr ⟨by rw [hget]; exact decide_eq_true hj, fun i hi => decide_eq_false ?_⟩
    rw [not_le]
    exact hfirst i _ hi (List.getElem?_eq_getElem (hi.trans hlt))
  constructor
  · intro h i hi
    exact keepsPoints_getElem? h (by rw [hidx]; exact hi)
  · intro h
    have hlen : j < lists.length := (List.getElem?_eq_some_iff.mp ((h j (le_refl j)).trans hb)).1
    rw [keepsPoints, hidx, Bool.and_eq_true, decide_eq_true_iff, beq_iff_eq]
    refine ⟨hlen, List.ext_getElem? fun i => ?_⟩
    rw [List.getElem?_take, List.getElem?_take]
    split
    · exact h i (by omega)
    · rfl

/-- Settles O31: each formula, and the two indexes read off the order of the lists. -/
theorem elevationsAndFreeze : Obligations.ElevationsAndFreeze := by
  refine ⟨fun n d hd => roundDiv_spec n hd, fun pts k a b c hasc ha hb hc hd => ?_, fun spans k x c => spanIndex_of, fun st x c => ?_,
    fun r ramp c hramp => ⟨fun h => if_pos h, fun h => ?_, trimAt_ramp⟩, fun st l r x c d => ⟨rfl, rfl⟩, fun st l => ⟨rfl, fun f => rfl⟩,
    fun st l f pts spans j b hb hj hfirst => ?_⟩
  · have hab : a.chainage < b.chainage := pairwise_lt_getElem? (f := Point.chainage) hasc ha hb (Nat.lt_succ_self k)
    have hline := invertAt_of (segmentIndex_of hasc ha hb hc hd) ha hb
    refine ⟨hline, fun h => ?_, fun h => ?_⟩
    · rw [hline, h, lineAt_start hab]
    · rw [hline, h, lineAt_end hab]
  · rw [effectivePlane, planeAt, Station.correction]
    cases h : st.stations.get x.station <;> rfl
  · rw [trimAt, if_neg (by omega), if_pos h]
  · have hpoints : ∀ i, l.points[i]? = (l.profile[i]?).map (fun a : Breakpoint => a.point) := fun i => l.points_getElem? i
    have hb' : l.points[j]? = some b.point := by rw [hpoints, hb]; rfl
    have hfirst' : ∀ i a, i < j → l.points[i]? = some a → a.chainage < freezeChainage st l f := by
      intro i a hi ha
      rw [hpoints] at ha
      obtain ⟨a', ha', rfl⟩ := Option.map_eq_some_iff.mp ha
      exact hfirst i a' hi ha'
    rw [meetsFreeze_iff, keepsPoints_iff hb' hj hfirst', keepsSpans, beq_iff_eq]
    simp only [hpoints]
    rfl

end Sys2Proof.Machine
end

section
/-! PROOF. The reads and the layout of their records (10.4, 10.6; R167 to R170, R184, R185). -/
namespace Sys2Proof.Machine

/-! ## A read taken in hand -/

theorem taken_records (s : State) (p : Port) (row : Instr) (rs : List (List Field)) :
    (s.taken p row).records p rs = s.answered p row (.records rs) := taken_reply s p row _

theorem taken_identRecord (s : State) (p : Port) (row : Instr) : identRecord (s.taken p row) = identRecord s := by cases p <;> rfl

theorem taken_runRecord (s : State) (p : Port) (row : Instr) : runRecord (s.taken p row) = runRecord s := by cases p <;> rfl

theorem taken_queueRecord (s : State) (p : Port) (row : Instr) : queueRecord (s.taken p row) = queueRecord s := by cases p <;> rfl

theorem taken_eventsRecord (s : State) (p : Port) (row : Instr) : eventsRecord (s.taken p row) p = eventsRecord s p := by cases p <;> rfl

theorem taken_countersRecord (s : State) (p : Port) (row : Instr) : countersRecord (s.taken p row) = countersRecord s := by cases p <;> rfl

theorem taken_stationRecord (s : State) (p : Port) (row : Instr) (n : StationId) : stationRecord (s.taken p row) n = stationRecord s n := by
  cases p <;> rfl

theorem taken_holder? (s : State) (p : Port) (row : Instr) (id : Nat) : (s.taken p row).holder? id = s.holder? id := by cases p <;> rfl

theorem taken_lineRecord (s : State) (p : Port) (row : Instr) (l : Line) : lineRecord (s.taken p row) l = lineRecord s l := by cases p <;> rfl

section Rows
variable {p : Port} {s : State}

theorem exec_ident_ready (h : s.ready p (.ident p [])) : exec (.ident p []) s = .next (s.answered p (.ident p []) (.records [identRecord s])) := by
  show Host.Outcome.next _ = _
  rw [takeLine_ready _ h, State.withNone_nil, taken_identRecord, taken_records]

theorem exec_run_ready (h : s.ready p (.run p [])) : exec (.run p []) s = .next (s.answered p (.run p []) (.records [runRecord s])) := by
  show Host.Outcome.next _ = _
  rw [takeLine_ready _ h, State.withNone_nil, taken_runRecord, taken_records]

theorem exec_queue_ready (h : s.ready p (.queue p [])) : exec (.queue p []) s = .next (s.answered p (.queue p []) (.records [queueRecord s])) := by
  show Host.Outcome.next _ = _
  rw [takeLine_ready _ h, State.withNone_nil, taken_queueRecord, taken_records]

theorem exec_settings_ready (h : s.ready p (.settings p [])) :
    exec (.settings p []) s = .next (s.answered p (.settings p []) (.records (settingRecords s.settings))) := by
  show Host.Outcome.next _ = _
  rw [takeLine_ready _ h, State.withNone_nil, State.taken_settings, taken_records]

theorem exec_events_ready (h : s.ready p (.events p [])) :
    exec (.events p []) s = .next (s.answered p (.events p []) (.records [eventsRecord s p])) := by
  show Host.Outcome.next _ = _
  rw [takeLine_ready _ h, State.withNone_nil, taken_eventsRecord, taken_records]

theorem exec_counters_ready (h : s.ready p (.counters p [])) :
    exec (.counters p []) s = .next (s.answered p (.counters p []) (.records [countersRecord s])) := by
  show Host.Outcome.next _ = _
  rw [takeLine_ready _ h, State.withNone_nil, taken_countersRecord, taken_reply]

theorem exec_stationRead_ready {w : Text} {n : StationId} (h : s.ready p (.stationRead p [w])) (hw : number? w = some n.number) :
    exec (.stationRead p [w]) s = .next (s.answered p (.stationRead p [w]) (.records [stationRecord s n])) := by
  show Host.Outcome.next _ = _
  rw [takeLine_ready _ h, State.withStation_of hw, taken_stationRecord, taken_reply]

theorem taken_linesRecords (s : State) (p : Port) (row : Instr) (keep : Line → Bool) : linesRecords (s.taken p row) keep = linesRecords s keep := by
  rw [linesRecords, State.taken_store, show lineRecord (s.taken p row) = lineRecord s from funext (taken_lineRecord s p row), linesRecords]

theorem exec_lines_ready (h : s.ready p (.lines p [])) :
    exec (.lines p []) s = .next (s.answered p (.lines p []) (.records (linesRecords s (fun _ => true)))) := by
  show Host.Outcome.next _ = _
  rw [takeLine_ready _ h]
  simp only [taken_linesRecords, taken_records]

theorem exec_linesIn_ready {w : Text} {k : LifecycleKind} (h : s.ready p (.lines p [w])) (hw : lifecycleKind? w = some k) :
    exec (.lines p [w]) s = .next (s.answered p (.lines p [w]) (.records (linesRecords s (Line.isIn k)))) := by
  show Host.Outcome.next _ = _
  rw [takeLine_ready _ h]
  simp only [hw, taken_linesRecords, taken_records]

end Rows

theorem Six.map_get {α : Type} (f : α → α) (t : Six α) (n : StationId) : (t.map f).get n = f (t.get n) := by
  cases n <;> rfl

theorem exec_zeroCounters_ready {p : Port} {s : State} (h : s.ready p (.zeroCounters p [])) : exec (.zeroCounters p []) s = .next
    { s.answered p (.zeroCounters p []) okReply with
      link := { s.link with bad := 0, fault := 0, unmatched := 0, foreign := 0, live := s.link.live.map zeroAccepted }
      chain := { s.chain with odoInvalid := 0 } } := by
  show Host.Outcome.next _ = _
  rw [takeLine_ready _ h, State.withNone_nil]
  cases p <;> rfl

/-! ## The fields of the records -/

theorem Station.data?_isSome (t : Station) : t.data?.isSome = (t != .undefined) := by
  cases t <;> rfl

theorem identRecord_eq (s : State) : identRecord s = [.word "IDENT", .word "VALJOWAN", .word "RKD620", natField Config.programVersion,
    natField s.store.lines.length, .num 40,
    natField (s.store.lines.map (fun l => l.profile.length + match l.staged? with
      | some g => g.profile.length
      | none => 0)).sum,
    .num 1536, natField (StationId.all.filter (fun n => s.store.stations.get n != .undefined)).length, .num 6,
    natField s.recheck.queue.length, .num 16, .num 64, .num 6, .num 2, .num 3, .num 160] := by
  rw [identRecord, show (fun n => (s.store.stations.get n).data?.isSome) = (fun n => s.store.stations.get n != .undefined) from
    funext fun n => (s.store.stations.get n).data?_isSome]
  rfl

theorem runRecord_idle {s : State} (h : s.context? = none) : runRecord s = [.word "RUN", .word "IDLE"] ++ List.replicate 18 noneField := by
  rw [runRecord, h]
  cases s.active? <;> rfl

theorem runRecord_active {s : State} {l : Line} {r : RunContext} (ha : s.active? = some l) (hr : l.run? = some r) :
    runRecord s = activeRunRecord s l r := by
  rw [runRecord, ha, State.context?_of ha hr]

theorem queueRecord_eq (s : State) : queueRecord s = [.word "QUEUE", natField s.recheck.queue.length] ++ s.recheck.queue.map natField
    ++ [optNat (s.recheck.inFlight.map (fun f => f.id)),
        (s.recheck.inFlight.map (fun f => Field.word (if f.origin = .queue then "QUEUE" else "SCAN"))).getD noneField,
        flagField s.recheck.scanPending, optNat s.recheck.scanPos, .word (if s.recheck.backlog then "ON" else "OFF")] := by
  have horigin : optWord (s.recheck.inFlight.map (fun f => originWord f.origin))
      = (s.recheck.inFlight.map (fun f => Field.word (if f.origin = .queue then "QUEUE" else "SCAN"))).getD noneField := by
    cases s.recheck.inFlight with
    | none => rfl
    | some f => cases h : f.origin <;> simp [optWord, originWord, h]
  rw [queueRecord, horigin]

theorem Station.correction_getD (t : Station) : t.correction = (t.data?.map (fun d => d.correction)).getD 0 := by
  cases t <;> rfl

theorem stationRecord_eq (s : State) (n : StationId) : let t := s.store.stations.get n
    let last := s.lastStrike? n
    stationRecord s n = [.word "STATION", .num n.number, .word t.word, optNat (t.data?.map (fun d => d.signature.toNat)),
      ((t.data?.bind (fun d => d.label)).map Field.label).getD noneField, .num ((t.data?.map (fun d => d.correction)).getD 0),
      natField (s.link.live.get n).accepted.toNat, (last.map (fun k => readingField k.reading)).getD noneField,
      optNat (last.map (fun k => s.time - k.time))] := by
  have hsig : optNum ((s.store.stations.get n).data?.map (fun d => (d.signature.toNat : Int)))
      = optNat ((s.store.stations.get n).data?.map (fun d => d.signature.toNat)) := by
    cases (s.store.stations.get n).data? <;> rfl
  rw [stationRecord, Station.correction_getD, hsig]
  rfl

theorem linesRecords_all (s : State) : linesRecords s (fun _ => true) = s.store.lines.map (lineRecord s) := by
  rw [linesRecords, List.filter_eq_self.mpr (fun _ _ => rfl)]

theorem settingRecords_eq (t : Settings) : settingRecords t = (([("MIN_FALL", .num t.minFall), ("JUNCTION_DROP", .num t.junctionDrop),
    ("MAST", .num t.mast), ("CLEAR_BAND", .num t.clearBand), ("ODO_SCALE", .num t.odoScale),
    ("ODO_DECODE", .word (match t.odoDecode with
      | .x1 => "1X"
      | .x2 => "2X"
      | .x4 => "4X")),
    ("SIG_MASK", .num t.sigMask.toNat), ("STRIKE_TIMEOUT", .num t.strikeTimeout), ("BACKUP", .num t.backup),
    ("HANDOFF_LEN", .num t.handoffLen), ("FREEZE_LEAD", .num t.freezeLead), ("GRADE_TOL", .num t.gradeTol),
    ("GRADE_COUNT", .num t.gradeCount),
    ("GRADE_EFFECT", .word (match t.gradeEffect with
      | .report => "REPORT"
      | .halt => "HALT")),
    ("COAST_LIMIT", .num t.coastLimit), ("GAIN", .num t.gain), ("DEADBAND", .num t.deadband),
    ("SLEW", .num t.slew), ("TIE_TOL", .num t.tieTol), ("HANDOFF_TOL", .num t.handoffTol),
    ("TRIM_RAMP", .num t.trimRamp), ("END_WARN", .num t.endWarn), ("CLAIM_LAPSE", .num t.claimLapse)]
    : List (String × Field)).map (fun e => [.word "SETTING", .word e.1, e.2])) := by
  have hdecode : valueField (.decode t.odoDecode) = .word (match t.odoDecode with
      | .x1 => "1X"
      | .x2 => "2X"
      | .x4 => "4X") := by
    cases t.odoDecode <;> rfl
  have heffect : valueField (.effect t.gradeEffect) = .word (match t.gradeEffect with
      | .report => "REPORT"
      | .halt => "HALT") := by
    cases t.gradeEffect <;> rfl
  rw [← hdecode, ← heffect]
  rfl

/-! ## How a reply is written (R167, R184) -/

theorem lineText_single (f : Field) : lineText [f] = f.text ++ ['\r', '\n'] := rfl

theorem lineText_cons (f g : Field) (fs : List Field) : lineText (f :: g :: fs) = f.text ++ ' ' :: lineText (g :: fs) := by
  show (f.text ++ ' ' :: joinWords ((g :: fs).map Field.text)) ++ ['\r', '\n'] = _
  rw [List.append_assoc, List.cons_append]
  rfl

theorem Reply.text_single {r : Reply} {fs : List Field} (h : r.lines = [fs]) : r.text = lineText fs := by
  rw [Reply.text, h]
  exact List.append_nil _

theorem Reply.text_records (rs : List (List Field)) :
    (Reply.records rs).text = lineText [.word "OK"] ++ (rs.map lineText).flatten ++ lineText [.word "."] := by
  show (([[Field.word "OK"]] ++ rs ++ [[Field.word "."]]).map lineText).flatten = _
  simp

theorem decimalInt_neg (n : Nat) : decimalInt (-((n : Int) + 1)) = '-' :: Nat.toDigits 10 (n + 1) := by
  rw [decimalInt, if_pos (by omega), show (-((n : Int) + 1)).natAbs = n + 1 by omega]
  rfl

/-- Settles O25: each row answers its record, and each record is its layout. -/
theorem readsAnswerTheirRecords : Obligations.ReadsAnswerTheirRecords := by
  unfold Obligations.ReadsAnswerTheirRecords
  intro none' nat optNat flag kinds mark
  refine ⟨?_, fun fs => Reply.text_single rfl, fun r fs => Reply.text_single rfl, Reply.text_records, lineText_single, lineText_cons,
    fun _ => rfl, fun _ => rfl, fun _ => rfl, decimalInt_neg, rfl, fun _ => rfl, fun _ => ⟨rfl, rfl, rfl⟩⟩
  intro p s answers
  refine ⟨fun h => ?_, fun hc h => ?_, fun l r ha hr h => ?_, fun h => ?_, fun h => ?_, fun h => ?_, fun h => ?_, ?_, fun h => ?_,
    fun w k hw h => exec_linesIn_ready h hw, fun h => ?_⟩
  · rw [exec_ident_ready h, identRecord_eq]
    rfl
  · rw [exec_run_ready h, runRecord_idle hc]
    rfl
  · rw [exec_run_ready h, runRecord_active ha hr]
    rfl
  · rw [exec_queue_ready h, queueRecord_eq]
    rfl
  · rw [exec_settings_ready h, settingRecords_eq] <;> rfl
  · rw [exec_events_ready h]
    rfl
  · rw [exec_counters_ready h]
    rfl
  · intro w n hw t last h
    rw [exec_stationRead_ready h hw, stationRecord_eq]
    rfl
  · rw [exec_lines_ready h, linesRecords_all]
  · refine ⟨_, exec_zeroCounters_ready h, rfl, rfl, rfl, rfl, rfl, fun n => ?_⟩
    rw [Six.map_get]
    rfl

end Sys2Proof.Machine
end

section
/-! PROOF. The reads of a line: LINE, PROFILE and SPANS (10.4; R169, R185). -/
namespace Sys2Proof.Machine

/-! ## The rows -/

section Rows
variable {p : Port} {w : Text} {id : Nat} {s : State}

theorem State.withLineId_of (h1 : 1 ≤ id) (h2 : id ≤ 999) (k : Nat → State) : s.withLineId p id k = k id := by
  rw [State.withLineId, lineId?_of_range (by omega) (by omega)]
  rfl

theorem exec_line_ready {rest : List Text} {c : Copy} (h : s.ready p (.line p (w :: rest))) (hw : number? w = some (id : Int)) (h1 : 1 ≤ id)
    (h2 : id ≤ 999) (hc : draftWord? rest = some c) :
    exec (.line p (w :: rest)) s = .next ((s.taken p (.line p (w :: rest))).readLine p c id) := by
  show Host.Outcome.next _ = _
  rw [takeLine_ready _ h]
  simp only [hw, hc, State.withLineId_of h1 h2]

theorem exec_spans_ready {rest : List Text} {c : Copy} (h : s.ready p (.spans p (w :: rest))) (hw : number? w = some (id : Int)) (h1 : 1 ≤ id)
    (h2 : id ≤ 999) (hc : copyOf? rest = some c) :
    exec (.spans p (w :: rest)) s = .next ((s.taken p (.spans p (w :: rest))).readSpans p c id) := by
  show Host.Outcome.next _ = _
  rw [takeLine_ready _ h]
  simp only [hw, hc, State.withLineId_of h1 h2]

theorem exec_profile_ready {wa wb : Text} {a b : Nat} {rest : List Text} {c : Copy} (h : s.ready p (.profile p (w :: wa :: wb :: rest)))
    (hw : number? w = some (id : Int)) (h1 : 1 ≤ id) (h2 : id ≤ 999) (ha : number? wa = some (a : Int)) (hb : number? wb = some (b : Int))
    (hab : a ≤ b) (hlast : b ≤ 63) (hc : copyOf? rest = some c) :
    exec (.profile p (w :: wa :: wb :: rest)) s = .next ((s.taken p (.profile p (w :: wa :: wb :: rest))).readProfile p c a b id) := by
  have hnumbers : numbers? [w, wa, wb] = some [(id : Int), (a : Int), (b : Int)] := numbers?_cons hw (numbers?_cons ha (numbers?_cons hb rfl))
  have hgood : goodIndexes a b = true := by
    simp only [goodIndexes, Bool.and_eq_true, within_iff, decide_eq_true_iff]
    omega
  show Host.Outcome.next _ = _
  rw [takeLine_ready _ h]
  simp only [hnumbers, hc, State.withLineId_of h1 h2, if_pos hgood, Int.toNat_natCast]

end Rows

/-! ## What the copies answer -/

/-- The reply to a read of a stored line. -/
def State.lineReply (s : State) (id : Nat) (rs : Line → List (List Field)) : Reply :=
  match s.line? id with
  | some l => .records (rs l)
  | none => .no .noline ((s.holder? id).map portField).toList

theorem taken_withLine (s : State) (p : Port) (row : Instr) (id : Nat) (rs : Line → List (List Field)) :
    (s.taken p row).withLine p id (fun l => (s.taken p row).records p (rs l)) = s.answered p row (s.lineReply id rs) := by
  rw [State.withLine, taken_line?, State.lineReply]
  cases s.line? id with
  | none =>
    simp only [State.noLine, taken_holder?, taken_reply]
  | some l =>
    simp only [taken_records]

/-- LINE of a stored line. -/
theorem taken_lineRead (s : State) (p : Port) (row : Instr) (id : Nat) :
    (s.taken p row).readLine p .current id = s.answered p row (s.lineReply id (fun l => [lineRecord s l])) := by
  show (s.taken p row).withLine p id (fun l => (s.taken p row).records p [lineRecord (s.taken p row) l]) = _
  simp only [taken_lineRecord]
  exact taken_withLine s p row id _

theorem taken_withOwnDraft {s : State} {p : Port} {id : Nat} {d : Draft} (hd : (s.port p).draft = some d) (hc : (s.port p).claim = some id)
    (row : Instr) (rs : Draft → List (List Field)) :
    (s.taken p row).withOwnDraft p id (fun d => (s.taken p row).records p (rs d)) = s.answered p row (.records (rs d)) := by
  simp only [State.withOwnDraft, State.taken_draft, State.taken_claim, hd, hc, if_true, taken_records]

theorem taken_withOwnDraft_none {s : State} {p : Port} {id : Nat} (h : (s.port p).draft = none ∨ (s.port p).claim ≠ some id)
    (row : Instr) (k : Draft → State) :
    (s.taken p row).withOwnDraft p id k = s.answered p row (noReply .nodraft) := by
  simp only [State.withOwnDraft, State.taken_draft, State.taken_claim, taken_no]
  cases hd : (s.port p).draft with
  | none => rfl
  | some d =>
    have hc : (s.port p).claim ≠ some id := h.resolve_left (by simp [hd])
    simp only [if_neg hc]

/-! ## The fields of the records -/

theorem draftRecords_eq (a b : Nat) (xs : List (Option Point)) : draftRecords a b xs
    = (xs.zipIdx.filter (fun e => inIndexes a b e.2)).filterMap (fun e => e.1.map (fun x => bpRecord e.2 x none)) := by
  rw [draftRecords, List.filterMap_filter]

theorem stagedFields_eq (s : State) (l : Line) : stagedFields s l = (match l.staged?, s.run.lastDrop with
    | some g, _ => [.word (if g.settled then "SETTLED" else "UNSETTLED"), noneField]
    | none, some d => if d.id = l.id then [.word "DROPPED", .word d.reason.word] else [noneField, noneField]
    | none, none => [noneField, noneField]) := by
  rw [stagedFields]
  cases l.staged? with
  | some g => rfl
  | none => cases s.run.lastDrop <;> rfl

theorem draftRecord_eq (id : Nat) (d : Draft) : draftRecord id d = [.word "DRAFT", natField id, (d.base.map (fun k => natField k.toNat)).getD noneField,
    optNat d.parent, optNum d.junction, optLabel d.label, natField d.first, natField d.last, natField d.cursor,
    natField (d.points.filter Option.isSome).length, natField (d.spans.filter Option.isSome).length] := by
  rw [draftRecord, length_present, length_present]
  rfl

theorem copyOf?_staged {c : Text} (h : isKeyword "STAGED" c = true) : copyOf? [c] = some .staged := if_pos h

theorem copyOf?_draft {c : Text} (h : isKeyword "DRAFT" c = true) : copyOf? [c] = some .draft := by
  have hstaged : isKeyword "STAGED" c = false := by
    rw [isKeyword, beq_iff_eq.mp h]
    decide
  simp only [copyOf?, hstaged, h, Bool.false_eq_true, if_false, if_true]

theorem draftWord?_draft {c : Text} (h : isKeyword "DRAFT" c = true) : draftWord? [c] = some .draft := if_pos h

/-- Settles O26: each row answers from the copy that its words name. -/
theorem lineReadsAnswer : Obligations.LineReadsAnswer := by
  unfold Obligations.LineReadsAnswer
  intro none' nat optNat' optInt label flag bp span within' p id w s hw h1 h2 answers noLine
  refine ⟨fun l => ?_, fun h => ?_, fun h => ?_, fun wa wb a b ha hb hab hlast h => ?_, fun c hc => ⟨fun h => ?_, fun wa wb a b ha hb hab hlast h => ?_⟩,
    fun c hc => ⟨fun hno => ⟨fun h => ?_, fun h => ?_, fun wa wb a b ha hb hab hlast h => ?_⟩,
      fun d hd hcl => ⟨fun h => ?_, fun h => ?_, fun wa wb a b ha hb hab hlast h => ?_⟩⟩⟩
  · rw [lineRecord, stagedFields_eq]
    rfl
  · rw [exec_line_ready h hw h1 h2 rfl]
    exact congrArg _ (taken_lineRead s p _ id)
  · rw [exec_spans_ready h hw h1 h2 rfl]
    exact congrArg _ (taken_withLine s p _ id _)
  · rw [exec_profile_ready h hw h1 h2 ha hb hab hlast rfl]
    exact congrArg _ (taken_withLine s p _ id _)
  · rw [exec_spans_ready h hw h1 h2 (copyOf?_staged hc)]
    exact congrArg _ (taken_withLine s p _ id _)
  · rw [exec_profile_ready h hw h1 h2 ha hb hab hlast (copyOf?_staged hc)]
    exact congrArg _ (taken_withLine s p _ id _)
  · rw [exec_line_ready h hw h1 h2 (draftWord?_draft hc)]
    exact congrArg _ (taken_withOwnDraft_none hno _ _)
  · rw [exec_spans_ready h hw h1 h2 (copyOf?_draft hc)]
    exact congrArg _ (taken_withOwnDraft_none hno _ _)
  · rw [exec_profile_ready h hw h1 h2 ha hb hab hlast (copyOf?_draft hc)]
    exact congrArg _ (taken_withOwnDraft_none hno _ _)
  · rw [exec_line_ready h hw h1 h2 (draftWord?_draft hc)]
    refine congrArg _ ((taken_withOwnDraft hd hcl _ (fun d => [draftRecord id d])).trans ?_)
    rw [draftRecord_eq]
    rfl
  · rw [exec_spans_ready h hw h1 h2 (copyOf?_draft hc)]
    exact congrArg _ (taken_withOwnDraft hd hcl _ (fun d => draftSpanRecords d.spans))
  · rw [exec_profile_ready h hw h1 h2 ha hb hab hlast (copyOf?_draft hc)]
    refine congrArg _ ((taken_withOwnDraft hd hcl _ (fun d => draftRecords a b d.points)).trans ?_)
    rw [draftRecords_eq]
    rfl

end Sys2Proof.Machine
end

section
/-! PROOF. The application of a staged revision (09; R157), and SETTLE while the run does not dig (R153). -/
namespace Sys2Proof.Machine

/-! ## The revision written -/

/-- The lines that an application marks: those that the change of the line marks, and the line itself unless it is CHECKED. -/
def State.hitByRevision (s : State) (l k : Line) : Bool := s.marksLine (.parent l.id) k || (k.id == l.id && l.status != .checked)

/-- The store with the lists replaced, before the marks. -/
def State.listsReplaced (s : State) (l : Line) (st : Staged) : State :=
  ((s.proceedChecks.updActive (fun k => k.applied st)).reach (.parent l.id)).discardCheck l.id

/-- The module once the lists are replaced and their marks made. -/
def State.replacedMarked (s : State) (l : Line) (st : Staged) : State := (s.listsReplaced l st).markLines (s.hitByRevision l)

/-- An application up to the move of the serving span: the lists, the marks, and steps 1 and 2 of R157. -/
def State.revisionWritten (s : State) (l : Line) (st : Staged) : State :=
  (s.replacedMarked l st).fitToLength l

theorem State.applyStaged_eq (s : State) (l : Line) (st : Staged) :
    s.applyStaged l st = ((s.revisionWritten l st).moveServing s.servingStation?).raise .revised := by
  rw [State.applyStaged]
  simp only [State.marksLine_proceedChecks]
  rfl

/-- The record that an application leaves of the ACTIVE line. -/
def Line.revised (l : Line) (st : Staged) : Line :=
  (l.applied st).updRun (fun r => { r with
    mark1 := keepMark (lengthOf st.profile) r.mark1
    mark2 := keepMark (lengthOf st.profile) r.mark2 })

theorem Line.updRun_revision (l : Line) (f : RunContext → RunContext) : (l.updRun f).revision = l.revision := by
  unfold Line.updRun
  split <;> rfl

theorem Line.revised_fields (l : Line) (st : Staged) : (l.revised st).id = l.id ∧ (l.revised st).spans = st.spans
    ∧ (l.revised st).revision = l.revision + 1 ∧ (l.revised st).staged? = none ∧ (l.revised st).profile = (l.applied st).profile
    ∧ (l.revised st).status = (if l.status = .checked then .checked else .stale) := by
  refine ⟨?_, ?_, ?_, ?_, ?_, ?_⟩
  · rw [Line.revised, Line.updRun_id, Line.applied_id]
  · rw [Line.revised, Line.updRun_spans]
    rfl
  · rw [Line.revised, Line.updRun_revision]
    rfl
  · rw [Line.revised, Line.updRun_staged?, Line.applied_staged?]
  · rw [Line.revised, Line.updRun_profile]
  · rw [Line.revised, Line.updRun_status]
    rfl

theorem Line.revised_run? {l : Line} {r : RunContext} (hr : l.run? = some r) (st : Staged) : (l.revised st).run? = some { r with
    mark1 := keepMark (lengthOf st.profile) r.mark1
    mark2 := keepMark (lengthOf st.profile) r.mark2 } := by
  rw [Line.revised, Line.updRun_run?, Line.applied_run?, hr]
  rfl

theorem State.listsReplaced_lines (s : State) (l : Line) (st : Staged) : (s.listsReplaced l st).store
    = { s.store with lines := s.store.lines.map (fun k => if k.isActive then k.applied st else k) } := rfl

theorem State.listsReplaced_keeps (s : State) (l : Line) (st : Staged) : s.keepsMachine (s.listsReplaced l st) []
    ∧ (s.listsReplaced l st).run = s.run :=
  ⟨State.keepsMachine_trans (State.keepsMachine_trans (State.keepsMachine_trans s.proceedChecks_keeps.2 (State.setLines_keeps _ _))
    (State.reach_keeps _ _).2.2) (State.keepsMachine_unitOnly (State.unitOnly_discardCheck _ _ _)).1, rfl⟩

theorem Line.applied_isActive (l : Line) (st : Staged) : (l.applied st).isActive = l.isActive := by
  rw [Line.isActive_run, Line.isActive_run, Line.applied_run?]

theorem State.listsReplaced_active? {s : State} {l : Line} (ha : s.active? = some l) (st : Staged) :
    (s.listsReplaced l st).active? = some (l.applied st) := by
  have h := State.updActive_active? (f := fun k => k.applied st) (fun k hk => (k.applied_isActive st).trans hk) s
  rw [ha] at h
  exact h

/-- No line has a staged revision once the lists are replaced. -/
theorem State.listsReplaced_staged? {s : State} {l : Line} {st : Staged} {k : Line} (hk : k ∈ (s.listsReplaced l st).store.lines) :
    k.staged? = none := by
  rw [State.listsReplaced_lines] at hk
  obtain ⟨m, -, rfl⟩ := List.mem_map.mp hk
  split
  · exact Line.applied_staged?
  · rename_i hm
    exact Line.staged?_of_not_active (Bool.not_eq_true _ ▸ hm)

theorem Line.applied_marked {l : Line} {st : Staged} (h : l.status ≠ .checked) : (l.applied st).marked = l.applied st := by
  have hstaged : (l.applied st).setStaged none = l.applied st := by
    cases hl : l.lifecycle <;> simp [Line.applied, Line.setStaged, hl]
  rw [Line.marked, hstaged]
  simp [Line.applied, h]

theorem State.hitByRevision_applied {s : State} {l : Line} (hself : s.marksLine (.parent l.id) l = false) (st : Staged) :
    s.hitByRevision l (l.applied st) = (l.status != .checked) := by
  have hmark : s.marksLine (.parent l.id) (l.applied st) = s.marksLine (.parent l.id) l := by
    rw [State.marksLine, State.marksLine, l.applied_id st]
    have hline : Change.hitsLine (.parent l.id) (l.applied st) = Change.hitsLine (.parent l.id) l := by
      show ((l.applied st).outlet.map (fun o => o.parent) == _) = _
      rw [Line.applied_outlet]
      rfl
    rw [hline]
  rw [State.hitByRevision, hmark, hself, l.applied_id st]
  simp

theorem Line.applied_takesMarks {l : Line} (h : l.isActive = true) (st : Staged) : (l.applied st).takesMarks = true :=
  Line.takesMarks_iff.mpr (.inr (beq_iff_eq.mp ((l.applied_isActive st).trans h)))

/-- The ACTIVE line after the marks: the mark of an applied line that is not CHECKED changes nothing more. -/
theorem State.replacedMarked_active? {s : State} {l : Line} (ha : s.active? = some l) (hself : s.marksLine (.parent l.id) l = false)
    (st : Staged) : ((s.listsReplaced l st).markLines (s.hitByRevision l)).active? = some (l.applied st) := by
  rw [State.markLines_active? (State.listsReplaced_active? ha st)]
  split
  · rename_i h
    rw [Line.takesMark, State.hitByRevision_applied hself, Bool.and_eq_true, bne_iff_ne] at h
    rw [Line.applied_marked h.2]
  · rfl

/-- What of the chain an application leaves: the end-warning flag goes where the length changes and F is below the new point. -/
def Chain.fitted (k : Chain) (changed : Bool) (f : Option Int) (point : Int) : Chain :=
  { k with endWarned := k.endWarned && !(changed && f.all (fun f => decide (f < point))) }

theorem State.fitToLength_eq {w : State} {k : Line} (h : w.active? = some k) (old : Line) : w.fitToLength old =
    { w.updRun (fun r => { r with mark1 := keepMark k.length r.mark1, mark2 := keepMark k.length r.mark2 }) with
      chain := w.chain.fitted (decide (k.length ≠ old.length)) w.furthest? (k.length - w.settings.endWarn) } := by
  have hpoint : w.endWarningPoint k = k.length - w.settings.endWarn := rfl
  rw [State.fitToLength, h]
  dsimp only
  rw [hpoint]
  split
  · rename_i hc
    rw [Chain.fitted, hc.2, decide_eq_true hc.1]
    simp
    rfl
  · rename_i hc
    have hstands : (decide (k.length ≠ old.length) && w.furthest?.all (fun f => decide (f < k.length - w.settings.endWarn))) = false := by
      rw [← Bool.not_eq_true, Bool.and_eq_true, decide_eq_true_iff]
      exact hc
    rw [Chain.fitted, hstands, Bool.not_false, Bool.and_true]
    rfl

theorem State.replacedMarked_keeps (s : State) (l : Line) (st : Staged) : s.keepsMachine (s.replacedMarked l st) [.backlog, .swept]
    ∧ (s.replacedMarked l st).run = s.run ∧ (s.replacedMarked l st).store.stations = s.store.stations
    ∧ (s.replacedMarked l st).settings = s.settings := by
  obtain ⟨h1, h2⟩ := s.listsReplaced_keeps l st
  obtain ⟨q1, q2⟩ := State.markLines_quiet (s.listsReplaced l st) (s.hitByRevision l) (fun k hk _ _ => State.listsReplaced_staged? hk)
  obtain ⟨m1, m2⟩ := State.markLines_store (s.listsReplaced l st) (s.hitByRevision l)
  exact ⟨State.keepsMachine_trans (State.keepsMachine_mono h1 (by simp)) q2, q1.trans h2, m1, m2⟩

theorem State.replacedMarked_lines (s : State) (l : Line) (st : Staged) : (s.replacedMarked l st).store.lines = s.store.lines.map (fun k =>
    let k' := if k.isActive then k.applied st else k
    if k'.takesMarks && s.hitByRevision l k' then { k'.setStaged none with status := .stale } else k') := by
  have h := (State.markLines_marked (s.listsReplaced l st) (s.hitByRevision l)).1
  rw [s.listsReplaced_lines l st] at h
  exact h.trans List.map_map

theorem State.listsReplaced_reaches (s : State) (l : Line) (st : Staged) : s.reaches (s.replacedMarked l st) (.parent l.id) := by
  have hid : ∀ k : Line, (if k.isActive then k.applied st else k).id = k.id := fun k => by
    split
    · exact k.applied_id st
    · rfl
  have hhit : ∀ k : Line, Change.hitsLine (.parent l.id) (if k.isActive then k.applied st else k) = Change.hitsLine (.parent l.id) k := fun k => by
    split
    · show ((k.applied st).outlet.map (fun o => o.parent) == _) = _
      rw [Line.applied_outlet]
      rfl
    · rfl
  have hreach : s.reaches (((s.proceedChecks.updActive (fun k => k.applied st))).reach (.parent l.id)) (.parent l.id) := by
    refine State.reaches_of_lines (u := s.proceedChecks.updActive (fun k => k.applied st)) (fun q => s.proceedChecks_ports q) (fun q k _ _ => ?_)
      (State.reach_reaches _ _)
    rw [State.line?_map hid (s := s) rfl k]
    cases s.store.line? k with
    | none => exact Iff.rfl
    | some m => simp [hhit m]
  exact State.reaches_commits hreach (fun q => (State.markLines_commit _ _ q).trans
    (State.unitOnly_commit (State.unitOnly_discardCheck _ l.id []) q))

/-- A check of the line in flight is discarded, and any that a pass begins then finds the line marked (R87, R157). -/
theorem State.replacedMarked_discards {s : State} {l : Line} (hids : s.store.idsAscending) (ha : s.active? = some l)
    (hself : s.marksLine (.parent l.id) l = false) (st : Staged) :
    ∀ f ∈ (s.replacedMarked l st).recheck.inFlight, f.id = l.id → f.discard = true := by
  obtain ⟨hmem, hact⟩ := State.active?_mem ha
  have hlines := s.listsReplaced_lines l st
  have happlied : l.applied st ∈ (s.listsReplaced l st).store.lines := by
    rw [hlines]
    exact List.mem_map.mpr ⟨l, hmem, if_pos hact⟩
  intro f hf hid
  by_cases hch : l.status = .checked
  · rcases State.markLines_inFlight (s.listsReplaced l st) (s.hitByRevision l) f hf with ⟨g, hg, hgid, hdis⟩ | ⟨k, hk, hkid, hstale⟩
    · refine hdis ?_
      obtain ⟨g', -, hg'⟩ := Option.map_eq_some_iff.mp
        (show (((s.proceedChecks.updActive (fun k => k.applied st)).reach (.parent l.id)).recheck.inFlight.map
          (fun f => if f.id = l.id then { f with discard := true } else f)) = some g from hg)
      split at hg'
      · rw [← hg']
      · rename_i hne
        exact absurd (by rw [hg', ← hgid, hid]) hne
    · rw [hlines] at hk
      obtain ⟨m, hm, rfl⟩ := List.mem_map.mp hk
      have hmid : m.id = l.id := by
        rw [← hid, ← hkid]
        split
        · exact (m.applied_id st).symm
        · rfl
      have hml : m = l := Store.eq_of_id hids hm hmem hmid
      rw [hml, if_pos hact] at hstale
      rw [show (l.applied st).status = if l.status = .checked then .checked else .stale from rfl, if_pos hch] at hstale
      cases hstale
  · refine ((State.markLines_marked (s.listsReplaced l st) (s.hitByRevision l)).2.1 (l.applied st) happlied (Line.applied_takesMarks hact st)
      ?_).2 f hf ?_
    · rw [State.hitByRevision_applied hself, bne_iff_ne]
      exact hch
    · rw [l.applied_id st]
      exact hid

theorem State.revisionWritten_eq {s : State} {l : Line} (ha : s.active? = some l) (hself : s.marksLine (.parent l.id) l = false) (st : Staged) :
    s.revisionWritten l st = { (s.replacedMarked l st).updRun (fun r => { r with
        mark1 := keepMark (lengthOf st.profile) r.mark1
        mark2 := keepMark (lengthOf st.profile) r.mark2 }) with
      chain := s.chain.fitted (decide (lengthOf st.profile ≠ l.length)) s.furthest? (lengthOf st.profile - s.settings.endWarn) } := by
  obtain ⟨⟨-, -, -, -, hchain, -⟩, -, -, hsettings⟩ := s.replacedMarked_keeps l st
  have hact : (s.replacedMarked l st).active? = some (l.applied st) := State.replacedMarked_active? ha hself st
  have hlength : (l.applied st).length = lengthOf st.profile := congrArg lengthOf (l.applied_points st)
  have hf : (s.replacedMarked l st).furthest? = s.furthest? := by
    rw [State.furthest?, State.furthest?, State.context?, State.context?, hact, ha, Option.bind_some, Option.bind_some, Line.applied_run?]
  rw [State.revisionWritten, State.fitToLength_eq hact, hlength, hf]
  show ({ (s.replacedMarked l st).updRun _ with
    chain := (s.replacedMarked l st).chain.fitted _ _ (_ - (s.replacedMarked l st).settings.endWarn) } : State) = _
  rw [hchain, hsettings]

theorem State.revisionWritten_active? {s : State} {l : Line} (ha : s.active? = some l) (hself : s.marksLine (.parent l.id) l = false)
    (st : Staged) : (s.revisionWritten l st).active? = some (l.revised st) := by
  rw [State.revisionWritten_eq ha hself]
  refine (State.updRun_active? (s.replacedMarked l st) _).trans ?_
  rw [show (s.replacedMarked l st).active? = some (l.applied st) from State.replacedMarked_active? ha hself st]
  rfl

/-- Out of CUTTING the move of the serving span writes the evaluator alone (R134, R135). -/
theorem State.moveServing_evaluator {s : State} (h : s.runState? ≠ some .cutting) (held : Option StationId) :
    ∃ e : Evaluator, s.moveServing held = { s with eval := e }
      ∧ e.serving = if s.chain.known then some (spanIndex s.spanList s.chainage) else none := by
  unfold State.moveServing
  split
  · dsimp only
    split
    · rename_i hserve
      exact ⟨s.eval, rfl, hserve.1⟩
    · rw [State.afterSwitch_of_not_cutting (by exact h)]
      exact ⟨_, rfl, rfl⟩
  · split
    · exact ⟨_, rfl, rfl⟩
    · rename_i hnone
      exact ⟨s.eval, rfl, by simpa using hnone⟩

/-! ## SETTLE while the run does not dig (R153) -/

theorem keepMark_eq_filter (n : Int) (m : Option Mark) : keepMark n m = m.filter (fun k => decide (k.chainage < n)) := by
  cases m with
  | none => rfl
  | some k =>
    by_cases h : n ≤ k.chainage
    · simp [keepMark, Option.filter, h]
    · simp [keepMark, Option.filter, h, not_le.mp h]

theorem Line.applied_closure (l : Line) (st : Staged) (i : Nat) : ((l.applied st).profile[i]?).bind (fun b => b.closure) =
    if i < st.profile.length then (l.profile[i]?).bind (fun b => b.closure) else none := by
  rw [Line.applied_profile_getElem?]
  split
  · rename_i h
    rw [List.getElem?_eq_getElem h]
    rfl
  · rename_i h
    rw [List.getElem?_eq_none (l := st.profile) (by omega)]
    rfl

/-- A line that is not ACTIVE takes the marks of the change, and nothing else of an application. -/
theorem State.replacedMarked_other {s : State} {l : Line} (hids : s.store.idsAscending) (ha : s.active? = some l)
    {m : Line} (hm : m ∈ s.store.lines) (hact : m.isActive = false) :
    s.hitByRevision l m = s.marksLine (.parent l.id) m := by
  obtain ⟨hl, hlact⟩ := State.active?_mem ha
  have hne : m.id ≠ l.id := fun h => by
    rw [Store.eq_of_id hids hm hl h, hlact] at hact
    cases hact
  rw [State.hitByRevision, beq_eq_false_iff_ne.mpr hne, Bool.false_and, Bool.or_false]

theorem exec_settleNow {s : State} {l : Line} {r : RunContext} {st : Staged} (h : s.ready .cab (.settle .cab [])) (ha : s.active? = some l)
    (hr : l.run? = some r) (hst : l.staged? = some st) (hd : s.digging = false) :
    exec (.settle .cab []) s = .next (let u := s.taken .cab (.settle .cab [])
      if meetsFreeze s.store l r.furthest st.profile st.spans then (u.applyStaged l st).ok .cab [.word "REVISED", countField (l.revision + 1)]
      else (u.dropStaged l .frozen).no .cab .frozen) := by
  have hf : (s.taken .cab (.settle .cab [])).furthest? = r.furthest := by
    rw [taken_furthest?, State.furthest?, State.context?_of ha hr]
    rfl
  rw [exec_settle_ready h ha hst]
  simp only [hd, Bool.false_eq_true, if_false, State.settleNow, State.applyOrDrop, State.taken_store, hf]
  split <;> rfl

/-- The end of an application that SETTLE makes: the evaluator's span, REVISED, and the reply. -/
theorem State.revisedOk_fields (w : State) (e : Evaluator) (fs : List Field) : let t := (({ w with eval := e } : State).raise .revised).ok .cab fs
    t.active? = w.active? ∧ t.store = w.store ∧ t.chain = w.chain ∧ t.run = w.run ∧ t.eval = e ∧ t.recheck = w.recheck
      ∧ t.cab.hand = .sending w.cab.hand.command? (.ok fs) ∧ (∀ q : Port, (t.port q).commit = (w.port q).commit)
      ∧ ∀ (q : Port) (k : EventKind), k ∈ (t.port q).events ↔ k = .revised ∨ k ∈ (w.port q).events := by
  refine ⟨rfl, rfl, rfl, rfl, rfl, rfl, rfl, fun q => by cases q <;> rfl, fun q k => ?_⟩
  rw [State.ok, State.reply_events, State.mem_raise]
  cases q <;> exact Iff.rfl

/-- Settles O55: the revision written, the serving span moved, REVISED raised. -/
theorem settleAppliesAtOnce : Obligations.SettleAppliesAtOnce := by
  intro l r st s hids h ha hr hst hd
  have hexec := exec_settleNow h ha hr hst hd
  refine ⟨fun hno => ?_, fun hmeets hself => ?_⟩
  · rw [hexec, hno]
    exact congrArg _ (taken_dropStaged_reply s .cab _ l .frozen (noReply .frozen))
  · intro length fits
    rw [hmeets] at hexec
    simp only [if_true] at hexec
    let u := s.taken .cab (.settle .cab [])
    have hua : u.active? = some l := (taken_active? ..).trans ha
    have huself : u.marksLine (.parent l.id) l = false := (congrFun (s.marksLine_taken .cab _ _) l).trans hself
    have hustore : u.store = s.store := State.taken_store ..
    have huids : u.store.idsAscending := hustore ▸ hids
    have hmarks : u.marksLine (.parent l.id) = s.marksLine (.parent l.id) := s.marksLine_taken .cab _ _
    obtain ⟨X, hX⟩ : ∃ X, X = u.replacedMarked l st := ⟨_, rfl⟩
    obtain ⟨w, hw⟩ : ∃ w, w = u.revisionWritten l st := ⟨_, rfl⟩
    have hwa : w.active? = some (l.revised st) := hw ▸ State.revisionWritten_active? hua huself st
    have hweq := hw.trans (State.revisionWritten_eq hua huself st)
    rw [← hX, show u.furthest? = r.furthest by rw [taken_furthest?, State.furthest?, State.context?_of ha hr]; rfl,
      show u.chain = s.chain from State.taken_chain .., show u.settings = s.settings from State.taken_settings ..] at hweq
    obtain ⟨⟨-, -, -, -, -, -, -, -, kports, kraises⟩, krun, kstations, ksettings⟩ := u.replacedMarked_keeps l st
    have klines := u.replacedMarked_lines l st
    have kqueue := (State.markLines_marked (u.listsReplaced l st) (u.hitByRevision l)).2.1
    have kflight := State.replacedMarked_discards huids hua huself st
    have kreach := u.listsReplaced_reaches l st
    rw [← State.replacedMarked] at kqueue
    rw [← hX] at kports kraises krun kstations ksettings klines kqueue kflight kreach
    obtain ⟨hid, hspans, hrevision, hstaged, hprofile, hstatus⟩ := l.revised_fields st
    have hnot : w.runState? ≠ some .cutting := by
      rw [State.runState?_of hwa (Line.revised_run? hr st)]
      intro hc
      have hdig := (State.digging_iff s).mpr (.inl ((State.runState?_of ha hr).trans hc))
      rw [hd] at hdig
      cases hdig
    obtain ⟨e, hmove, hserving⟩ := State.moveServing_evaluator hnot u.servingStation?
    rw [State.applyStaged_eq, ← hw, hmove] at hexec
    obtain ⟨ta, tstore, tchain, trun, teval, trecheck, thand, tcommit, tevents⟩ :=
      w.revisedOk_fields e [.word "REVISED", countField (l.revision + 1)]
    have hwport : ∀ q : Port, w.port q = X.port q := fun q => by
      rw [hweq]
      cases q <;> rfl
    have hwlines : w.store.lines = X.store.lines.map (fun k => if k.isActive then k.updRun (fun r => { r with
        mark1 := keepMark (lengthOf st.profile) r.mark1
        mark2 := keepMark (lengthOf st.profile) r.mark2 }) else k) := by
      rw [hweq]
      rfl
    refine ⟨_, _, hexec, ?_, ta.trans hwa, hid, hspans, hrevision, hstaged, ?_, fun i => ?_, hstatus, ?_, ?_, ?_, ?_, ?_, ?_, ?_,
      fun i m hm hact => ?_, fun m hm hor => ?_, ?_, ?_, ?_, fun q => ?_⟩
    · have hhand : w.cab.hand = .waiting (.settle .cab []) := (congrArg PortState.hand (hwport .cab)).trans (kports .cab).2.1
      rw [thand, hhand]
      rfl
    · rw [Line.points, hprofile]
      exact l.applied_points st
    · rw [hprofile]
      exact l.applied_closure st i
    · rw [Line.revised_run? hr, keepMark_eq_filter, keepMark_eq_filter]
    · rw [tchain, hweq]
      rfl
    · rw [teval, hserving, State.spanList_of hwa, hspans, State.chainage, hweq]
      rfl
    · rw [trun, hweq]
      exact krun
    · rw [tstore, hweq]
      exact kstations
    · rw [State.settings, tstore, hweq]
      exact ksettings
    · rw [tstore, hwlines, List.length_map, klines, List.length_map]
      rfl
    · have hother := State.replacedMarked_other huids hua (hustore ▸ List.mem_of_getElem? hm) hact
      rw [tstore, hwlines, klines, List.map_map, List.getElem?_map, hustore, hm, Option.map_some]
      simp only [Function.comp_apply, hact, Bool.false_eq_true, if_false, hother, hmarks]
      refine congrArg some (if_neg ?_)
      rw [Bool.not_eq_true]
      split
      · exact (m.setStaged_isActive none).trans hact
      · exact hact
    · have hreplaced := fun k (hk : k ∈ s.store.lines) => List.mem_map_of_mem (f := fun k => if k.isActive then k.applied st else k) hk
      rw [trecheck, hweq]
      show (m.id ∈ X.recheck.queue ∨ X.recheck.scanPending = true) ∧ ∀ f ∈ X.recheck.inFlight, f.id = m.id → f.discard = true
      rcases hor with ⟨hact, htakes, hhit⟩ | ⟨rfl, hch⟩
      · refine kqueue m ?_ htakes ?_
        · have hk := hreplaced m hm
          rw [hact] at hk
          rw [u.listsReplaced_lines, hustore]
          exact hk
        · rw [State.replacedMarked_other huids hua (hustore ▸ hm) hact, hmarks]
          exact hhit
      · have hact := (State.active?_mem ha).2
        have hq := kqueue (m.applied st) ?_ (Line.applied_takesMarks hact st) ?_
        · rw [m.applied_id st] at hq
          exact hq
        · have hk := hreplaced m hm
          rw [if_pos hact] at hk
          rw [u.listsReplaced_lines, hustore]
          exact hk
        · rw [State.hitByRevision_applied huself, bne_iff_ne]
          exact hch
    · rw [trecheck, hweq]
      exact kflight
    · exact State.reaches_of_taken (State.reaches_commits kreach (fun q => (tcommit q).trans (congrArg PortState.commit (hwport q))))
    · intro q k hk
      have hne : k ≠ .revised := fun h => hk (by simp [h])
      rw [tevents, or_iff_right hne, hwport, kraises q k (fun h => hk (List.mem_cons_of_mem _ h)), State.taken_events]
    · exact (tevents q .revised).mpr (.inl rfl)

end Sys2Proof.Machine
end

section
/-! PROOF. What the Run controller's own work leaves of the module, and the hand-on of a new F (06, 07; R100, R125, R129, R145). -/
namespace Sys2Proof.Machine

/-! ## What the work of a run changes -/

/-- Of the module only the run, the evaluator, the chain, the lines and the event sets have changed, and no event but these kinds is raised. -/
def State.runsTo (s t : State) (ks : List EventKind) : Prop :=
  t.powered = s.powered ∧ t.resetLow = s.resetLow ∧ t.time = s.time ∧ t.link = s.link ∧ t.recheck = s.recheck ∧ t.pending = s.pending
    ∧ t.store.stations = s.store.stations ∧ t.settings = s.settings ∧ (∀ q : Port, t.port q = { s.port q with events := (t.port q).events })
    ∧ s.raisesOnly t ks ∧ s.eventsStay t

theorem State.runsTo_refl (s : State) (ks : List EventKind) : s.runsTo s ks :=
  ⟨rfl, rfl, rfl, rfl, rfl, rfl, rfl, rfl, fun _ => rfl, fun _ _ _ => Iff.rfl, fun _ _ h => h⟩

theorem State.runsTo.trans {s t u : State} {ks : List EventKind} (h : s.runsTo t ks) (h' : t.runsTo u ks) : s.runsTo u ks := by
  obtain ⟨a1, a2, a3, a4, a5, a6, a7, a8, a9, a10, a11⟩ := h
  obtain ⟨b1, b2, b3, b4, b5, b6, b7, b8, b9, b10, b11⟩ := h'
  refine ⟨b1.trans a1, b2.trans a2, b3.trans a3, b4.trans a4, b5.trans a5, b6.trans a6, b7.trans a7, b8.trans a8, fun q => ?_,
    fun q k hk => (b10 q k hk).trans (a10 q k hk), fun q k hk => b11 q k (a11 q k hk)⟩
  have h1 := b9 q
  rw [a9 q] at h1
  exact h1

theorem State.runsTo.mono {s t : State} {ks ks' : List EventKind} (h : s.runsTo t ks) (hsub : ∀ k ∈ ks, k ∈ ks') : s.runsTo t ks' := by
  obtain ⟨a1, a2, a3, a4, a5, a6, a7, a8, a9, a10, a11⟩ := h
  exact ⟨a1, a2, a3, a4, a5, a6, a7, a8, a9, State.raisesOnly_mono a10 hsub, a11⟩

theorem State.runsTo.raises {s t : State} {ks : List EventKind} (h : s.runsTo t ks) : s.raisesOnly t ks := h.2.2.2.2.2.2.2.2.2.1

theorem State.runsTo.stays {s t : State} {ks : List EventKind} (h : s.runsTo t ks) : s.eventsStay t := h.2.2.2.2.2.2.2.2.2.2

theorem State.runsTo.settings {s t : State} {ks : List EventKind} (h : s.runsTo t ks) : t.settings = s.settings := h.2.2.2.2.2.2.2.1

/-- A kind that the work does not raise is set after it if it was before. -/
theorem State.runsTo.event_iff {s t : State} {ks : List EventKind} (h : s.runsTo t ks) (q : Port) {k : EventKind} (hk : k ∉ ks) :
    k ∈ (t.port q).events ↔ k ∈ (s.port q).events := h.raises q k hk

theorem State.runsTo.keeps {s t : State} {ks : List EventKind} (h : s.runsTo t ks) (q : Port) : (s.port q).keeps (t.port q) := by
  obtain ⟨-, -, -, -, -, -, -, -, hp, -, -⟩ := h
  rw [hp q]
  exact ⟨rfl, rfl, rfl, rfl, rfl, rfl, rfl, rfl⟩

section Steps
variable (s : State) {ks : List EventKind}

theorem State.runsTo_updActive (f : Line → Line) : s.runsTo (s.updActive f) ks :=
  ⟨rfl, rfl, rfl, rfl, rfl, rfl, rfl, rfl, fun q => by cases q <;> rfl, fun q _ _ => by cases q <;> exact Iff.rfl, fun q _ h => by cases q <;> exact h⟩

theorem State.runsTo_updRun (f : RunContext → RunContext) : s.runsTo (s.updRun f) ks := s.runsTo_updActive _

theorem State.runsTo_updRunUnit (f : RunUnit → RunUnit) : s.runsTo (s.updRunUnit f) ks :=
  ⟨rfl, rfl, rfl, rfl, rfl, rfl, rfl, rfl, fun q => by cases q <;> rfl, fun q _ _ => by cases q <;> exact Iff.rfl, fun q _ h => by cases q <;> exact h⟩

theorem State.runsTo_updEval (f : Evaluator → Evaluator) : s.runsTo (s.updEval f) ks :=
  ⟨rfl, rfl, rfl, rfl, rfl, rfl, rfl, rfl, fun q => by cases q <;> rfl, fun q _ _ => by cases q <;> exact Iff.rfl, fun q _ h => by cases q <;> exact h⟩

theorem State.runsTo_updChain (f : Chain → Chain) : s.runsTo (s.updChain f) ks :=
  ⟨rfl, rfl, rfl, rfl, rfl, rfl, rfl, rfl, fun q => by cases q <;> rfl, fun q _ _ => by cases q <;> exact Iff.rfl, fun q _ h => by cases q <;> exact h⟩

theorem State.runsTo_raise {e : EventKind} (he : e ∈ ks) : s.runsTo (s.raise e) ks :=
  ⟨rfl, rfl, rfl, rfl, rfl, rfl, rfl, rfl, fun q => by cases q <;> rfl,
    fun _ k hk => State.mem_raise.trans (or_iff_right (fun h => hk (h ▸ he))), fun _ _ h => State.mem_raise.mpr (.inr h)⟩

theorem State.runsTo_changeRun (r : RunState) (hrun : .run ∈ ks) (hhalt : (∃ h, r = .halted h) → .halt ∈ ks) (hcoast : r = .coasting → .coast ∈ ks) :
    s.runsTo (s.changeRun r) ks := by
  have hbase : s.runsTo ((((s.updRun (fun c => { c with state := r })).updRunUnit (fun u => { u with timer := none })).updEval
      (fun e => { e with drive := 0 })).raise .run) ks :=
    (((s.runsTo_updRun _).trans (State.runsTo_updRunUnit _ _)).trans (State.runsTo_updEval _ _)).trans (State.runsTo_raise _ hrun)
  cases r with
  | halted h => exact hbase.trans (State.runsTo_raise _ (hhalt ⟨h, rfl⟩))
  | coasting => exact hbase.trans (State.runsTo_raise _ (hcoast rfl))
  | armed => exact hbase
  | cutting => exact hbase
  | suspended _ => exact hbase

end Steps

/-! ## The hand-on, step by step -/

/-- A line that is not ACTIVE stands in the table. -/
def State.othersStand (s t : State) : Prop := ∀ m ∈ s.store.lines, m.isActive = false → m ∈ t.store.lines

theorem State.othersStand_refl (s : State) : s.othersStand s := fun _ h _ => h

theorem State.othersStand.trans {s t u : State} (h : s.othersStand t) (h' : t.othersStand u) : s.othersStand u :=
  fun m hm hact => h' m (h m hm hact) hact

theorem State.othersStand_of_lines {s t : State} (h : t.store.lines = s.store.lines) : s.othersStand t := fun _ hm _ => h ▸ hm

theorem State.othersStand_updActive (s : State) (f : Line → Line) : s.othersStand (s.updActive f) :=
  fun m hm hact => List.mem_map.mpr ⟨m, hm, if_neg (by simp [hact])⟩

theorem State.othersStand_changeRun (s : State) (r : RunState) : s.othersStand (s.changeRun r) := by
  have h : (s.changeRun r).store.lines = (s.updRun (fun c => { c with state := r })).store.lines := congrArg Store.lines (s.changeRun_store r)
  intro m hm hact
  rw [h]
  exact s.othersStand_updActive _ m hm hact

theorem closeEnded_of_none {bs : List Breakpoint} {backup f : Int} (h : bs.zipIdx.any (fun e => closesAt bs e.2 e.1 backup f) = false) :
    closeEnded bs backup f = bs := by
  rw [closeEnded]
  refine (List.map_congr_left (g := Prod.fst) fun e he => if_neg ?_).trans (List.zipIdx_map_fst 0 bs)
  rw [List.any_eq_false] at h
  exact h e he

theorem any_closesAt {bs : List Breakpoint} {backup f : Int} : bs.zipIdx.any (fun e => closesAt bs e.2 e.1 backup f) = true
    ↔ ∃ i b, bs[i]? = some b ∧ closesAt bs i b backup f = true := by
  rw [List.any_eq_true]
  constructor
  · rintro ⟨⟨b, i⟩, he, hc⟩
    exact ⟨i, b, List.mem_zipIdx_iff_getElem?.mp he, hc⟩
  · rintro ⟨i, b, hb, hc⟩
    exact ⟨(b, i), List.mem_zipIdx_iff_getElem?.mpr hb, hc⟩

/-- The segments that a new F brings to their end plus BACKUP are closed (R129). -/
theorem State.closePassed_spec {s : State} {m : Line} (ha : s.active? = some m) (c : Int) : let t := s.closePassed c
    s.runsTo t [.close] ∧ t.chain = s.chain ∧ t.run = s.run ∧ t.eval = s.eval ∧ s.othersStand t
      ∧ t.active? = some (m.closePassed s.settings.backup c)
      ∧ ∀ q : Port, .close ∈ (t.port q).events ↔ .close ∈ (s.port q).events
          ∨ ∃ i b, m.profile[i]? = some b ∧ closesAt m.profile i b s.settings.backup c = true := by
  intro t
  have ht : t = if m.profile.zipIdx.any (fun e => closesAt m.profile e.2 e.1 s.settings.backup c) then
      (s.updActive (fun l => { l with profile := closeEnded l.profile s.settings.backup c })).raise .close else s := by
    show s.closePassed c = _
    rw [State.closePassed, ha]
  by_cases hany : m.profile.zipIdx.any (fun e => closesAt m.profile e.2 e.1 s.settings.backup c) = true
  · rw [if_pos hany] at ht
    rw [ht]
    refine ⟨(s.runsTo_updActive _).trans (State.runsTo_raise _ (by simp)), rfl, rfl, rfl, s.othersStand_updActive _, ?_, fun q => ?_⟩
    · refine (State.updActive_active? (s := s) (f := fun l => { l with profile := closeEnded l.profile s.settings.backup c }) (fun _ h => h)).trans ?_
      rw [ha]
      rfl
    · exact iff_of_true (State.mem_raise.mpr (.inl rfl)) (.inr (any_closesAt.mp hany))
  · rw [if_neg hany] at ht
    rw [ht]
    refine ⟨s.runsTo_refl _, rfl, rfl, rfl, s.othersStand_refl, ?_, fun q => (or_iff_left fun h => hany (any_closesAt.mpr h)).symm⟩
    rw [ha, Line.closePassed, closeEnded_of_none (Bool.not_eq_true _ ▸ hany)]

/-- The coast distance counted, and the limit tested in COASTING (R125). -/
theorem State.addCoast_spec {s : State} {m : Line} {r : RunContext} (ha : s.active? = some m) (hr : m.run? = some r) (d : Int) :
    let u := s.updRunUnit (fun u => { u with coast := u.coast + d })
    (r.state = .coasting ∧ s.settings.coastLimit ≤ s.run.coast + d → s.addCoast d = u.changeRun (.halted .coast))
      ∧ (¬(r.state = .coasting ∧ s.settings.coastLimit ≤ s.run.coast + d) → s.addCoast d = u) := by
  intro u
  have hcond : (u.runState? == some .coasting && decide (u.settings.coastLimit ≤ u.run.coast)) = true
      ↔ r.state = .coasting ∧ s.settings.coastLimit ≤ s.run.coast + d := by
    have hstate : u.runState? = some r.state := State.runState?_of (s := s) ha hr
    rw [Bool.and_eq_true, decide_eq_true_iff, hstate, beq_iff_eq, Option.some_inj]
    exact Iff.rfl
  exact ⟨fun h => if_pos (hcond.mpr h), fun h => if_neg (fun hc => h (hcond.mp hc))⟩

/-- The record with the advance accrued in its OPEN segments (R145). -/
def Line.coasted (l : Line) (old new : Int) : Line := { l with profile := l.profile.zipIdx.map (fun e => accrueSegment l.profile old new e.2 e.1) }

theorem State.accrueCoast_active? {s : State} {m : Line} (ha : s.active? = some m) (old new : Int) :
    (s.accrueCoast old new).active? = some (m.coasted old new) := by
  refine (State.updActive_active? (f := fun l => l.coasted old new) (fun _ h => h) s).trans ?_
  rw [ha]
  rfl

theorem Line.coasted_getElem? (l : Line) (old new : Int) (i : Nat) :
    (l.coasted old new).profile[i]? = (l.profile[i]?).map (fun b => accrueSegment l.profile old new i b) := getElem?_zipIdx_map _ _ i

theorem Breakpoint.updOpen_none {b : Breakpoint} (h : b.closure = none) (f : Closure → Closure) : b.updOpen f = b := by
  rw [Breakpoint.updOpen, h]

theorem Breakpoint.updOpen_closed {b : Breakpoint} {k : Closure} (h : b.closure = some k) (hk : k.state = .closed) (f : Closure → Closure) :
    b.updOpen f = b := by
  simp [Breakpoint.updOpen, h, hk]

theorem Breakpoint.updOpen_opened {b : Breakpoint} {k : Closure} (h : b.closure = some k) (hk : k.state = .opened) (f : Closure → Closure) :
    b.updOpen f = { b with closure := some (f k) } := by
  simp [Breakpoint.updOpen, h, hk]

/-- A breakpoint, its segment's travel accrued where the advance is made in COASTING. -/
def Line.travelled (l : Line) (old new : Int) (coasting : Bool) : Line := if coasting then l.coasted old new else l

theorem Line.coasted_points (l : Line) (old new : Int) : (l.coasted old new).points = l.points :=
  Line.points_of_getElem? fun k => by
    rw [Line.coasted_getElem?, Option.map_map]
    refine congrArg (fun g => Option.map g l.profile[k]?) (funext fun b => ?_)
    rw [Function.comp_apply, accrueSegment]
    split
    · rfl
    · exact b.updOpen_point _

theorem Line.travelled_points (l : Line) (old new : Int) (coasting : Bool) : (l.travelled old new coasting).points = l.points := by
  unfold Line.travelled
  split
  · exact l.coasted_points old new
  · rfl

/-- The end of a segment is read from the points. -/
theorem segmentEnd?_points {l m : Line} (h : m.points = l.points) (i : Nat) : segmentEnd? m.profile i = segmentEnd? l.profile i := by
  have hi := congrArg (fun ps : List Point => (ps[i + 1]?).map (fun p => p.chainage)) h
  simp only [Line.points_getElem?, Option.map_map] at hi
  exact hi

/-- What the accrual makes of one breakpoint. -/
theorem Line.travelled_getElem? {l : Line} {i : Nat} {b : Breakpoint} (hb : l.profile[i]? = some b) (old new : Int) (coasting : Bool) :
    ∃ d, (l.travelled old new coasting).profile[i]? = some d ∧ d.point = b.point ∧ (b.closure = none → d = b)
      ∧ ∀ k, b.closure = some k → (k.state = .closed → d = b) ∧ ∀ e, l.profile[i + 1]? = some e → k.state = .opened →
        d.closure = some { k with coasted := if coasting then k.coasted + max 0 (min new e.point.chainage - max old b.point.chainage)
                                             else k.coasted } := by
  cases coasting with
  | false => exact ⟨b, hb, rfl, fun _ => rfl, fun k hk => ⟨fun _ => rfl, fun _ _ _ => hk⟩⟩
  | true =>
    have hd : (l.travelled old new true).profile[i]? = some (accrueSegment l.profile old new i b) := by
      show (l.coasted old new).profile[i]? = _
      rw [Line.coasted_getElem?, hb]
      rfl
    refine ⟨_, hd, ?_, fun hnone => ?_, fun k hk => ⟨fun hclosed => ?_, fun e he hopen => ?_⟩⟩
    · unfold accrueSegment
      split
      · rfl
      · exact b.updOpen_point _
    · unfold accrueSegment
      split
      · rfl
      · exact Breakpoint.updOpen_none hnone _
    · unfold accrueSegment
      split
      · rfl
      · exact Breakpoint.updOpen_closed hk hclosed _
    · have hend : segmentEnd? l.profile i = some e.point.chainage := by rw [segmentEnd?, he]; rfl
      rw [accrueSegment, hend]
      dsimp only
      rw [Breakpoint.updOpen_opened hk hopen]
      rfl

/-- The segments of a line reach its new F as its travel is accrued and those passed are closed (R129, R145). -/
theorem Line.segmentsReach_closePassed (l : Line) (backup old new : Int) (coasting : Bool) :
    segmentsReach l.profile ((l.travelled old new coasting).closePassed backup new).profile backup old new coasting := by
  have hlen : (l.travelled old new coasting).profile.length = l.profile.length := by
    have h := congrArg List.length (l.travelled_points old new coasting)
    simpa [Line.points] using h
  refine ⟨(length_closeEnded _ backup new).trans hlen, fun i b d hb hd => ?_⟩
  obtain ⟨b', hb', hpoint, hnone, hsome⟩ := Line.travelled_getElem? hb old new coasting
  have hends : segmentEnd? (l.travelled old new coasting).profile i = segmentEnd? l.profile i :=
    segmentEnd?_points (l.travelled_points old new coasting) i
  rw [Line.closePassed_getElem?, hb', Option.map_some, Option.some_inj] at hd
  have hdpoint : d.point = b'.point := by
    rw [← hd]
    split
    · exact b'.updOpen_point _
    · rfl
  refine ⟨hdpoint.trans hpoint, fun hc => ?_, fun k hk => ⟨fun hclosed => ?_, fun e he hopen => ?_⟩⟩
  · rw [← hd, hnone hc]
    split
    · rw [Breakpoint.updOpen_none hc, hc]
    · exact hc
  · rw [← hd, (hsome k hk).1 hclosed]
    split
    · rw [Breakpoint.updOpen_closed hk hclosed, hk]
    · exact hk
  · have hb'c := (hsome k hk).2 e he hopen
    have hcloses : closesAt (l.travelled old new coasting).profile i b' backup new = true ↔ e.point.chainage + backup ≤ new := by
      rw [closesAt, hends, segmentEnd?, he, Breakpoint.isOpen, hb'c]
      simp [hopen]
    rw [← hd]
    by_cases hpast : e.point.chainage + backup ≤ new
    · rw [if_pos (hcloses.mpr hpast), Breakpoint.updOpen_opened hb'c hopen, if_pos hpast]
      rfl
    · rw [if_neg (fun h => hpast (hcloses.mp h)), if_neg hpast, hb'c, ← hopen]

/-! ## The hand-on -/

/-- What a line keeps as its run goes on: everything but its profile's closure parts and its run context. -/
def Line.sameDesign (l m : Line) : Prop := m.id = l.id ∧ m.points = l.points ∧ m.spans = l.spans ∧ m.revision = l.revision
  ∧ m.status = l.status ∧ m.staged? = l.staged?

theorem Line.sameDesign_refl (l : Line) : l.sameDesign l := ⟨rfl, rfl, rfl, rfl, rfl, rfl⟩

theorem Line.sameDesign.trans {l m n : Line} (h : l.sameDesign m) (h' : m.sameDesign n) : l.sameDesign n := by
  obtain ⟨a1, a2, a3, a4, a5, a6⟩ := h
  obtain ⟨b1, b2, b3, b4, b5, b6⟩ := h'
  exact ⟨b1.trans a1, b2.trans a2, b3.trans a3, b4.trans a4, b5.trans a5, b6.trans a6⟩

theorem Line.sameDesign_updRun (l : Line) (f : RunContext → RunContext) : l.sameDesign (l.updRun f) :=
  ⟨l.updRun_id f, l.updRun_points f, l.updRun_spans f, l.updRun_revision f, l.updRun_status f, l.updRun_staged? f⟩

theorem Line.sameDesign_travelled (l : Line) (old new : Int) (coasting : Bool) : l.sameDesign (l.travelled old new coasting) := by
  refine ⟨?_, l.travelled_points old new coasting, ?_, ?_, ?_, ?_⟩ <;> cases coasting <;> rfl

theorem Line.sameDesign_closePassed (l : Line) (backup f : Int) : l.sameDesign (l.closePassed backup f) :=
  ⟨rfl, l.closePassed_points backup f, rfl, rfl, rfl, rfl⟩

theorem Line.travelled_run? (l : Line) (old new : Int) (coasting : Bool) : (l.travelled old new coasting).run? = l.run? := by
  cases coasting <;> rfl

/-- The coast distance after an advance. -/
def State.coastTo (s : State) (old new : Int) (coasting : Bool) : Int := if coasting then s.run.coast + (new - old) else s.run.coast

/-- The advance brings a run that is COASTING to COAST_LIMIT (R125). -/
def State.coastEnds (s : State) (r : RunContext) (old new : Int) (coasting : Bool) : Prop :=
  coasting = true ∧ r.state = .coasting ∧ s.settings.coastLimit ≤ s.coastTo old new coasting

/-- The travel of the advance: F written, and in COASTING the segments and the coast distance counted (R125, R145). -/
def State.travelled (s : State) (old new : Int) (coasting : Bool) : State :=
  if coasting then ((s.setFurthest new).accrueCoast old new).addCoast (new - old) else s.setFurthest new

theorem State.handOn_of {s : State} {m : Line} (ha : s.active? = some m) (old new : Int) (coasting : Bool) :
    s.handOn old new coasting = (s.travelled old new coasting).closePassed new := by
  rw [State.handOn, ha]
  rfl

/-- The line and its run after the travel. -/
def Line.sent (l : Line) (old new : Int) (coasting : Bool) : Line :=
  (l.updRun (fun r => { r with furthest := some new })).travelled old new coasting

theorem State.setFurthest_active? {s : State} {m : Line} (ha : s.active? = some m) (f : Int) :
    (s.setFurthest f).active? = some (m.updRun (fun r => { r with furthest := some f })) :=
  (State.updRun_active? s _).trans (by rw [ha]; rfl)

theorem Line.sent_run? {l : Line} {r : RunContext} (hr : l.run? = some r) (old new : Int) (coasting : Bool) :
    (l.sent old new coasting).run? = some { r with furthest := some new } := by
  rw [Line.sent, Line.travelled_run?, Line.updRun_run?, hr]
  rfl

/-- The coast counted, before the limit is tested. -/
theorem State.accrued_spec {s : State} {m : Line} (ha : s.active? = some m) (old new : Int) :
    let t := ((s.setFurthest new).accrueCoast old new).updRunUnit (fun u => { u with coast := u.coast + (new - old) })
    s.runsTo t [] ∧ t.chain = s.chain ∧ t.eval = s.eval ∧ t.run = { s.run with coast := s.coastTo old new true } ∧ s.othersStand t
      ∧ t.active? = some (m.sent old new true) :=
  ⟨((s.runsTo_updRun _).trans (State.runsTo_updActive _ _)).trans (State.runsTo_updRunUnit _ _), rfl, rfl, rfl,
    (s.othersStand_updActive _).trans (State.othersStand_updActive _ _), State.accrueCoast_active? (State.setFurthest_active? ha new) old new⟩

/-- The travel where the run does not come to COAST_LIMIT. -/
theorem State.travelled_on {s : State} {m : Line} {r : RunContext} {old new : Int} {coasting : Bool} (ha : s.active? = some m)
    (hr : m.run? = some r) (h : ¬s.coastEnds r old new coasting) : let t := s.travelled old new coasting
    s.runsTo t [] ∧ t.chain = s.chain ∧ t.eval = s.eval ∧ t.run = { s.run with coast := s.coastTo old new coasting } ∧ s.othersStand t
      ∧ t.active? = some (m.sent old new coasting) := by
  have ha1 := State.setFurthest_active? ha new
  cases coasting with
  | false => exact ⟨s.runsTo_updRun _, rfl, rfl, rfl, s.othersStand_updActive _, ha1⟩
  | true =>
    have hadd : s.travelled old new true = ((s.setFurthest new).accrueCoast old new).updRunUnit (fun u => { u with coast := u.coast + (new - old) }) :=
      (State.addCoast_spec (State.accrueCoast_active? ha1 old new) (Line.sent_run? hr old new true) (new - old)).2
        (fun hc => h ⟨rfl, hc.1, hc.2⟩)
    rw [hadd]
    exact State.accrued_spec ha old new

/-- A halt, over what stands of the run before it. -/
theorem State.halt_spec {s : State} {m : Line} (ha : s.active? = some m) (h : HaltReason) : let t := s.changeRun (.halted h)
    s.runsTo t [.run, .halt] ∧ t.chain = s.chain ∧ t.eval = { s.eval with drive := 0 } ∧ t.run = { s.run with timer := none } ∧ s.othersStand t
      ∧ t.active? = some (m.updRun (fun c => { c with state := .halted h })) ∧ ∀ q : Port, .run ∈ (t.port q).events ∧ .halt ∈ (t.port q).events := by
  refine ⟨s.runsTo_changeRun _ (by simp) (by simp) (by simp), s.changeRun_chain _, s.changeRun_eval _, s.changeRun_run _,
    s.othersStand_changeRun _, ?_, fun q => ?_⟩
  · rw [State.changeRun_active?, ha]
    rfl
  · obtain ⟨es, hes, hrun, hhalt, -⟩ := s.changeRun_port (.halted h) q
    rw [hes]
    exact ⟨hrun, hhalt _ rfl⟩

/-- The travel that comes to COAST_LIMIT: the run is HALTED with reason COAST (R125). -/
theorem State.travelled_ends {s : State} {m : Line} {r : RunContext} {old new : Int} {coasting : Bool} (ha : s.active? = some m)
    (hr : m.run? = some r) (h : s.coastEnds r old new coasting) : let t := s.travelled old new coasting
    s.runsTo t [.run, .halt] ∧ t.chain = s.chain ∧ t.eval = { s.eval with drive := 0 }
      ∧ t.run = { s.run with coast := s.coastTo old new coasting, timer := none } ∧ s.othersStand t
      ∧ t.active? = some ((m.sent old new coasting).updRun (fun c => { c with state := .halted .coast }))
      ∧ ∀ q : Port, .run ∈ (t.port q).events ∧ .halt ∈ (t.port q).events := by
  obtain ⟨rfl, hc⟩ := h
  have hadd := (State.addCoast_spec (State.accrueCoast_active? (State.setFurthest_active? ha new) old new) (Line.sent_run? hr old new true)
    (new - old)).1 hc
  obtain ⟨u1, u2, u3, u4, u5, u6⟩ := State.accrued_spec ha old new
  generalize ((s.setFurthest new).accrueCoast old new).updRunUnit (fun u => { u with coast := u.coast + (new - old) }) = u at hadd u1 u2 u3 u4 u5 u6
  obtain ⟨t1, t2, t3, t4, t5, t6, t7⟩ := State.halt_spec u6 .coast
  have ht : s.travelled old new true = u.changeRun (.halted .coast) := hadd
  rw [u3] at t3
  rw [u4] at t4
  rw [ht]
  exact ⟨(u1.mono (by simp)).trans t1, t2.trans u2, t3, t4, u5.trans t5, t6, t7⟩

/-- Some OPEN segment of the line ends at the new F less BACKUP, or before it. -/
def Line.passes (l : Line) (backup new : Int) : Prop := ∃ (i : Nat) (b e : Breakpoint) (x : Closure), l.profile[i]? = some b ∧ b.closure = some x
  ∧ x.state = .opened ∧ l.profile[i + 1]? = some e ∧ e.point.chainage + backup ≤ new

theorem closesAt_iff {l : Line} {i : Nat} {b : Breakpoint} {backup new : Int} : closesAt l.profile i b backup new = true
    ↔ ∃ x e, b.closure = some x ∧ x.state = .opened ∧ l.profile[i + 1]? = some e ∧ e.point.chainage + backup ≤ new := by
  rw [closesAt, Bool.and_eq_true, Breakpoint.isOpen, segmentEnd?, Option.any_eq_true, Option.any_eq_true]
  constructor
  · rintro ⟨⟨x, hx, hopen⟩, stop, hstop, hle⟩
    obtain ⟨e, he, rfl⟩ := Option.map_eq_some_iff.mp hstop
    exact ⟨x, e, hx, beq_iff_eq.mp hopen, he, of_decide_eq_true hle⟩
  · rintro ⟨x, e, hx, hopen, he, hle⟩
    exact ⟨⟨x, hx, beq_iff_eq.mpr hopen⟩, _, Option.map_eq_some_iff.mpr ⟨e, he, rfl⟩, decide_eq_true hle⟩

theorem Line.passes_iff {l : Line} {backup new : Int} :
    l.passes backup new ↔ ∃ i b, l.profile[i]? = some b ∧ closesAt l.profile i b backup new = true := by
  constructor
  · rintro ⟨i, b, e, x, hb, hx, hopen, he, hle⟩
    exact ⟨i, b, hb, closesAt_iff.mpr ⟨x, e, hx, hopen, he, hle⟩⟩
  · rintro ⟨i, b, hb, hc⟩
    obtain ⟨x, e, hx, hopen, he, hle⟩ := closesAt_iff.mp hc
    exact ⟨i, b, e, x, hb, hx, hopen, he, hle⟩

/-- Accrual does not change which segments an advance closes. -/
theorem Line.passes_travelled (l : Line) (old new' : Int) (coasting : Bool) (backup new : Int) :
    (l.travelled old new' coasting).passes backup new ↔ l.passes backup new := by
  have hopen : ∀ (i : Nat) (b : Breakpoint), l.profile[i]? = some b → ∃ d, (l.travelled old new' coasting).profile[i]? = some d
      ∧ d.point = b.point ∧ ((∃ x, d.closure = some x ∧ x.state = .opened) ↔ ∃ x, b.closure = some x ∧ x.state = .opened) := by
    intro i b hb
    cases coasting with
    | false => exact ⟨b, hb, rfl, Iff.rfl⟩
    | true =>
      refine ⟨accrueSegment l.profile old new' i b, ?_, ?_, ?_⟩
      · show (l.coasted old new').profile[i]? = _
        rw [Line.coasted_getElem?, hb]
        rfl
      · unfold accrueSegment
        split
        · rfl
        · exact b.updOpen_point _
      · unfold accrueSegment
        split
        · exact Iff.rfl
        · cases hc : b.closure with
          | none => rw [Breakpoint.updOpen_none hc, hc]
          | some x =>
            cases hx : x.state with
            | opened => rw [Breakpoint.updOpen_opened hc hx]; simp [hx]
            | closed => rw [Breakpoint.updOpen_closed hc hx, hc]
  have hback : ∀ (i : Nat) (d : Breakpoint), (l.travelled old new' coasting).profile[i]? = some d → ∃ b, l.profile[i]? = some b := by
    intro i d hd
    have hi := congrArg (fun ps : List Point => ps[i]?) (l.travelled_points old new' coasting)
    simp only [Line.points_getElem?, hd, Option.map_some] at hi
    obtain ⟨b, hb, -⟩ := Option.map_eq_some_iff.mp hi.symm
    exact ⟨b, hb⟩
  constructor
  · rintro ⟨i, d, e, x, hd, hx, hxo, he, hle⟩
    obtain ⟨b, hb⟩ := hback i d hd
    obtain ⟨b', hb'⟩ := hback (i + 1) e he
    obtain ⟨d', hd', -, hiff⟩ := hopen i b hb
    obtain ⟨e', he', hpoint, -⟩ := hopen (i + 1) b' hb'
    cases hd.symm.trans hd'
    cases he.symm.trans he'
    obtain ⟨y, hy, hyo⟩ := hiff.mp ⟨x, hx, hxo⟩
    exact ⟨i, b, b', y, hb, hy, hyo, hb', hpoint ▸ hle⟩
  · rintro ⟨i, b, e, x, hb, hx, hxo, he, hle⟩
    obtain ⟨d, hd, -, hiff⟩ := hopen i b hb
    obtain ⟨e', he', hpoint, -⟩ := hopen (i + 1) e he
    obtain ⟨y, hy, hyo⟩ := hiff.mpr ⟨x, hx, hxo⟩
    exact ⟨i, d, e', y, hd, hy, hyo, he', hpoint ▸ hle⟩

theorem Line.sent_profile (l : Line) (old new : Int) (coasting : Bool) :
    (l.sent old new coasting).profile = (l.travelled old new coasting).profile := by
  cases coasting with
  | false => exact l.updRun_profile _
  | true =>
    show ((l.updRun _).profile.zipIdx.map (fun e => accrueSegment (l.updRun _).profile old new e.2 e.1)) = _
    rw [Line.updRun_profile]
    rfl

theorem Line.closePassed_profile {l m : Line} (h : m.profile = l.profile) (backup f : Int) :
    (m.closePassed backup f).profile = (l.closePassed backup f).profile := congrArg (fun bs => closeEnded bs backup f) h

theorem Line.passes_congr {l m : Line} (h : m.profile = l.profile) (backup f : Int) : m.passes backup f ↔ l.passes backup f := by
  rw [Line.passes, h, Line.passes]

/-- The new F handed on: the travel counted, and the segments it passes closed (R100, R125, R129, R145). -/
theorem State.handOn_spec {s : State} {m : Line} {r : RunContext} (ha : s.active? = some m) (hr : m.run? = some r) (old new : Int)
    (coasting : Bool) : let t := s.handOn old new coasting
    s.runsTo t [.run, .halt, .close] ∧ t.chain = s.chain ∧ s.othersStand t
      ∧ (∃ k, t.active? = some k ∧ m.sameDesign k ∧ segmentsReach m.profile k.profile s.settings.backup old new coasting)
      ∧ (∀ q : Port, .close ∈ (t.port q).events ↔ .close ∈ (s.port q).events ∨ m.passes s.settings.backup new)
      ∧ (¬s.coastEnds r old new coasting → t.eval = s.eval ∧ t.run = { s.run with coast := s.coastTo old new coasting }
        ∧ t.context? = some { r with furthest := some new } ∧ s.raisesOnly t [.close])
      ∧ (s.coastEnds r old new coasting → t.eval = { s.eval with drive := 0 }
        ∧ t.run = { s.run with coast := s.coastTo old new coasting, timer := none }
        ∧ t.context? = some { r with furthest := some new, state := .halted .coast }
        ∧ ∀ q : Port, .run ∈ (t.port q).events ∧ .halt ∈ (t.port q).events) := by
  intro t
  have ht : t = (s.travelled old new coasting).closePassed new := State.handOn_of ha old new coasting
  have hsent : m.sameDesign (m.sent old new coasting) :=
    (m.sameDesign_updRun _).trans (Line.sameDesign_travelled _ old new coasting)
  have hpass := (Line.passes_congr (m.sent_profile old new coasting) s.settings.backup new).trans (m.passes_travelled old new coasting _ new)
  have hreach : segmentsReach m.profile ((m.sent old new coasting).closePassed s.settings.backup new).profile s.settings.backup old new coasting := by
    rw [Line.closePassed_profile (m.sent_profile old new coasting)]
    exact m.segmentsReach_closePassed _ old new coasting
  by_cases hends : s.coastEnds r old new coasting
  · obtain ⟨u1, u2, u3, u4, u5, u6, u7⟩ := State.travelled_ends ha hr hends
    generalize s.travelled old new coasting = u at ht u1 u2 u3 u4 u5 u6 u7
    obtain ⟨c1, c2, c3, c4, c5, c6, c7⟩ := State.closePassed_spec u6 new
    rw [u1.settings] at c6 c7
    have hprofile := (m.sent old new coasting).updRun_profile (fun c => { c with state := .halted .coast })
    have hrun : ((m.sent old new coasting).updRun (fun c => { c with state := .halted .coast })).run?
        = some { r with furthest := some new, state := .halted .coast } := by
      rw [Line.updRun_run?, Line.sent_run? hr]
      rfl
    rw [ht]
    refine ⟨(u1.mono (by simp)).trans (c1.mono (by simp)), c2.trans u2, u5.trans c5,
      ⟨_, c6, (hsent.trans (Line.sameDesign_updRun _ _)).trans (Line.sameDesign_closePassed _ _ _), ?_⟩,
      fun q => ?_, fun h => absurd hends h, fun _ => ⟨c4.trans u3, c3.trans u4, State.context?_of c6 hrun, fun q => ?_⟩⟩
    · rw [Line.closePassed_profile hprofile]
      exact hreach
    · rw [c7, u1.event_iff q (by simp), ← Line.passes_iff, Line.passes_congr hprofile, hpass]
    · exact ⟨c1.stays q _ (u7 q).1, c1.stays q _ (u7 q).2⟩
  · obtain ⟨u1, u2, u3, u4, u5, u6⟩ := State.travelled_on ha hr hends
    generalize s.travelled old new coasting = u at ht u1 u2 u3 u4 u5 u6
    obtain ⟨c1, c2, c3, c4, c5, c6, c7⟩ := State.closePassed_spec u6 new
    rw [u1.settings] at c6 c7
    rw [ht]
    refine ⟨(u1.mono (by simp)).trans (c1.mono (by simp)), c2.trans u2, u5.trans c5, ⟨_, c6, hsent.trans (Line.sameDesign_closePassed _ _ _), hreach⟩,
      fun q => ?_, fun _ => ⟨c4.trans u3, c3.trans u4, ?_, ?_⟩, fun h => absurd h hends⟩
    · rw [c7, u1.event_iff q (by simp), ← Line.passes_iff, hpass]
    · exact State.context?_of c6 (Line.sent_run? hr old new coasting)
    · exact (u1.mono (by simp)).trans c1 |>.raises

end Sys2Proof.Machine
end

section
/-! PROOF. The move of the serving span, and an advance of F that meets no point of the walk (06, 07, 08; R100 to R102, R122 to R126, R134, R135). -/
namespace Sys2Proof.Machine

/-! ## What a change of the run's state keeps -/

/-- The ACTIVE line of the state has the design and the profile of `l`, and the run context `r`. -/
def State.runsLine (s : State) (l : Line) (r : RunContext) : Prop :=
  ∃ m, s.active? = some m ∧ m.run? = some r ∧ l.sameDesign m ∧ m.profile = l.profile

theorem State.runsLine_of {s : State} {l : Line} {r : RunContext} (ha : s.active? = some l) (hr : l.run? = some r) : s.runsLine l r :=
  ⟨l, ha, hr, l.sameDesign_refl, rfl⟩

theorem State.runsLine.context? {s : State} {l : Line} {r : RunContext} (h : s.runsLine l r) : s.context? = some r := by
  obtain ⟨m, ha, hr, -, -⟩ := h
  exact State.context?_of ha hr

/-- The run may have changed its state, its timer and its coast, and the evaluator: the line runs on. -/
def State.stirs (s t : State) : Prop :=
  s.runsTo t [.run, .coast, .halt] ∧ t.chain = s.chain ∧ s.othersStand t ∧ t.run.lastDrop = s.run.lastDrop
    ∧ ∀ l r, s.runsLine l r → ∃ x, t.runsLine l { r with state := x }

theorem State.stirs_refl (s : State) : s.stirs s :=
  ⟨s.runsTo_refl _, rfl, s.othersStand_refl, rfl, fun _ r h => ⟨r.state, h⟩⟩

theorem State.stirs.trans {s t u : State} (h : s.stirs t) (h' : t.stirs u) : s.stirs u := by
  obtain ⟨a1, a2, a3, a4, a5⟩ := h
  obtain ⟨b1, b2, b3, b4, b5⟩ := h'
  refine ⟨a1.trans b1, b2.trans a2, a3.trans b3, b4.trans a4, fun l r hl => ?_⟩
  obtain ⟨x, hx⟩ := a5 l r hl
  obtain ⟨y, hy⟩ := b5 l _ hx
  exact ⟨y, hy⟩

theorem State.stirs_updEval (s : State) (f : Evaluator → Evaluator) : s.stirs (s.updEval f) :=
  ⟨s.runsTo_updEval f, rfl, s.othersStand_refl, rfl, fun _ r h => ⟨r.state, h⟩⟩

theorem State.stirs_updRunUnit (s : State) {f : RunUnit → RunUnit} (hf : ∀ u, (f u).lastDrop = u.lastDrop) : s.stirs (s.updRunUnit f) :=
  ⟨s.runsTo_updRunUnit f, rfl, s.othersStand_refl, hf s.run, fun _ r h => ⟨r.state, h⟩⟩

theorem State.runsLine_changeRun {s : State} {l : Line} {r : RunContext} (h : s.runsLine l r) (x : RunState) :
    (s.changeRun x).runsLine l { r with state := x } := by
  obtain ⟨m, ha, hr, hd, hp⟩ := h
  refine ⟨m.updRun (fun c => { c with state := x }), ?_, ?_, hd.trans (m.sameDesign_updRun _), (m.updRun_profile _).trans hp⟩
  · rw [State.changeRun_active?, ha]
    rfl
  · rw [Line.updRun_run?, hr]
    rfl

theorem State.stirs_changeRun (s : State) (x : RunState) : s.stirs (s.changeRun x) :=
  ⟨s.runsTo_changeRun x (by simp) (by simp) (by simp), s.changeRun_chain x, s.othersStand_changeRun x,
    by rw [State.changeRun_run], fun _ _ h => ⟨x, State.runsLine_changeRun h x⟩⟩

theorem State.stirs_enterCoasting (s : State) : s.stirs s.enterCoasting := by
  have h := (s.stirs_updRunUnit (f := fun u => { u with coast := 0 }) (fun _ => rfl)).trans (State.stirs_changeRun _ .coasting)
  unfold State.enterCoasting
  dsimp only
  split
  · exact h.trans (State.stirs_changeRun _ _)
  · exact h

theorem State.stirs_afterSwitch (s : State) : s.stirs s.afterSwitch := by
  unfold State.afterSwitch
  split
  · split
    · exact s.stirs_updRunUnit (fun _ => rfl)
    · exact s.stirs_enterCoasting
  · exact s.stirs_refl

theorem State.enterCoasting_span (s : State) : s.enterCoasting.eval.serving = s.eval.serving ∧ s.enterCoasting.eval.reference = s.eval.reference := by
  unfold State.enterCoasting
  dsimp only
  split
  · rw [State.changeRun_eval, State.changeRun_eval]
    exact ⟨rfl, rfl⟩
  · rw [State.changeRun_eval]
    exact ⟨rfl, rfl⟩

theorem State.afterSwitch_span (s : State) : s.afterSwitch.eval.serving = s.eval.serving ∧ s.afterSwitch.eval.reference = s.eval.reference := by
  unfold State.afterSwitch
  split
  · split
    · exact ⟨rfl, rfl⟩
    · exact s.enterCoasting_span
  · exact ⟨rfl, rfl⟩

/-- The span that covers the chainage serves after the move, and a switch drops the handoff reference (R134, R135). -/
theorem State.moveServing_stirs {s : State} (hk : s.chain.known = true) (held : Option StationId) : let t := s.moveServing held
    s.stirs t ∧ t.eval.serving = some (spanIndex s.spanList s.chainage)
      ∧ (s.eval.serving ≠ some (spanIndex s.spanList s.chainage) → t.eval.reference = none) := by
  intro t
  have ht : t = if s.eval.serving = some (spanIndex s.spanList s.chainage)
      ∧ (s.spanList[spanIndex s.spanList s.chainage]?).map (fun x => x.station) = held then s
    else (s.setServing (some (spanIndex s.spanList s.chainage))).afterSwitch := if_pos hk
  by_cases hserve : s.eval.serving = some (spanIndex s.spanList s.chainage)
      ∧ (s.spanList[spanIndex s.spanList s.chainage]?).map (fun x => x.station) = held
  · rw [ht, if_pos hserve]
    exact ⟨s.stirs_refl, hserve.1, fun h => absurd hserve.1 h⟩
  · rw [ht, if_neg hserve]
    obtain ⟨h1, h2⟩ := (s.setServing (some (spanIndex s.spanList s.chainage))).afterSwitch_span
    exact ⟨(s.stirs_updEval _).trans (State.stirs_afterSwitch _), h1, fun _ => h2⟩

/-- A held station that is the serving span's own: a span that serves already is no switch (R134). -/
theorem State.moveServing_own {s : State} (hk : s.chain.known = true) : s.moveServing s.servingStation?
    = if s.eval.serving = some (spanIndex s.spanList s.chainage) then s
      else (s.setServing (some (spanIndex s.spanList s.chainage))).afterSwitch := by
  rw [State.moveServing, if_pos hk]
  dsimp only
  by_cases hserve : s.eval.serving = some (spanIndex s.spanList s.chainage)
  · have hstation : (s.spanList[spanIndex s.spanList s.chainage]?).map (fun x => x.station) = s.servingStation? := by
      rw [State.servingStation?, State.servingSpan?, hserve]
      rfl
    rw [if_pos ⟨hserve, hstation⟩, if_pos hserve]
  · rw [if_neg (fun h => hserve h.1), if_neg hserve]

/-! ## Where the serving span leads a run that digs (R123, R134, R135) -/

theorem State.eq_of_fields {s t : State} (h1 : s.powered = t.powered) (h2 : s.resetLow = t.resetLow) (h3 : s.time = t.time) (h4 : s.store = t.store)
    (h5 : s.cab = t.cab) (h6 : s.plan = t.plan) (h7 : s.recheck = t.recheck) (h8 : s.link = t.link) (h9 : s.chain = t.chain)
    (h10 : s.run = t.run) (h11 : s.eval = t.eval) (h12 : s.free = t.free) (h13 : s.pending = t.pending) : s = t := by
  cases s
  cases t
  simp_all

/-- A coast that COAST_LIMIT 0 ends at once, written out. -/
theorem State.coastedOut_eq (s : State) : (s.changeRun .coasting).changeRun (.halted .coast)
    = ((((({ s.updRun (fun c => { c with state := .halted .coast }) with
        run := { s.run with timer := none }
        eval := { s.eval with drive := 0 } } : State).raise .run).raise .coast).raise .run).raise .halt) := by
  refine State.eq_of_fields rfl rfl rfl ?_ rfl rfl rfl rfl rfl rfl rfl rfl rfl
  rw [State.changeRun_store, State.updRun_store_congr (s.changeRun_store .coasting), State.updRun_updRun]
  rfl

theorem State.changeRun_coasting_eq (s : State) : s.changeRun .coasting
    = ((({ s.updRun (fun c => { c with state := .coasting }) with
        run := { s.run with timer := none }
        eval := { s.eval with drive := 0 } } : State).raise .run).raise .coast) := rfl

theorem State.runsLine_of_store {s t : State} {l : Line} {r : RunContext} (h : t.store = s.store) (hl : s.runsLine l r) : t.runsLine l r := by
  obtain ⟨m, ha, hm⟩ := hl
  refine ⟨m, ?_, hm⟩
  rw [State.active?, h]
  exact ha

/-- The fresh strike of a station, or none. -/
theorem State.freshStrike?_some {s : State} {n : StationId} {y : Strike} (h : s.lastStrike? n = some y)
    (hf : s.time - y.time ≤ s.settings.strikeTimeout.toNat) : s.freshStrike? n = some y := by
  rw [State.freshStrike?, h, Option.bind_some]
  exact if_pos (decide_eq_true hf)

theorem State.freshStrike?_none {s : State} {n : StationId}
    (h : ∀ y, s.lastStrike? n = some y → s.settings.strikeTimeout.toNat < s.time - y.time) : s.freshStrike? n = none := by
  rw [State.freshStrike?]
  cases hl : s.lastStrike? n with
  | none => rfl
  | some y =>
    have hlate := h y hl
    exact if_neg (fun hf => absurd (of_decide_eq_true hf) (not_le.mpr hlate))

/-- A switch in CUTTING to a station with a fresh last strike moves the strike timer (R135). -/
theorem State.afterSwitch_fresh {s : State} (hc : s.runState? = some .cutting) {n : StationId} {y : Strike} (hn : s.servingStation? = some n)
    (hy : s.freshStrike? n = some y) : s.afterSwitch = s.startTimer (y.time + s.settings.strikeTimeout.toNat) := by
  rw [State.afterSwitch, if_pos (by rw [hc]; rfl), hn, Option.bind_some, hy]
  rfl

theorem State.afterSwitch_coasts {s : State} (hc : s.runState? = some .cutting) {n : StationId} (hn : s.servingStation? = some n)
    (hy : s.freshStrike? n = none) : s.afterSwitch = s.enterCoasting := by
  rw [State.afterSwitch, if_pos (by rw [hc]; rfl), hn, Option.bind_some, hy]

/-- The move of the serving span goes to where its switch leads, and to nothing else. -/
theorem State.moveServing_serves {s : State} {l : Line} {r : RunContext} {k : Nat} {b : State} {r' : RunContext} (hk : s.chain.known = true)
    (ha : s.active? = some l) (hr : l.run? = some r) (hspan : spanIndex l.spans s.chainage = k) (h : s.servesWith l r k b r') :
    s.moveServing s.servingStation? = b ∧ b.runsLine l r' := by
  have hspans : s.spanList = l.spans := State.spanList_of ha
  have hline := State.runsLine_of ha hr
  rw [State.moveServing_own hk, hspans, hspan]
  rcases h with ⟨hserve, rfl, rfl⟩ | ⟨hserve, hco, rfl, rfl⟩ | ⟨hserve, hcut, x, hx, hor⟩
  · exact ⟨if_pos hserve, hline⟩
  · rw [if_neg hserve]
    refine ⟨State.afterSwitch_of_not_cutting ?_, hline⟩
    rw [show (s.setServing (some k)).runState? = some r'.state from State.runState?_of (s := s) ha hr, hco]
    simp
  · rw [if_neg hserve]
    let v := s.setServing (some k)
    have hvcut : v.runState? = some .cutting := (State.runState?_of (s := s) ha hr).trans (congrArg some hcut)
    have hvstation : v.servingStation? = some x.station := by
      show (s.spanList[k]?).map (fun x => x.station) = _
      rw [hspans, hx]
      rfl
    have hvline : v.runsLine l r := hline
    rcases hor with ⟨y, hy, hfresh, rfl, rfl⟩ | ⟨hstale, ⟨hlimit, rfl, rfl⟩ | ⟨hlimit, rfl, rfl⟩⟩
    · exact ⟨State.afterSwitch_fresh hvcut hvstation (State.freshStrike?_some (s := v) hy hfresh), hline⟩
    · have hsw : v.afterSwitch = v.enterCoasting := State.afterSwitch_coasts hvcut hvstation (State.freshStrike?_none (s := v) hstale)
      have hcoast : v.enterCoasting = (v.updRunUnit (fun u => { u with coast := 0 })).changeRun .coasting := by
        rw [State.enterCoasting_eq, if_neg (by exact not_le.mpr hlimit)]
      refine ⟨hsw.trans hcoast, ?_⟩
      exact State.runsLine_changeRun (s := v.updRunUnit (fun u => { u with coast := 0 })) hvline .coasting
    · have hsw : v.afterSwitch = v.enterCoasting := State.afterSwitch_coasts hvcut hvstation (State.freshStrike?_none (s := v) hstale)
      have hcoast : v.enterCoasting = ((v.updRunUnit (fun u => { u with coast := 0 })).changeRun .coasting).changeRun (.halted .coast) := by
        rw [State.enterCoasting_eq, if_pos (by exact hlimit)]
      have heq := State.coastedOut_eq (v.updRunUnit (fun u => { u with coast := 0 }))
      refine ⟨(hsw.trans hcoast).trans heq, ?_⟩
      have hruns := State.runsLine_changeRun (State.runsLine_changeRun (s := v.updRunUnit (fun u => { u with coast := 0 })) hvline .coasting) (.halted .coast)
      rw [heq] at hruns
      exact hruns

/-! ## A count taken while the run digs (R95 to R101, R126) -/

theorem State.digsTo.digging {s : State} {ch : Channel} {l : Line} {r : RunContext} {f p : Int} (h : s.digsTo ch l r f p) : s.digging = true := by
  obtain ⟨-, ha, hr, hdig, -⟩ := h
  rw [State.digging_iff, State.runState?_of ha hr, Option.some_inj, Option.some_inj]
  exact hdig

theorem countOf_forward {s : State} {ch : Channel} (h : s.forwardBy ch) :
    countOf s.settings.odoDecode s.chain.levels (changeChannel s.chain.levels ch) = .forward := by
  have hlevels : s.chain.levels = (s.chain.levelA, s.chain.levelB) := rfl
  rcases h with ⟨hv, rfl⟩ | ⟨hv, rfl, hm⟩ | ⟨hv, rfl, hm⟩ | ⟨hv, rfl, hm⟩ <;> rw [hlevels, hv]
  · cases s.settings.odoDecode <;> rfl
  · rw [hm]
    rfl
  · cases hd : s.settings.odoDecode
    · exact absurd hd hm
    · rfl
    · rfl
  · rw [hm]
    rfl

theorem countOf_reverse {s : State} {ch : Channel} (h : s.reverseBy ch) :
    countOf s.settings.odoDecode s.chain.levels (changeChannel s.chain.levels ch) = .reverse := by
  have hlevels : s.chain.levels = (s.chain.levelA, s.chain.levelB) := rfl
  rcases h with ⟨hv, rfl⟩ | ⟨hv, rfl, hm⟩ | ⟨hv, rfl, hm⟩ | ⟨hv, rfl, hm⟩ <;> rw [hlevels, hv]
  · cases s.settings.odoDecode <;> rfl
  · rw [hm]
    rfl
  · cases hd : s.settings.odoDecode
    · exact absurd hd hm
    · rfl
    · rfl
  · rw [hm]
    rfl

/-- The count is taken, and its chainage handed on. -/
theorem exec_count_digging {ch : Channel} {l : Line} {r : RunContext} {f p : Int} {s : State} (h : s.digsTo ch l r f p) :
    exec (.odoValidTransition ch) s = .next ((s.movedTo ch p).handChainage true (r.state == .coasting)) := by
  have hd := h.digging
  obtain ⟨hs, ha, hr, hdig, hf, hk, hpos, h1, h2, hc⟩ := h
  let v := s.takeLevels (changeChannel s.chain.levels ch)
  have hcount : ∀ b : Bool, s.chain.position + s.countLength b = p →
      v.count b = (s.movedTo ch p).handChainage true (r.state == .coasting) := by
    intro b hb
    have hrun : (s.runState? == some .coasting) = (r.state == .coasting) := by
      rw [State.runState?_of ha hr]
      rfl
    have hmoved := v.count_moved b hk (by rw [show v.chain.position + v.countLength b = p from hb]; exact ⟨h1, h2⟩)
    rw [show v.chain.position + v.countLength b = p from hb, if_neg (show ¬p.tdiv 1000 = v.chainage from hc), show v.digging = true from hd,
      show (v.runState? == some .coasting) = (r.state == .coasting) from hrun] at hmoved
    rw [hmoved]
    cases ch <;> rfl
  have hexec := exec_odoValidTransition (ch := ch) hs
  rcases hpos with ⟨hfwd, hp⟩ | ⟨hrev, hp⟩
  · rw [hexec, countOf_forward hfwd]
    exact congrArg _ (hcount true hp.symm)
  · rw [hexec, countOf_reverse hrev]
    exact congrArg _ (hcount false hp.symm)

/-- A chainage below F less BACKUP halts the run before its span serves (R126; log 13). -/
theorem State.handChainage_backtrack {s : State} {l : Line} {r : RunContext} {f : Int} (hk : s.chain.known = true) (ha : s.active? = some l)
    (hr : l.run? = some r) (hdig : s.digging = true) (hf : r.furthest = some f) (hb : 0 ≤ s.settings.backup)
    (hc : s.chainage < f - s.settings.backup) (coasting : Bool) : let k := spanIndex l.spans s.chainage
    s.handChainage true coasting = { s.changeRun (.halted .backtrack) with eval := { s.eval with
      drive := 0, serving := some k, reference := if s.eval.serving = some k then s.eval.reference else none } } := by
  intro k
  have hfurthest : s.furthest? = some f := by rw [State.furthest?, State.context?_of ha hr]; exact hf
  have hback : s.backtrackTest = s.changeRun (.halted .backtrack) := by
    rw [State.backtrackTest, hfurthest]
    dsimp only
    rw [if_pos (decide_eq_true hc), State.haltDigging, if_pos hdig]
  let v := s.changeRun (.halted .backtrack)
  have hline : v.runsLine l { r with state := .halted .backtrack } := State.runsLine_changeRun (State.runsLine_of ha hr) _
  obtain ⟨m, hm, hmr, ⟨-, -, hspans, -, -, -⟩, -⟩ := hline
  have hvspans : v.spanList = l.spans := (State.spanList_of hm).trans hspans
  have hvstation : v.servingStation? = s.servingStation? := by
    rw [State.servingStation?, State.servingStation?, State.servingSpan?, State.servingSpan?, hvspans, State.spanList_of ha]
    rfl
  have hvcut : v.runState? ≠ some .cutting := by
    rw [State.runState?_of hm hmr]
    simp
  have hmove := State.moveServing_of_not_cutting (s := v) hk hvcut
  rw [hvspans, hvstation, show v.chainage = s.chainage from rfl] at hmove
  rw [State.handChainage, hback, hmove]
  have hvf : ∀ e : Evaluator, ({ v with eval := e } : State).furthest? = some f := by
    intro e
    show v.furthest? = some f
    rw [State.furthest?, State.context?_of hm hmr]
    exact hf
  dsimp only
  rw [hvf]
  dsimp only
  rw [if_neg]
  · rw [show v.eval = { s.eval with drive := 0 } from s.changeRun_eval _]
  · rw [Bool.true_and, decide_eq_true_iff]
    show ¬f < s.chainage
    omega

/-- A chainage not below F less BACKUP: its span serves, and F advances to it if it is above F (R100, R101). -/
theorem State.handChainage_digs {s : State} {l : Line} {r : RunContext} {f : Int} (hk : s.chain.known = true) (ha : s.active? = some l)
    (hr : l.run? = some r) (hf : r.furthest = some f) (hc : f - s.settings.backup ≤ s.chainage) (coasting : Bool) :
    s.handChainage true coasting = if f < s.chainage then (s.moveServing s.servingStation?).advance s.chainage coasting
      else s.moveServing s.servingStation? := by
  have hfurthest : s.furthest? = some f := by rw [State.furthest?, State.context?_of ha hr]; exact hf
  have hback : s.backtrackTest = s := by
    rw [State.backtrackTest, hfurthest]
    dsimp only
    rw [if_neg]
    simpa using hc
  obtain ⟨⟨-, hchain, -, -, hline⟩, -⟩ := State.moveServing_stirs hk s.servingStation?
  obtain ⟨x, hx⟩ := hline l r (State.runsLine_of ha hr)
  have hvf : (s.moveServing s.servingStation?).furthest? = some f := by
    rw [State.furthest?, hx.context?]
    exact hf
  have hvc : (s.moveServing s.servingStation?).chainage = s.chainage := by rw [State.chainage, hchain, State.chainage]
  rw [State.handChainage, hback]
  simp only [hvf, hvc, Bool.true_and]
  by_cases h : f < s.chainage
  · rw [if_pos (decide_eq_true h), if_pos h]
  · rw [if_neg (by simpa using h), if_neg h]

/-! ## An advance that meets no point (R102) -/

theorem mem_crossings_of {bs : List Breakpoint} {k : Nat} {b : Breakpoint} (h0 : 0 < k) (hlt : k + 1 < bs.length) (hb : bs[k]? = some b) :
    { chainage := b.point.chainage, kind := .crossing k } ∈ crossings bs := by
  refine List.mem_map.mpr ⟨(b, k), List.mem_iff_getElem?.mpr ⟨k - 1, ?_⟩, rfl⟩
  have hlen : k - 1 < ((bs.zipIdx.drop 1).length - 1) := by
    rw [List.length_drop, List.length_zipIdx]
    omega
  rw [List.getElem?_dropLast, if_pos hlen, List.getElem?_drop, List.getElem?_zipIdx, show 1 + (k - 1) = k by omega, hb]
  simp

/-- The points of the walk, for a state whose ACTIVE line has the profile of `l`. -/
theorem State.mem_points_iff {s : State} {l : Line} {r : RunContext} (h : s.runsLine l r) {m : Meeting} :
    m ∈ s.points ↔ s.HasPoint l r m := by
  obtain ⟨k, ha, hr, ⟨-, hpoints, -⟩, hprofile⟩ := h
  have hlength : k.length = l.length := congrArg lengthOf hpoints
  have hwarn : s.endWarningPoint k = s.endWarningPoint l := congrArg (fun n => n - s.settings.endWarn) hlength
  constructor
  · intro hm
    obtain ⟨k', r', ha', hr', hpoint⟩ := State.mem_points hm
    cases ha.symm.trans ha'
    cases hr.symm.trans hr'
    cases hpoint with
    | crossing i b h0 hlt hb => exact .crossing i b h0 (hprofile ▸ hlt) (hprofile ▸ hb)
    | firstMark x hx => exact .firstMark x hx
    | secondMark x hx => exact .secondMark x hx
    | endWarning hw => exact hwarn ▸ .endWarning hw
    | completion => exact hlength ▸ .completion
  · intro hm
    have hpoints : s.points = crossings l.profile ++ markMeeting r.mark1 .firstMark ++ markMeeting r.mark2 .secondMark
        ++ (if s.chain.endWarned then [] else [{ chainage := s.endWarningPoint l, kind := .endWarning }])
        ++ [{ chainage := l.length, kind := .completion }] := by
      rw [State.points, ha, State.context?_of ha hr, ← hprofile, ← hwarn, ← hlength]
    rw [hpoints]
    simp only [List.mem_append]
    cases hm with
    | crossing i b h0 hlt hb => exact .inl (.inl (.inl (.inl (mem_crossings_of h0 hlt hb))))
    | firstMark x hx => exact .inl (.inl (.inl (.inr (by simp [markMeeting, hx]))))
    | secondMark x hx => exact .inl (.inl (.inr (by simp [markMeeting, hx])))
    | endWarning hw => exact .inl (.inr (by simp [hw]))
    | completion => exact .inr (List.mem_singleton.mpr rfl)

/-- Every point that lies ahead in the advance is left to a later one. -/
theorem State.nextPoint?_of_left {s : State} {l : Line} {r : RunContext} (h : s.runsLine l r) {last : Meeting} {changedAt : Option Int} {new : Int}
    (hleft : ∀ m, s.HasPoint l r m → last.before m = true → m.chainage ≤ new → m.isLeft changedAt = true) :
    s.nextPoint? last changedAt new = none :=
  State.nextPoint?_none.mpr fun m hm => hleft m ((State.mem_points_iff h).mp hm)

/-- The one point that lies ahead in the advance is met next. -/
theorem State.nextPoint?_of_one {s : State} {l : Line} {r : RunContext} (h : s.runsLine l r) {last m : Meeting} {new : Int}
    (hm : s.HasPoint l r m) (hbefore : last.before m = true) (hle : m.chainage ≤ new)
    (hone : ∀ x, s.HasPoint l r x → last.before x = true → x.chainage ≤ new → x = m) : s.nextPoint? last none new = some m := by
  have hmem : m ∈ s.points.filter (fun x => last.before x && decide (x.chainage ≤ new) && !x.isLeft none) := by
    refine List.mem_filter.mpr ⟨(State.mem_points_iff h).mpr hm, ?_⟩
    simp [hbefore, hle]
  obtain ⟨x, hx⟩ := Option.ne_none_iff_exists'.mp (fun hnone => List.ne_nil_of_mem hmem (earliest_eq_none.mp hnone))
  obtain ⟨hxmem, hxcond⟩ := List.mem_filter.mp (earliest_mem hx)
  rw [Meeting.isLeft_none, Bool.not_false, Bool.and_true, Bool.and_eq_true] at hxcond
  rw [State.nextPoint?, hx, hone x ((State.mem_points_iff h).mp hxmem) hxcond.1 (of_decide_eq_true hxcond.2)]

/-- Nothing at the old F itself lies ahead. -/
theorem Meeting.before_of_start {f : Int} {m : Meeting} : Meeting.before { chainage := f, kind := .completion } m = true ↔ f < m.chainage := by
  rw [Meeting.before_iff]
  refine ⟨fun h => h.resolve_right (fun hr => ?_), .inl⟩
  cases hk : m.kind <;> rw [hk] at hr <;> simp [PointKind.rank] at hr

theorem State.HasPoint.not_ahead {s : State} {l : Line} {r : RunContext} {f c : Int} (h : s.noPoint l r f c) {m : Meeting}
    (hm : s.HasPoint l r m) : m.chainage ≤ f ∨ c < m.chainage := by
  obtain ⟨hlen, hcross, hmark, hwarn⟩ := h
  cases hm with
  | crossing i b h0 hlt hb => exact hcross b (List.mem_of_getElem? hb)
  | firstMark x hx => exact hmark x (.inl hx)
  | secondMark x hx => exact hmark x (.inr hx)
  | endWarning hw =>
    exact .inr (hwarn.resolve_left (by simp [hw]))
  | completion => exact .inr hlen

theorem State.advance_eq {s : State} {old : Int} (h : s.furthest? = some old) (new : Int) (coasting : Bool) : s.advance new coasting
    = ((s.warnLate old).walk (s.warnLate old).walkFuel { chainage := old, kind := .completion } none new).handOn old new coasting := by
  rw [State.advance, h]

theorem State.warnLate_of {s : State} {l : Line} (ha : s.active? = some l) (old : Int) : s.warnLate old =
    if s.chain.endWarned = false ∧ l.length - s.settings.endWarn ≤ old then s.warnEnd else s := by
  have hcond : (!s.chain.endWarned && decide (s.endWarningPoint l ≤ old)) = true
      ↔ s.chain.endWarned = false ∧ l.length - s.settings.endWarn ≤ old := by
    rw [Bool.and_eq_true, Bool.not_eq_true', decide_eq_true_iff]
    exact Iff.rfl
  rw [State.warnLate, ha]
  dsimp only
  by_cases h : s.chain.endWarned = false ∧ l.length - s.settings.endWarn ≤ old
  · rw [if_pos (hcond.mpr h), if_pos h]
  · rw [if_neg (fun hc => h (hcond.mp hc)), if_neg h]

theorem State.runsLine.length {s : State} {l : Line} {r : RunContext} (h : s.runsLine l r) : ∃ m, s.active? = some m ∧ m.run? = some r
    ∧ m.length = l.length := by
  obtain ⟨m, ha, hr, ⟨-, hpoints, -⟩, -⟩ := h
  exact ⟨m, ha, hr, congrArg lengthOf hpoints⟩

/-- No end warning is late in an advance that does not come to its point. -/
theorem State.warnLate_noWarning {s : State} {l : Line} {r : RunContext} {f c : Int} (h : s.runsLine l r) (hfc : f ≤ c)
    (hwarn : s.noWarning l c) : s.warnLate f = s := by
  obtain ⟨m, ha, -, hlength⟩ := h.length
  rw [State.warnLate_of ha, hlength, if_neg]
  rintro ⟨hw, hle⟩
  rcases hwarn with hwarn | hwarn
  · rw [hw] at hwarn
    cases hwarn
  · omega

/-- A walk from the old F has nothing to meet in an advance with no point in it. -/
theorem State.nextPoint?_noPoint {s : State} {l : Line} {r : RunContext} {f c : Int} (h : s.runsLine l r) (hnone : s.noPoint l r f c) :
    s.nextPoint? { chainage := f, kind := .completion } none c = none :=
  State.nextPoint?_of_left h fun m hm hbefore hle => by
    have hlt := Meeting.before_of_start.mp hbefore
    have := hm.not_ahead hnone
    omega

/-- An advance with no point in it hands its F on at once. -/
theorem State.advance_noPoint {s : State} {l : Line} {r : RunContext} {f c : Int} (h : s.runsLine l r) (hf : r.furthest = some f) (hfc : f ≤ c)
    (hnone : s.noPoint l r f c) (coasting : Bool) : s.advance c coasting = s.handOn f c coasting := by
  have hfurthest : s.furthest? = some f := by rw [State.furthest?, h.context?]; exact hf
  rw [State.advance_eq hfurthest, State.warnLate_noWarning h hfc hnone.2.2.2, State.walk_none (State.nextPoint?_noPoint h hnone)]

/-! ## F moved on by a count (R100, R101, R125, R126) -/

theorem State.runsTo_movedTo (s : State) (ch : Channel) (p : Int) (ks : List EventKind) : s.runsTo (s.movedTo ch p) ks :=
  s.runsTo_updChain (fun _ => (s.movedTo ch p).chain)

theorem State.runsLine.unique {s : State} {l l' : Line} {r r' : RunContext} (h : s.runsLine l r) (h' : s.runsLine l' r') : r = r' :=
  Option.some.inj (h.context?.symm.trans h'.context?)

/-- A span that serves a run in COASTING leaves its state, its timer and its coast. -/
theorem State.servesWith_coasting {s : State} {l : Line} {r r' : RunContext} {k : Nat} {b : State} (h : s.servesWith l r k b r')
    (hc : r.state = .coasting) : r' = r ∧ b.run = s.run := by
  rcases h with ⟨-, rfl, rfl⟩ | ⟨-, -, rfl, rfl⟩ | ⟨-, hcut, -⟩
  · exact ⟨rfl, rfl⟩
  · exact ⟨rfl, rfl⟩
  · rw [hc] at hcut
    cases hcut

/-- The count above F: the span serves, and F advances. -/
theorem exec_count_advances {ch : Channel} {l : Line} {r : RunContext} {f p : Int} {s : State} (h : s.digsTo ch l r f p)
    (hb : 0 ≤ s.settings.backup) (hc : f < Int.tdiv p 1000) : let M := s.movedTo ch p
    exec (.odoValidTransition ch) s
      = .next ((M.moveServing M.servingStation?).advance (Int.tdiv p 1000) (r.state == .coasting)) := by
  intro M
  have hexec := exec_count_digging h
  obtain ⟨-, ha, hr, -, hf, hk, -⟩ := h
  have hMc : M.chainage = Int.tdiv p 1000 := rfl
  have hdigs := State.handChainage_digs (s := M) hk ha hr hf
    (by rw [hMc, show M.settings = s.settings from rfl]; omega) (r.state == .coasting)
  rw [hMc, if_pos hc] at hdigs
  exact hexec.trans (congrArg Host.Outcome.next hdigs)

/-- F handed on, in either end of the travel. -/
theorem State.handOn_digsOn {s v : State} {l m : Line} {r : RunContext} (ha : v.active? = some m) (hr : m.run? = some r)
    (hprofile : m.profile = l.profile) (hset : v.settings = s.settings) (f c : Int) (coasting : Bool) :
    s.digsOn (v.handOn f c coasting) l.profile f c coasting := by
  obtain ⟨-, -, -, ⟨k, hk, -, hreach⟩, -, hon, hend⟩ := State.handOn_spec ha hr f c coasting
  rw [hprofile, hset] at hreach
  refine ⟨?_, k, hk, hreach⟩
  by_cases hends : v.coastEnds r f c coasting
  · rw [State.furthest?, (hend hends).2.2.1]
    rfl
  · rw [State.furthest?, (hon hends).2.2.1]
    rfl

theorem State.permit_of_halted {s : State} {h : HaltReason} (hs : s.runState? = some (.halted h)) : s.permit = false := by
  rw [State.permit, hs]
  exact Bool.and_false _

/-- Settles O45: the BACKTRACK test, the move of the serving span, and the hand-on of an F that meets no point. -/
theorem advanceMovesF : Obligations.AdvanceMovesF := by
  intro ch l r f p s h hb c k moved becomes
  have hexec := exec_count_digging h
  have hdig := h.digging
  have hadv := exec_count_advances h hb
  obtain ⟨-, ha, hr, -, hf, hk, -⟩ := h
  refine ⟨fun hc => ?_, fun hc hle b r' hserves => ?_, fun hc hnone => ?_⟩
  · have hback := State.handChainage_backtrack (s := moved) hk ha hr hdig hf hb hc (r.state == .coasting)
    exact hexec.trans (congrArg Host.Outcome.next hback)
  · have hdigs := State.handChainage_digs (s := moved) hk ha hr hf hc (r.state == .coasting)
    obtain ⟨hmove, -⟩ := State.moveServing_serves (s := moved) hk ha hr rfl hserves
    rw [show moved.chainage = c from rfl, if_neg (by omega), hmove] at hdigs
    exact hexec.trans (congrArg Host.Outcome.next hdigs)
  · have hmove : ∀ b r', moved.servesWith l r k b r' → moved.moveServing moved.servingStation? = b ∧ b.runsLine l r' :=
      fun b r' => State.moveServing_serves (s := moved) hk ha hr rfl
    have hexec : exec (.odoValidTransition ch) s
        = .next ((moved.moveServing moved.servingStation?).advance c (r.state == .coasting)) := hadv hc
    obtain ⟨⟨vruns, vchain, vothers, -, vline⟩, vserving, vreference⟩ := State.moveServing_stirs (s := moved) hk moved.servingStation?
    generalize moved.moveServing moved.servingStation? = v at hexec hmove vruns vchain vothers vline vserving vreference
    obtain ⟨x, hx⟩ := vline l r (State.runsLine_of ha hr)
    have hvnone : v.noPoint l { r with state := x } f c := by
      obtain ⟨h1, h2, h3, h4⟩ := hnone
      refine ⟨h1, h2, h3, ?_⟩
      rw [State.noWarning, vchain, vruns.settings]
      exact h4
    rw [State.advance_noPoint hx hf hc.le hvnone] at hexec
    have hctx : ∀ b r', moved.servesWith l r k b r' → v = b ∧ { r with state := x } = r' := fun b r' hserves => by
      obtain ⟨hvb, hline⟩ := hmove b r' hserves
      exact ⟨hvb, hx.unique (hvb ▸ hline)⟩
    obtain ⟨m, hm, hmr, -, hprofile⟩ := hx
    have hdigs := State.handOn_digsOn (s := s) hm hmr hprofile vruns.settings f c (r.state == .coasting)
    obtain ⟨truns, tchain, tothers, -, tclose, ton, tend⟩ := State.handOn_spec hm hmr f c (r.state == .coasting)
    generalize v.handOn f c (r.state == .coasting) = t at hexec hdigs truns tchain tothers tclose ton tend
    have hruns : s.runsTo t [.run, .coast, .halt, .close] :=
      ((s.runsTo_movedTo ch p _).trans (vruns.mono (by simp))).trans (truns.mono (by simp))
    have hserving : t.eval.serving = v.eval.serving ∧ t.eval.reference = v.eval.reference := by
      by_cases hends : v.coastEnds { r with state := x } f c (r.state == .coasting)
      · rw [(tend hends).1]
        exact ⟨rfl, rfl⟩
      · rw [(ton hends).1]
        exact ⟨rfl, rfl⟩
    have hspan : spanIndex moved.spanList moved.chainage = k := congrArg (fun xs => spanIndex xs c) (State.spanList_of (s := moved) ha)
    rw [hspan] at vserving vreference
    obtain ⟨-, -, -, hlink, hrecheck, -, hstations, hsettings, -, -, -⟩ := id hruns
    refine ⟨t, hexec, hdigs, tchain.trans vchain, hserving.1.trans vserving, fun hne => hserving.2.trans (vreference hne), hlink, hrecheck,
      hsettings, hstations, (State.othersStand_of_lines (t := moved) rfl).trans (vothers.trans tothers), hruns.keeps, hruns.raises,
      fun q => ?_, fun b r' hserves => ⟨fun hcut => ?_, ?_⟩⟩
    · rw [tclose, vruns.event_iff q (by simp), Line.passes_congr hprofile, vruns.settings]
      cases q <;> exact Iff.rfl
    · obtain ⟨rfl, hr'⟩ := hctx b r' hserves
      have hnot : ¬v.coastEnds { r with state := x } f c (r.state == .coasting) := fun hends => by
        have hfalse := hends.1
        rw [hcut] at hfalse
        exact absurd hfalse (by decide)
      obtain ⟨teval, trun, tcontext, traises⟩ := ton hnot
      rw [hcut] at trun
      exact ⟨trun, teval, hr' ▸ tcontext, traises⟩
    · intro hco coast
      obtain ⟨rfl, hr'⟩ := hctx b r' hserves
      obtain ⟨hsame, hrun⟩ := State.servesWith_coasting hserves hco
      have hcoast : v.coastTo f c (r.state == .coasting) = coast := by
        rw [hco]
        exact congrArg (fun u : RunUnit => u.coast + (c - f)) hrun
      have hends : v.coastEnds { r with state := x } f c (r.state == .coasting) ↔ s.settings.coastLimit ≤ coast := by
        rw [State.coastEnds, hcoast, vruns.settings, hr', hsame, hco]
        exact ⟨fun h => h.2.2, fun h => ⟨rfl, rfl, h⟩⟩
      rw [hcoast] at ton tend
      rw [hr'] at ton tend hends
      refine ⟨fun hlt => ?_, fun hle => ?_⟩
      · obtain ⟨teval, trun, tcontext, traises⟩ := ton (fun h => absurd (hends.mp h) (not_le.mpr hlt))
        exact ⟨trun, teval, tcontext, traises⟩
      · obtain ⟨teval, trun, tcontext, tevents⟩ := tend (hends.mpr hle)
        exact ⟨trun, teval, tcontext, State.permit_of_halted (congrArg (Option.map RunContext.state) tcontext), truns.raises, tevents⟩

end Sys2Proof.Machine
end

section
/-! PROOF. The points that an advance of F meets, each alone in its advance: breakpoint crossings and the application on its way, marks, the
end warning, completion (06, 07, 09; R102 to R107, R128 to R130, R145, R156 to R158). -/
namespace Sys2Proof.Machine

/-! ## One point in an advance -/

/-- An advance that meets one point: the point, and the new F handed on. -/
theorem State.advance_of_one {s : State} {l : Line} {f c : Int} {p : Meeting} (ha : s.active? = some l) (hf : s.furthest? = some f)
    (hlate : s.warnLate f = s) (hnext : s.nextPoint? { chainage := f, kind := .completion } none c = some p)
    (hdone : (s.meet p).nextPoint? p (changeAt s (s.meet p) p none) c = none) (coasting : Bool) :
    s.advance c coasting = (s.meet p).handOn f c coasting := by
  have hfuel : s.walkFuel = l.slots + 4 + 1 := by rw [State.walkFuel, ha]
  rw [State.advance_eq hf, hlate, hfuel, State.walk_some hnext, State.walk_none hdone]

/-- After a point within the advance nothing is left to meet, where the crossings of the line lie at or below it, its marks outside the advance,
its length above the advance, and its end warning is given, above the advance or left to the next one. -/
theorem State.nextPoint?_done {s : State} {l : Line} {r : RunContext} (h : s.runsLine l r) {p : Meeting} {f c : Int} {changed : Option Int}
    (hp : f < p.chainage)
    (hcross : ∀ (k : Nat) (b : Breakpoint), l.profile[k]? = some b → b.point.chainage ≤ p.chainage ∨ c < b.point.chainage)
    (hmark : r.noMark f c)
    (hwarn : s.noWarning l c ∨ ∃ y, changed = some y ∧ l.length - s.settings.endWarn ≤ y)
    (hlength : c < l.length) : s.nextPoint? p changed c = none := by
  refine State.nextPoint?_of_left h fun m hm hbefore hle => ?_
  rw [Meeting.before_iff] at hbefore
  cases hm with
  | crossing k b h0 hlt hb =>
    rcases hcross k b hb with hbelow | habove
    · rcases hbefore with hlt | ⟨-, hrank⟩
      · exact absurd hlt (not_lt.mpr hbelow)
      · exact absurd hrank (Nat.not_lt_zero _)
    · exact absurd hle (not_le.mpr habove)
  | firstMark x hx =>
    have := hmark x (.inl hx)
    dsimp only at hbefore hle
    omega
  | secondMark x hx =>
    have := hmark x (.inr hx)
    dsimp only at hbefore hle
    omega
  | endWarning hw =>
    have hpoint : s.endWarningPoint l = l.length - s.settings.endWarn := rfl
    rcases hwarn with (hgiven | habove) | ⟨y, rfl, hbelow⟩
    · rw [hw] at hgiven
      cases hgiven
    · exact absurd hle (not_le.mpr (hpoint ▸ habove))
    · rw [Meeting.isLeft, Option.any_some, hpoint, decide_eq_true hbelow]
      rfl
  | completion => exact absurd hle (not_le.mpr hlength)

/-- What the hand-on leaves of the run, whether or not it comes to COAST_LIMIT. -/
theorem State.handOn_run {s : State} {m : Line} {r : RunContext} (ha : s.active? = some m) (hr : m.run? = some r) (f c : Int) (coasting : Bool) :
    let t := s.handOn f c coasting
    t.run.coast = s.coastTo f c coasting ∧ t.run.lastDrop = s.run.lastDrop ∧ t.chain = s.chain ∧ t.eval.serving = s.eval.serving
      ∧ t.staged? = m.staged? ∧ (∃ k, t.active? = some k ∧ m.sameDesign k) ∧ s.runsTo t [.run, .halt, .close] := by
  intro t
  obtain ⟨hruns, hchain, -, ⟨k, hk, hdesign, -⟩, -, hon, hends⟩ := State.handOn_spec ha hr f c coasting
  have hstaged : t.staged? = m.staged? := by
    obtain ⟨-, -, -, -, -, hs⟩ := id hdesign
    rw [State.staged?, hk]
    exact hs
  have hrest : t.run.coast = s.coastTo f c coasting ∧ t.run.lastDrop = s.run.lastDrop ∧ t.eval.serving = s.eval.serving := by
    by_cases h : s.coastEnds r f c coasting
    · obtain ⟨heval, hrun, -⟩ := hends h
      exact ⟨congrArg RunUnit.coast hrun, (congrArg RunUnit.lastDrop hrun :), (congrArg Evaluator.serving heval :)⟩
    · obtain ⟨heval, hrun, -⟩ := hon h
      exact ⟨congrArg RunUnit.coast hrun, (congrArg RunUnit.lastDrop hrun :), (congrArg Evaluator.serving heval :)⟩
  obtain ⟨hcoast, hdrop, hserving⟩ := hrest
  exact ⟨hcoast, hdrop, hchain, hserving, hstaged, ⟨k, hk, hdesign⟩, hruns⟩

/-- The run context after the hand-on, where an advance counted in COASTING finds COASTING. -/
theorem State.handOn_context {s : State} {m : Line} {r : RunContext} (ha : s.active? = some m) (hr : m.run? = some r) {f c : Int} {coasting : Bool}
    (hco : coasting = true → r.state = .coasting) : (s.handOn f c coasting).context? = some { r with
      furthest := some c
      state := if coasting = true ∧ s.settings.coastLimit ≤ s.coastTo f c coasting then .halted .coast else r.state } := by
  obtain ⟨-, -, -, -, -, hon, hends⟩ := State.handOn_spec ha hr f c coasting
  by_cases h : coasting = true ∧ s.settings.coastLimit ≤ s.coastTo f c coasting
  · obtain ⟨-, -, hcontext, -⟩ := hends ⟨h.1, hco h.1, h.2⟩
    rw [hcontext, if_pos h]
  · obtain ⟨-, -, hcontext, -⟩ := hon (fun he => h ⟨he.1, he.2.2⟩)
    rw [hcontext, if_neg h]

/-! ## The crossing of a breakpoint (R103, R128, R156) -/

/-- The crossing before the staged revision is looked at. -/
def State.crossed (s : State) (k : Nat) (x : Int) : State := (s.setFurthest x).enterSegment k

/-- The record after that. -/
def Line.crossed (l : Line) (k : Nat) (x : Int) : Line := (l.updRun (fun r => { r with furthest := some x })).entered k

theorem State.crossed_active? {s : State} {l : Line} (ha : s.active? = some l) (k : Nat) (x : Int) :
    (s.crossed k x).active? = some (l.crossed k x) := by
  refine (State.updActive_active? (f := fun m => m.entered k) (fun _ h => h) (s.setFurthest x)).trans ?_
  rw [State.setFurthest_active? ha]
  rfl

theorem State.runsTo_crossed (s : State) (k : Nat) (x : Int) : s.runsTo (s.crossed k x) [] :=
  (s.runsTo_updRun _).trans (State.runsTo_updActive _ _)

/-- The crossing, as its staged revision stands. -/
theorem State.cross_of {s : State} {l : Line} (ha : s.active? = some l) (k : Nat) (x : Int) :
    (l.staged? = none → s.cross k x = s.crossed k x)
      ∧ ∀ g, l.staged? = some g → (g.settled = false → s.cross k x = (s.crossed k x).raise .waiting)
        ∧ (g.settled = true → s.cross k x = (s.crossed k x).applyOrDrop (l.crossed k x) g) := by
  have hact : (s.crossed k x).active? = some (l.crossed k x) := State.crossed_active? ha k x
  have hstaged : (s.crossed k x).staged? = l.staged? := by
    rw [State.staged?, hact]
    exact l.updRun_staged? _
  have hcross : s.cross k x = match (s.crossed k x).active?, (s.crossed k x).staged? with
    | some l, some st => if st.settled then (s.crossed k x).applyOrDrop l st else (s.crossed k x).raise .waiting
    | _, _ => s.crossed k x := rfl
  rw [hact, hstaged] at hcross
  refine ⟨fun h => ?_, fun g h => ⟨fun hg => ?_, fun hg => ?_⟩⟩
  · rw [hcross, h]
  · rw [hcross, h]
    dsimp only
    rw [hg]
    rfl
  · rw [hcross, h]
    dsimp only
    rw [hg]
    rfl

/-- A line with its F written and segment k entered: what stays of it. -/
theorem Line.crossed_fields (l : Line) (k : Nat) (x : Int) : let m := l.crossed k x
    m.id = l.id ∧ m.points = l.points ∧ m.spans = l.spans ∧ m.revision = l.revision ∧ m.status = l.status ∧ m.staged? = l.staged?
      ∧ m.outlet = l.outlet ∧ m.profile = (l.entered k).profile ∧ m.run? = l.run?.map (fun r => { r with furthest := some x }) :=
  ⟨l.updRun_id _, (Line.entered_points _ k).trans (l.updRun_points _), l.updRun_spans _, l.updRun_revision _, l.updRun_status _, l.updRun_staged? _,
    l.updRun_outlet _, congrArg (updNth k (fun b => { b with closure := some Closure.entered })) (l.updRun_profile _), l.updRun_run? _⟩

theorem meetsFreeze_congr {st st' : Store} {l m : Line} (hpoints : m.points = l.points) (hspans : m.spans = l.spans)
    (hset : st'.settings = st.settings) (f : Option Int) (pts : List Point) (spans : List Span) :
    meetsFreeze st' m f pts spans = meetsFreeze st l f pts spans := by
  have hfreeze : freezeChainage st' m f = freezeChainage st l f := by
    cases f with
    | none => rfl
    | some f =>
      rw [freezeChainage, freezeChainage, hset, Line.length, hpoints]
      rfl
  rw [meetsFreeze, meetsFreeze, hfreeze, hpoints, hspans]

/-- A staged revision that a crossing finds SETTLED is applied where it meets the freeze condition there, and goes FROZEN otherwise (R156). -/
theorem State.crossed_applyOrDrop {s : State} {l : Line} {r : RunContext} (ha : s.active? = some l) (hr : l.run? = some r) (k : Nat) (x : Int)
    (g : Staged) : (s.crossed k x).applyOrDrop (l.crossed k x) g = if meetsFreeze s.store l (some x) g.profile g.spans then (s.crossed k x).applyStaged (l.crossed k x) g
      else (s.crossed k x).dropStaged (l.crossed k x) .frozen := by
  obtain ⟨-, hpoints, hspans, -, -, -, -, -, hrun⟩ := l.crossed_fields k x
  rw [hr] at hrun
  have hf : (s.crossed k x).furthest? = some x := by
    rw [State.furthest?, State.context?_of (State.crossed_active? ha k x) hrun]
    rfl
  rw [State.applyOrDrop, hf, meetsFreeze_congr (st := s.store) (st' := (s.crossed k x).store) (l := l) hpoints hspans rfl]

/-- The staged revision of the ACTIVE line goes, with its drop noted (R159). -/
theorem State.dropStaged_spec (s : State) {m : Line} (ha : s.active? = some m) (reason : DropReason) : let t := s.dropStaged m reason
    t.active? = some (m.setStaged none) ∧ s.runsTo t [.dropped] ∧ t.run.coast = s.run.coast
      ∧ t.run.lastDrop = some { id := m.id, reason := reason } ∧ ∀ q : Port, .dropped ∈ (t.port q).events := by
  intro t
  refine ⟨?_, ((s.runsTo_updActive _).trans (State.runsTo_raise _ (by simp))).trans (State.runsTo_updRunUnit _ _), rfl, rfl,
    fun q => (State.mem_raise (q := q)).mpr (.inl rfl)⟩
  refine (State.updActive_active? (s := s) (f := fun l => l.setStaged none) (fun n hn => (n.setStaged_isActive _).trans hn)).trans ?_
  rw [ha]
  rfl

/-- A crossing that applies nothing: the segment is entered, and the staged revision waits or goes. -/
theorem State.cross_unapplied {s : State} {l : Line} {r : RunContext} (ha : s.active? = some l) (hr : l.run? = some r) (k : Nat) (x : Int)
    (hno : ¬∃ g, l.staged? = some g ∧ g.settled = true ∧ meetsFreeze s.store l (some x) g.profile g.spans = true) :
    ∃ m, (s.cross k x).active? = some m ∧ m.run? = some { r with furthest := some x } ∧ m.profile = (l.entered k).profile
      ∧ s.runsTo (s.cross k x) [.waiting, .dropped] ∧ (s.cross k x).chain = s.chain ∧ (s.cross k x).run.coast = s.run.coast
      ∧ (l.staged? = none → m.staged? = none ∧ (s.cross k x).run.lastDrop = s.run.lastDrop)
      ∧ (∀ g, l.staged? = some g → g.settled = false → m.staged? = some g ∧ (s.cross k x).run.lastDrop = s.run.lastDrop
        ∧ ∀ q : Port, .waiting ∈ ((s.cross k x).port q).events)
      ∧ (∀ g, l.staged? = some g → g.settled = true → m.staged? = none ∧ (s.cross k x).run.lastDrop = some { id := l.id, reason := .frozen }
        ∧ ∀ q : Port, .dropped ∈ ((s.cross k x).port q).events) := by
  obtain ⟨hnone, hsome⟩ := State.cross_of ha k x
  obtain ⟨hid, -, -, -, -, hstaged, -, hprofile, hrun⟩ := l.crossed_fields k x
  have hact := State.crossed_active? ha k x
  have hbase := s.runsTo_crossed k x
  rw [hr] at hrun
  cases hst : l.staged? with
  | none =>
    rw [hnone hst]
    exact ⟨_, hact, hrun, hprofile, hbase.mono (by simp), rfl, rfl, fun _ => ⟨hstaged.trans hst, rfl⟩, fun _ h => (nomatch h), fun _ h => (nomatch h)⟩
  | some g =>
    cases hg : g.settled with
    | false =>
      rw [(hsome g hst).1 hg]
      refine ⟨_, hact, hrun, hprofile, (hbase.mono (by simp)).trans (State.runsTo_raise _ (by simp)), rfl, rfl, fun h => (nomatch h),
        fun g' h' hg' => ?_, fun g' h' hg' => ?_⟩
      · exact ⟨hstaged.trans (hst.trans h'), rfl, fun q => State.mem_raise.mpr (.inl rfl)⟩
      · cases h'
        rw [hg] at hg'
        cases hg'
    | true =>
      have hfalse : ¬meetsFreeze s.store l (some x) g.profile g.spans = true := fun h => hno ⟨g, hst, hg, h⟩
      rw [(hsome g hst).2 hg, State.crossed_applyOrDrop ha hr, if_neg hfalse]
      obtain ⟨m1, m2, m3, m4, m5⟩ := (s.crossed k x).dropStaged_spec hact .frozen
      rw [hid] at m4
      refine ⟨_, m1, (Line.setStaged_run? _ _).trans hrun, (Line.setStaged_profile _ _).trans hprofile, (hbase.mono (by simp)).trans (m2.mono (by simp)),
        rfl, m3, fun h => (nomatch h), fun g' h' hg' => ?_, fun g' h' hg' => ⟨Line.setStaged_none_staged? _, m4, m5⟩⟩
      cases h'
      rw [hg] at hg'
      cases hg'

/-! ## The application on the way of a crossing (R157, R158) -/

theorem State.marksLine_crossed (s : State) (l : Line) (k : Nat) (x : Int) :
    (s.crossed k x).marksLine (.parent (l.crossed k x).id) (l.crossed k x) = s.marksLine (.parent l.id) l := by
  obtain ⟨hid, -, -, -, -, -, houtlet, -⟩ := l.crossed_fields k x
  have hhits : Change.hitsLine (.parent l.id) (l.crossed k x) = Change.hitsLine (.parent l.id) l :=
    congrArg (fun o : Option Outlet => (o.map (fun o => o.parent)) == some l.id) houtlet
  rw [State.marksLine, State.marksLine, hid, hhits]
  rfl

/-- The crossing at which a SETTLED revision is applied: the line takes the lists and runs on under their spans. -/
theorem State.cross_applied {s : State} {l : Line} {r : RunContext} {g : Staged} (ha : s.active? = some l) (hr : l.run? = some r)
    (hknown : s.chain.known = true) {k : Nat} {x : Int} (hst : l.staged? = some g) (hg : g.settled = true)
    (hmeets : meetsFreeze s.store l (some x) g.profile g.spans = true) (hself : s.marksLine (.parent l.id) l = false) :
    let u := s.cross k x
    ∃ n y, u.active? = some n ∧ ((l.crossed k x).revised g).sameDesign n ∧ n.profile = ((l.crossed k x).applied g).profile
      ∧ n.run? = some { r with
          furthest := some x
          mark1 := keepMark (lengthOf g.profile) r.mark1
          mark2 := keepMark (lengthOf g.profile) r.mark2
          state := y }
      ∧ u.settings = s.settings
      ∧ u.chain = s.chain.fitted (decide (lengthOf g.profile ≠ l.length)) (some x) (lengthOf g.profile - s.settings.endWarn)
      ∧ u.eval.serving = some (spanIndex g.spans s.chainage) ∧ u.run.lastDrop = s.run.lastDrop
      ∧ (∀ q : Port, .revised ∈ (u.port q).events) ∧ s.raisesOnly u [.backlog, .swept, .run, .coast, .halt, .revised] := by
  intro u
  obtain ⟨-, hpoints, -, -, -, -, -, -, hrun⟩ := l.crossed_fields k x
  rw [hr] at hrun
  have hact := State.crossed_active? ha k x
  have heself := (s.marksLine_crossed l k x).trans hself
  have hef : (s.crossed k x).furthest? = some x := by
    rw [State.furthest?, State.context?_of hact hrun]
    rfl
  have hlength : (l.crossed k x).length = l.length := congrArg lengthOf hpoints
  have hu : u = (((s.crossed k x).revisionWritten (l.crossed k x) g).moveServing (s.crossed k x).servingStation?).raise .revised := by
    show s.cross k x = _
    rw [((State.cross_of ha k x).2 g hst).2 hg, State.crossed_applyOrDrop ha hr, if_pos hmeets, State.applyStaged_eq]
  have hwact := State.revisionWritten_active? hact heself g
  have hweq := State.revisionWritten_eq hact heself g
  obtain ⟨⟨-, -, -, -, -, -, -, -, -, kraises⟩, krun, -, ksettings⟩ := (s.crossed k x).replacedMarked_keeps (l.crossed k x) g
  rw [hef, hlength] at hweq
  generalize (s.crossed k x).replacedMarked (l.crossed k x) g = X at hweq kraises krun ksettings
  generalize (s.crossed k x).revisionWritten (l.crossed k x) g = w at hu hwact hweq
  have hwchain : w.chain = s.chain.fitted (decide (lengthOf g.profile ≠ l.length)) (some x) (lengthOf g.profile - s.settings.endWarn) := by
    rw [hweq]
    rfl
  have hwknown : w.chain.known = true := by
    rw [hwchain]
    exact hknown
  have hwsettings : w.settings = s.settings := by
    rw [hweq]
    exact ksettings
  have hwraises : s.raisesOnly w [.backlog, .swept] := fun q e he => by
    have hport : (w.port q).events = (X.port q).events := by
      rw [hweq]
      cases q <;> rfl
    rw [hport, kraises q e he]
    cases q <;> exact Iff.rfl
  have hwdrop : w.run.lastDrop = s.run.lastDrop := by
    rw [hweq]
    exact congrArg RunUnit.lastDrop krun
  obtain ⟨⟨vruns, vchain, -, vdrop, vline⟩, vserving, -⟩ := State.moveServing_stirs hwknown (s.crossed k x).servingStation?
  obtain ⟨y, n, hn, hnr, hdesign, hprofile⟩ := vline _ _ (State.runsLine_of hwact (Line.revised_run? hrun g))
  obtain ⟨-, hspans, -, -, hrevised, -⟩ := (l.crossed k x).revised_fields g
  have hspan : spanIndex w.spanList w.chainage = spanIndex g.spans s.chainage := by
    rw [State.spanList_of hwact, hspans, State.chainage, hwchain]
    rfl
  rw [hu]
  generalize w.moveServing (s.crossed k x).servingStation? = v at vruns vchain vdrop vserving hn
  refine ⟨n, y, hn, hdesign, hprofile.trans hrevised, hnr, vruns.settings.trans hwsettings, vchain.trans hwchain, vserving.trans (congrArg some hspan),
    vdrop.trans hwdrop, fun q => State.mem_raise.mpr (.inl rfl), fun q e he => ?_⟩
  have hev := vruns.raises q e (by simp_all)
  rw [State.mem_raise, hev, hwraises q e (by simp_all)]
  exact or_iff_right (by simp_all)

/-- An application keeps a mark or disarms it: it puts none into the advance. -/
theorem RunContext.noMark_keepMark {r : RunContext} {f c : Int} (h : r.noMark f c) (n : Int) (y : RunState) (x : Int) :
    ({ r with furthest := some x, mark1 := keepMark n r.mark1, mark2 := keepMark n r.mark2, state := y } : RunContext).noMark f c := by
  intro m hm
  refine h m ?_
  dsimp only at hm
  rw [keepMark_eq_filter, keepMark_eq_filter, Option.filter_eq_some_iff, Option.filter_eq_some_iff] at hm
  exact hm.imp And.left And.left

/-! ## The clauses of the walk -/

/-- The breakpoint k is the one point in the advance from `f` to `c` (R102). -/
structure State.MeetsCrossing (s : State) (l : Line) (r : RunContext) (f c : Int) (k : Nat) (b : Breakpoint) : Prop where
  here : l.profile[k]? = some b
  inner : 0 < k ∧ k + 1 < l.profile.length
  ahead : f < b.point.chainage ∧ b.point.chainage ≤ c
  alone : ∀ j a, j ≠ k → l.profile[j]? = some a → a.point.chainage ≤ f ∨ c < a.point.chainage
  length : c < l.length
  marks : r.noMark f c
  warning : s.noWarning l c

/-- The crossing as a point of the walk. -/
def Breakpoint.meeting (b : Breakpoint) (k : Nat) : Meeting := { chainage := b.point.chainage, kind := .crossing k }

theorem State.MeetsCrossing.next {s : State} {l : Line} {r : RunContext} {f c : Int} {k : Nat} {b : Breakpoint} (h : s.MeetsCrossing l r f c k b)
    (hl : s.runsLine l r) : s.nextPoint? { chainage := f, kind := .completion } none c = some (b.meeting k) := by
  obtain ⟨hfb, hbc⟩ := h.ahead
  refine State.nextPoint?_of_one hl (.crossing k b h.inner.1 h.inner.2 h.here) (Meeting.before_of_start.mpr hfb) hbc fun p hp hbefore hle => ?_
  have hlt := Meeting.before_of_start.mp hbefore
  cases hp with
  | crossing j a h0 hj hab =>
    by_cases hjk : j = k
    · subst hjk
      cases h.here.symm.trans hab
      rfl
    · have := h.alone j a hjk hab
      dsimp only at hlt hle
      omega
  | firstMark m hm =>
    have := h.marks m (.inl hm)
    dsimp only at hlt hle
    omega
  | secondMark m hm =>
    have := h.marks m (.inr hm)
    dsimp only at hlt hle
    omega
  | endWarning hw =>
    rcases h.warning with hgiven | habove
    · rw [hw] at hgiven
      cases hgiven
    · exact absurd hle (not_le.mpr habove)
  | completion => exact absurd hle (not_le.mpr h.length)

/-- The crossings of the points as they stand lie at or below this one, or above the advance. -/
theorem State.MeetsCrossing.crossings {s : State} {l : Line} {r : RunContext} {f c : Int} {k : Nat} {b : Breakpoint} (h : s.MeetsCrossing l r f c k b)
    {j : Nat} {x : Int} (hj : (l.profile[j]?).map (fun a => a.point.chainage) = some x) : x ≤ b.point.chainage ∨ c < x := by
  obtain ⟨a, ha, rfl⟩ := Option.map_eq_some_iff.mp hj
  by_cases hjk : j = k
  · subst hjk
    cases h.here.symm.trans ha
    exact .inl le_rfl
  · have := h.alone j a hjk ha
    have := h.ahead.1
    omega

theorem Line.chainage_of_points {l m : Line} (h : m.points = l.points) {j : Nat} {a : Breakpoint} (ha : m.profile[j]? = some a) :
    (l.profile[j]?).map (fun b => b.point.chainage) = some a.point.chainage := by
  have hj := congrArg (fun ps : List Point => (ps[j]?).map (fun p => p.chainage)) h
  simp only [Line.points_getElem?, Option.map_map, ha, Option.map_some] at hj
  exact hj.symm

/-- A crossing that applies nothing, in its advance (R103, R128, R156). -/
theorem State.advance_crossing_unapplied {s : State} {l : Line} {r : RunContext} {f : Int} (ha : s.active? = some l) (hr : l.run? = some r)
    (hf : r.furthest = some f) {coasting : Bool} (hco : coasting = true → r.state = .coasting) {k : Nat} {b : Breakpoint}
    (h : s.MeetsCrossing l r f s.chainage k b)
    (hno : ¬∃ g, l.staged? = some g ∧ g.settled = true ∧ meetsFreeze s.store l (some b.point.chainage) g.profile g.spans = true) :
    let t := s.advance s.chainage coasting
    s.digsOn t (l.entered k).profile f s.chainage coasting ∧ t.run.coast = s.coastTo f s.chainage coasting ∧ t.chain = s.chain
      ∧ t.context? = some { r with
          furthest := some s.chainage
          state := if coasting = true ∧ s.settings.coastLimit ≤ s.coastTo f s.chainage coasting then .halted .coast else r.state }
      ∧ (l.staged? = none → t.staged? = none ∧ t.run.lastDrop = s.run.lastDrop)
      ∧ (∀ g, l.staged? = some g → g.settled = false → t.staged? = some g ∧ t.run.lastDrop = s.run.lastDrop
        ∧ ∀ q : Port, .waiting ∈ (t.port q).events)
      ∧ (∀ g, l.staged? = some g → g.settled = true → t.staged? = none ∧ t.run.lastDrop = some { id := l.id, reason := .frozen }
        ∧ ∀ q : Port, .dropped ∈ (t.port q).events) := by
  intro t
  have hl := State.runsLine_of ha hr
  have hfc : f ≤ s.chainage := h.ahead.1.le.trans h.ahead.2
  obtain ⟨m, hm, hmr, hprofile, hruns, hchain, hcoast, hnone, hwaits, hdrops⟩ := State.cross_unapplied ha hr k b.point.chainage hno
  have hpoints : m.points = l.points := (congrArg (List.map _) hprofile).trans (l.entered_points k)
  have ht : t = (s.cross k b.point.chainage).handOn f s.chainage coasting := by
    refine State.advance_of_one ha (by rw [State.furthest?, hl.context?]; exact hf) (State.warnLate_noWarning hl hfc h.warning) (h.next hl) ?_ coasting
    refine State.nextPoint?_done (State.runsLine_of hm hmr) (f := f) h.ahead.1 (fun j a hj => h.crossings (Line.chainage_of_points hpoints hj))
      h.marks (.inl ?_) ?_
    · show (s.cross k b.point.chainage).noWarning m s.chainage
      rw [State.noWarning, hchain, show m.length = l.length from congrArg lengthOf hpoints, hruns.settings]
      exact h.warning
    · rw [show m.length = l.length from congrArg lengthOf hpoints]
      exact h.length
  have hdigs := State.handOn_digsOn (s := s) (l := m) hm hmr rfl hruns.settings f s.chainage coasting
  have hcontext := State.handOn_context hm hmr (f := f) (c := s.chainage) hco
  obtain ⟨tcoast, tdrop, tchain, -, tstaged, -, truns⟩ := State.handOn_run hm hmr f s.chainage coasting
  have hcoastTo : (s.cross k b.point.chainage).coastTo f s.chainage coasting = s.coastTo f s.chainage coasting := by
    rw [State.coastTo, hcoast, State.coastTo]
  rw [← ht] at hdigs hcontext tcoast tdrop tchain tstaged truns
  rw [hcoastTo, hruns.settings] at hcontext
  rw [hprofile] at hdigs
  refine ⟨hdigs, tcoast.trans hcoastTo, tchain.trans hchain, hcontext, fun hst => ?_, fun g hst hg => ?_, fun g hst hg => ?_⟩
  · obtain ⟨h1, h2⟩ := hnone hst
    exact ⟨tstaged.trans h1, tdrop.trans h2⟩
  · obtain ⟨h1, h2, h3⟩ := hwaits g hst hg
    exact ⟨tstaged.trans h1, tdrop.trans h2, fun q => truns.stays q _ (h3 q)⟩
  · obtain ⟨h1, h2, h3⟩ := hdrops g hst hg
    exact ⟨tstaged.trans h1, tdrop.trans h2, fun q => truns.stays q _ (h3 q)⟩

/-- A crossing at which a SETTLED revision is applied, in its advance (R107, R157, R158). -/
theorem State.advance_crossing_applied {s : State} {l : Line} {r : RunContext} {f : Int} (ha : s.active? = some l) (hr : l.run? = some r)
    (hf : r.furthest = some f) (hknown : s.chain.known = true) (coasting : Bool) {k : Nat} {b : Breakpoint}
    (h : s.MeetsCrossing l r f s.chainage k b) {g : Staged} (hst : l.staged? = some g) (hg : g.settled = true)
    (hmeets : meetsFreeze s.store l (some b.point.chainage) g.profile g.spans = true)
    (hcross : ∀ q ∈ g.profile, q.chainage ≤ b.point.chainage ∨ s.chainage < q.chainage) (hlength : s.chainage < lengthOf g.profile)
    (hwarn : lengthOf g.profile = l.length ∨ s.chainage < lengthOf g.profile - s.settings.endWarn
      ∨ lengthOf g.profile - s.settings.endWarn ≤ b.point.chainage)
    (hself : s.marksLine (.parent l.id) l = false) :
    let t := s.advance s.chainage coasting
    s.digsOn t (g.profile.zipIdx.map (fun e => { point := e.1, closure := ((l.entered k).profile[e.2]?).bind (fun b => b.closure) })) f s.chainage
        coasting
      ∧ (∃ m, t.active? = some m ∧ m.id = l.id ∧ m.points = g.profile ∧ m.spans = g.spans ∧ m.revision = l.revision + 1
        ∧ m.staged? = none ∧ m.status = if l.status = .checked then .checked else .stale)
      ∧ t.eval.serving = some (spanIndex g.spans s.chainage) ∧ t.run.lastDrop = s.run.lastDrop ∧ (∀ q : Port, .revised ∈ (t.port q).events)
      ∧ t.chain = s.chain.fitted (decide (lengthOf g.profile ≠ l.length)) (some b.point.chainage) (lengthOf g.profile - s.settings.endWarn)
      ∧ ∀ q : Port, .endnear ∈ (t.port q).events ↔ .endnear ∈ (s.port q).events := by
  intro t
  have hl := State.runsLine_of ha hr
  have hfc : f ≤ s.chainage := h.ahead.1.le.trans h.ahead.2
  obtain ⟨n, y, hn, hdesign, hprofile, hnr, hsettings, hchain, hserving, hdrop, hrevised, hraises⟩ :=
    State.cross_applied ha hr hknown hst hg hmeets hself
  obtain ⟨did, dpoints, dspans, drevision, dstatus, dstaged⟩ := hdesign
  obtain ⟨rid, rspans, rrevision, rstaged, -, rstatus⟩ := (l.crossed k b.point.chainage).revised_fields g
  obtain ⟨cid, -, -, crevision, cstatus, -, -, cprofile, -⟩ := l.crossed_fields k b.point.chainage
  have hpoints : n.points = g.profile := (congrArg (List.map _) hprofile).trans ((l.crossed k b.point.chainage).applied_points g)
  have hnlength : n.length = lengthOf g.profile := congrArg lengthOf hpoints
  generalize hu : s.cross k b.point.chainage = u at hn hsettings hchain hserving hdrop hrevised hraises
  have ht : t = u.handOn f s.chainage coasting := by
    rw [← hu]
    refine State.advance_of_one ha (by rw [State.furthest?, hl.context?]; exact hf) (State.warnLate_noWarning hl hfc h.warning) (h.next hl) ?_ coasting
    rw [show s.meet (b.meeting k) = u from hu]
    refine State.nextPoint?_done (State.runsLine_of hn hnr) (f := f) h.ahead.1 (fun j a hj => ?_) (RunContext.noMark_keepMark h.marks _ _ _) ?_
      (hnlength ▸ hlength)
    · have hmem : a.point ∈ g.profile := by
        rw [← hpoints]
        exact List.mem_map_of_mem (List.mem_of_getElem? hj)
      exact hcross a.point hmem
    · have hkeeps : lengthOf g.profile = l.length → u.chain.endWarned = s.chain.endWarned := fun he => by
        rw [hchain, Chain.fitted, he]
        simp
      rw [State.noWarning, hnlength, hsettings]
      rcases hwarn with hsame | habove | hbelow
      · rw [hkeeps hsame, hsame]
        exact .inl h.warning
      · exact .inl (.inr habove)
      · by_cases hsame : lengthOf g.profile = l.length
        · rw [hkeeps hsame, hsame]
          exact .inl h.warning
        · refine .inr ⟨b.point.chainage, if_neg fun hlen => hsame ?_, hbelow⟩
          rw [State.activeLength?, State.activeLength?, hn, ha, Option.map_some, Option.map_some, Option.some_inj, hnlength] at hlen
          exact hlen
  have hdigs := State.handOn_digsOn (s := s) (l := n) hn hnr rfl hsettings f s.chainage coasting
  obtain ⟨-, tdrop, tchain, tserving, -, ⟨m, hm, mid, mpoints, mspans, mrevision, mstatus, mstaged⟩, truns⟩ :=
    State.handOn_run hn hnr f s.chainage coasting
  rw [← ht] at hdigs tdrop tchain tserving hm truns
  have hfull : n.profile
      = g.profile.zipIdx.map (fun e => { point := e.1, closure := ((l.entered k).profile[e.2]?).bind (fun b => b.closure) }) := by
    rw [hprofile, ← cprofile]
    rfl
  rw [hfull] at hdigs
  refine ⟨hdigs, ⟨m, hm, ?_, mpoints.trans hpoints, ?_, ?_, ?_, ?_⟩, tserving.trans hserving, tdrop.trans hdrop,
    fun q => truns.stays q _ (hrevised q), tchain.trans hchain, fun q => ?_⟩
  · rw [mid, did, rid, cid]
  · rw [mspans, dspans, rspans]
  · rw [mrevision, drevision, rrevision, crevision]
  · rw [mstaged, dstaged, rstaged]
  · rw [mstatus, dstatus, rstatus, cstatus]
  · rw [truns.event_iff q (by simp), hraises q _ (by simp)]

/-! ## A mark met (R104, R105) -/

/-- The mark met is disarmed. -/
def RunContext.disarmed (r : RunContext) (first : Bool) : RunContext :=
  { r with mark1 := if first then none else r.mark1, mark2 := if first then r.mark2 else none }

/-- An armed mark as a point of the walk. -/
def Mark.meeting (m : Mark) (first : Bool) : Meeting := { chainage := m.chainage, kind := if first then .firstMark else .secondMark }

theorem State.meet_mark {s : State} {l : Line} {r : RunContext} (ha : s.active? = some l) (hr : l.run? = some r) {first : Bool} {m : Mark}
    (hm : (if first then r.mark1 else r.mark2) = some m) :
    s.meet (m.meeting first) = ((s.setFurthest m.chainage).actMark (some m)).updRun (fun r => r.disarmed first) := by
  have hc := State.context?_of ha hr
  cases first with
  | true =>
    show s.meetMark1 m.chainage = _
    rw [State.meetMark1, hc, Option.bind_some, show r.mark1 = some m from hm]
    rfl
  | false =>
    show s.meetMark2 m.chainage = _
    rw [State.meetMark2, hc, Option.bind_some, show r.mark2 = some m from hm]
    rfl

theorem State.runsLine_updRun {s : State} {l : Line} {r : RunContext} (h : s.runsLine l r) (g : RunContext → RunContext) :
    (s.updRun g).runsLine l (g r) := by
  obtain ⟨m, ha, hr, hdesign, hprofile⟩ := h
  refine ⟨m.updRun g, ?_, ?_, hdesign.trans (m.sameDesign_updRun g), (m.updRun_profile g).trans hprofile⟩
  · rw [State.updRun_active?, ha]
    rfl
  · rw [Line.updRun_run?, hr]
    rfl

/-- The mark met suspends the run that digs, where that is its effect, and nothing else of the run. -/
theorem State.meetMark_spec {s : State} {l : Line} {r : RunContext} (ha : s.active? = some l) (hr : l.run? = some r) {first : Bool} {m : Mark}
    (hm : (if first then r.mark1 else r.mark2) = some m) : let u := s.meet (m.meeting first)
    let digs := m.suspends = true ∧ (r.state = .cutting ∨ r.state = .coasting)
    s.runsTo u [.mark, .run] ∧ u.chain = s.chain ∧ u.run.coast = s.run.coast ∧ (∀ q : Port, .mark ∈ (u.port q).events)
      ∧ (digs → u.runsLine l (({ r with furthest := some m.chainage, state := .suspended .mark } : RunContext).disarmed first)
        ∧ u.eval.drive = 0 ∧ u.run.timer = none ∧ ∀ q : Port, .run ∈ (u.port q).events)
      ∧ (¬digs → u.runsLine l (({ r with furthest := some m.chainage } : RunContext).disarmed first) ∧ u.eval = s.eval ∧ u.run = s.run) := by
  intro u digs
  let v := (s.setFurthest m.chainage).raise .mark
  have hv : s.runsTo v [.mark, .run] := (s.runsTo_updRun _).trans (State.runsTo_raise _ (by simp))
  have hvline : v.runsLine l { r with furthest := some m.chainage } :=
    State.runsLine_updRun (State.runsLine_of ha hr) (fun r => { r with furthest := some m.chainage })
  have hvmark : ∀ q : Port, .mark ∈ (v.port q).events := fun q => State.mem_raise.mpr (.inl rfl)
  have hvdig : v.digging = true ↔ r.state = .cutting ∨ r.state = .coasting := by
    rw [State.digging_iff, State.runState?, hvline.context?, Option.map_some, Option.some_inj, Option.some_inj]
  have hu : u = (if m.suspends then v.suspendDigging .mark else v).updRun (fun r => r.disarmed first) := by
    show s.meet (m.meeting first) = _
    rw [State.meet_mark ha hr hm, State.actMark, Option.any_some]
  by_cases hd : digs
  · have hsusp : u = (v.changeRun (.suspended .mark)).updRun (fun r => r.disarmed first) := by
      rw [hu, if_pos hd.1, State.suspendDigging, if_pos (hvdig.mpr hd.2)]
    have hline := State.runsLine_updRun (State.runsLine_changeRun hvline (.suspended .mark)) (fun r => r.disarmed first)
    have hchange := v.runsTo_changeRun (.suspended .mark) (ks := [.mark, .run]) (by simp) (by simp) (by simp)
    rw [hsusp]
    refine ⟨(hv.trans hchange).trans (State.runsTo_updRun _ _), (v.changeRun_chain _), (congrArg RunUnit.coast (v.changeRun_run (.suspended .mark)) :),
      fun q => hchange.stays q _ (hvmark q), fun _ => ⟨hline, (congrArg Evaluator.drive (v.changeRun_eval (.suspended .mark)) :),
        (congrArg RunUnit.timer (v.changeRun_run (.suspended .mark)) :),
        fun q => ?_⟩, fun h => absurd hd h⟩
    obtain ⟨es, hes, hrun, -⟩ := v.changeRun_port (.suspended .mark) q
    show .run ∈ ((v.changeRun (.suspended .mark)).port q).events
    rw [hes]
    exact hrun
  · have hstands : u = v.updRun (fun r => r.disarmed first) := by
      rw [hu]
      refine congrArg (fun w : State => w.updRun _) ?_
      by_cases hs : m.suspends = true
      · rw [if_pos hs, State.suspendDigging, if_neg (fun h => hd ⟨hs, hvdig.mp h⟩)]
      · rw [if_neg hs]
    rw [hstands]
    exact ⟨hv.trans (State.runsTo_updRun _ _), rfl, rfl, hvmark, fun h => absurd h hd,
      fun _ => ⟨State.runsLine_updRun hvline (fun r => r.disarmed first), rfl, rfl⟩⟩

/-- A drive of 0 and a stopped timer stay through the hand-on. -/
theorem State.handOn_stopped {s : State} {m : Line} {r : RunContext} (ha : s.active? = some m) (hr : m.run? = some r) (f c : Int) (coasting : Bool) :
    (s.eval.drive = 0 → (s.handOn f c coasting).eval.drive = 0) ∧ (s.run.timer = none → (s.handOn f c coasting).run.timer = none) := by
  obtain ⟨-, -, -, -, -, hon, hends⟩ := State.handOn_spec ha hr f c coasting
  by_cases h : s.coastEnds r f c coasting
  · obtain ⟨heval, hrun, -⟩ := hends h
    exact ⟨fun _ => by rw [heval], fun _ => by rw [hrun]⟩
  · obtain ⟨heval, hrun, -⟩ := hon h
    exact ⟨fun hz => by rw [heval, hz], fun hz => by rw [hrun]; exact hz⟩

/-- The mark is the one point in the advance from `f` to `c` (R102). -/
structure State.MeetsMark (s : State) (l : Line) (r : RunContext) (f c : Int) (first : Bool) (m : Mark) : Prop where
  armed : (if first then r.mark1 else r.mark2) = some m
  ahead : f < m.chainage ∧ m.chainage ≤ c
  alone : ∀ o, (if first then r.mark2 else r.mark1) = some o → o.chainage ≤ f ∨ c < o.chainage
  length : c < l.length
  crossings : l.noCrossing f c
  warning : s.noWarning l c

theorem State.MeetsMark.next {s : State} {l : Line} {r : RunContext} {f c : Int} {first : Bool} {m : Mark} (h : s.MeetsMark l r f c first m)
    (hl : s.runsLine l r) : s.nextPoint? { chainage := f, kind := .completion } none c = some (m.meeting first) := by
  obtain ⟨harmed, ⟨hfm, hmc⟩, halone, hlength, hcross, hwarning⟩ := h
  have hpoint : s.HasPoint l r (m.meeting first) := by
    cases first with
    | true => exact .firstMark m harmed
    | false => exact .secondMark m harmed
  refine State.nextPoint?_of_one hl hpoint (Meeting.before_of_start.mpr hfm) hmc fun p hp hbefore hle => ?_
  have hlt := Meeting.before_of_start.mp hbefore
  cases hp with
  | crossing j a h0 hj hab =>
    have := hcross a (List.mem_of_getElem? hab)
    dsimp only at hlt hle
    omega
  | firstMark o ho =>
    cases first with
    | true =>
      cases ho.symm.trans harmed
      rfl
    | false =>
      have := halone o ho
      dsimp only at hlt hle
      omega
  | secondMark o ho =>
    cases first with
    | true =>
      have := halone o ho
      dsimp only at hlt hle
      omega
    | false =>
      cases ho.symm.trans harmed
      rfl
  | endWarning hw =>
    rcases hwarning with hgiven | habove
    · rw [hw] at hgiven
      cases hgiven
    · exact absurd hle (not_le.mpr habove)
  | completion => exact absurd hle (not_le.mpr hlength)

/-- The other mark is outside the advance, and this one disarmed. -/
theorem State.MeetsMark.disarmed {s : State} {l : Line} {r : RunContext} {f c : Int} {first : Bool} {m : Mark} (h : s.MeetsMark l r f c first m)
    (x : Option Int) (y : RunState) : (({ r with furthest := x, state := y } : RunContext).disarmed first).noMark f c := by
  intro o ho
  refine h.alone o ?_
  cases first with
  | true => exact ho.resolve_left (by simp [RunContext.disarmed])
  | false => exact ho.resolve_right (by simp [RunContext.disarmed])

/-- The one mark in its advance (R104, R105). -/
theorem State.advance_mark {s : State} {l : Line} {r : RunContext} {f : Int} (ha : s.active? = some l) (hr : l.run? = some r)
    (hf : r.furthest = some f) {coasting : Bool} (hco : coasting = true → r.state = .coasting)
    (hst : r.state = .cutting ∨ r.state = .coasting ∨ r.state = .halted .coast ∧ s.eval.drive = 0 ∧ s.run.timer = none
      ∧ ∀ q : Port, .run ∈ (s.port q).events)
    {first : Bool} {m : Mark} (h : s.MeetsMark l r f s.chainage first m) :
    let t := s.advance s.chainage coasting
    s.digsOn t l.profile f s.chainage coasting ∧ t.run.coast = s.coastTo f s.chainage coasting ∧ t.chain = s.chain
      ∧ t.context? = some { r with
          furthest := some s.chainage
          mark1 := if first then none else r.mark1
          mark2 := if first then r.mark2 else none
          state := if m.suspends = true ∧ (r.state = .cutting ∨ r.state = .coasting) then .suspended .mark
            else if coasting = true ∧ s.settings.coastLimit ≤ s.coastTo f s.chainage coasting then .halted .coast else r.state }
      ∧ (∀ q : Port, .mark ∈ (t.port q).events)
      ∧ (m.suspends = true → t.permit = false ∧ t.eval.drive = 0 ∧ t.run.timer = none ∧ ∀ q : Port, .run ∈ (t.port q).events) := by
  intro t
  have hl := State.runsLine_of ha hr
  have hfc : f ≤ s.chainage := h.ahead.1.le.trans h.ahead.2
  obtain ⟨hruns, hchain, hcoast, hmark, hdigs, hstands⟩ := State.meetMark_spec ha hr h.armed
  generalize hu : s.meet (m.meeting first) = u at hruns hchain hcoast hmark hdigs hstands
  have hadvance : ∀ y, u.runsLine l (({ r with furthest := some m.chainage, state := y } : RunContext).disarmed first) →
      t = u.handOn f s.chainage coasting := fun y hline => by
    rw [← hu]
    refine State.advance_of_one ha (by rw [State.furthest?, hl.context?]; exact hf) (State.warnLate_noWarning hl hfc h.warning) (h.next hl) ?_ coasting
    rw [hu]
    refine State.nextPoint?_done hline (f := f) h.ahead.1 (fun j a hj => ?_) (h.disarmed _ _) (.inl ?_) h.length
    · exact (h.crossings a (List.mem_of_getElem? hj)).imp_left (fun hle => hle.trans h.ahead.1.le)
    · rw [State.noWarning, hchain, hruns.settings]
      exact h.warning
  have hcoastTo : u.coastTo f s.chainage coasting = s.coastTo f s.chainage coasting := by
    rw [State.coastTo, hcoast, State.coastTo]
  by_cases hd : m.suspends = true ∧ (r.state = .cutting ∨ r.state = .coasting)
  · obtain ⟨hline, hdrive, htimer, hrun⟩ := hdigs hd
    have ht := hadvance _ hline
    obtain ⟨n, hn, hnr, -, hprofile⟩ := hline
    have hdigsOn := State.handOn_digsOn (s := s) (l := l) hn hnr hprofile hruns.settings f s.chainage coasting
    obtain ⟨-, -, -, -, -, hon, -⟩ := State.handOn_spec hn hnr f s.chainage coasting
    obtain ⟨-, -, hcontext, -⟩ := hon (fun he => (nomatch he.2.1))
    obtain ⟨tcoast, -, tchain, -, -, -, truns⟩ := State.handOn_run hn hnr f s.chainage coasting
    obtain ⟨tdrive, ttimer⟩ := State.handOn_stopped hn hnr f s.chainage coasting
    rw [← ht] at hdigsOn hcontext tcoast tchain truns tdrive ttimer
    refine ⟨hdigsOn, tcoast.trans hcoastTo, tchain.trans hchain, ?_, fun q => truns.stays q _ (hmark q), fun _ => ⟨?_, tdrive hdrive, ttimer htimer,
      fun q => truns.stays q _ (hrun q)⟩⟩
    · rw [hcontext, if_pos hd]
      rfl
    · rw [State.permit, State.runState?, hcontext]
      exact Bool.and_false _
  · obtain ⟨hline, heval, hrun⟩ := hstands hd
    have ht := hadvance _ hline
    obtain ⟨n, hn, hnr, -, hprofile⟩ := hline
    have hdigsOn := State.handOn_digsOn (s := s) (l := l) hn hnr hprofile hruns.settings f s.chainage coasting
    have hcontext := State.handOn_context hn hnr (f := f) (c := s.chainage) (coasting := coasting) hco
    obtain ⟨tcoast, -, tchain, -, -, -, truns⟩ := State.handOn_run hn hnr f s.chainage coasting
    obtain ⟨tdrive, ttimer⟩ := State.handOn_stopped hn hnr f s.chainage coasting
    rw [← ht] at hdigsOn hcontext tcoast tchain truns tdrive ttimer
    rw [hcoastTo, hruns.settings] at hcontext
    refine ⟨hdigsOn, tcoast.trans hcoastTo, tchain.trans hchain, ?_, fun q => truns.stays q _ (hmark q), fun hs => ?_⟩
    · rw [hcontext, if_neg hd]
      rfl
    · obtain ⟨hhalted, hdrive, htimer, hrunev⟩ :=
        (hst.resolve_left (fun hc => hd ⟨hs, .inl hc⟩)).resolve_left (fun hc => hd ⟨hs, .inr hc⟩)
      refine ⟨?_, tdrive (heval ▸ hdrive), ttimer (hrun ▸ htimer), fun q => truns.stays q _ (hruns.stays q _ (hrunev q))⟩
      refine State.permit_of_halted (h := .coast) ?_
      rw [State.runState?, hcontext, Option.map_some, Option.some_inj]
      split
      · rfl
      · exact hhalted

/-! ## The end warning and completion (R107, R130) -/

theorem State.runsLine_warnEnd {s : State} {l : Line} {r : RunContext} (h : s.runsLine l r) : s.warnEnd.runsLine l r := State.runsLine_of_store rfl h

theorem State.runsTo_warnEnd (s : State) : s.runsTo s.warnEnd [.endnear] := (s.runsTo_updChain _).trans (State.runsTo_raise _ (by simp))

theorem State.warnEnd_endnear (s : State) (q : Port) : .endnear ∈ (s.warnEnd.port q).events := State.mem_raise.mpr (.inl rfl)

/-- The end warning as a point of the walk. -/
def State.warning (s : State) (l : Line) : Meeting := { chainage := s.endWarningPoint l, kind := .endWarning }

/-- A point ahead that no other comes before is met next. -/
theorem State.nextPoint?_of_first {s : State} {l : Line} {r : RunContext} (h : s.runsLine l r) {last m : Meeting} {new : Int}
    (hm : s.HasPoint l r m) (hbefore : last.before m = true) (hle : m.chainage ≤ new)
    (hfirst : ∀ x, s.HasPoint l r x → last.before x = true → x.chainage ≤ new → x = m ∨ m.before x = true) :
    s.nextPoint? last none new = some m := by
  have hmem : m ∈ s.points.filter (fun x => last.before x && decide (x.chainage ≤ new) && !x.isLeft none) := by
    refine List.mem_filter.mpr ⟨(State.mem_points_iff h).mpr hm, ?_⟩
    simp [hbefore, hle]
  obtain ⟨x, hx⟩ := Option.ne_none_iff_exists'.mp (fun hnone => List.ne_nil_of_mem hmem (earliest_eq_none.mp hnone))
  obtain ⟨hxmem, hxcond⟩ := List.mem_filter.mp (earliest_mem hx)
  rw [Meeting.isLeft_none, Bool.not_false, Bool.and_true, Bool.and_eq_true] at hxcond
  have hnot := earliest_first hx m hmem
  rcases hfirst x ((State.mem_points_iff h).mp hxmem) hxcond.1 (of_decide_eq_true hxcond.2) with rfl | hmx
  · exact hx
  · rw [hmx] at hnot
    cases hnot

/-- The end warning is the one thing that the advance from `f` to `c` comes to (R102, R107). -/
structure State.MeetsWarning (s : State) (l : Line) (r : RunContext) (f c : Int) : Prop where
  clear : s.chain.endWarned = false
  reached : l.length - s.settings.endWarn ≤ c
  length : c < l.length
  crossings : l.noCrossing f c
  marks : r.noMark f c

/-- The end warning leads the advance to the hand-on, whether it is late or met on the way. -/
theorem State.advance_warns {s : State} {l : Line} {r : RunContext} {f c : Int} (ha : s.active? = some l) (hr : l.run? = some r)
    (hf : r.furthest = some f) (h : s.MeetsWarning l r f c) (coasting : Bool) : s.advance c coasting = s.warnEnd.handOn f c coasting := by
  have hl := State.runsLine_of ha hr
  have hfurthest : s.furthest? = some f := by rw [State.furthest?, hl.context?]; exact hf
  have hpoint : s.endWarningPoint l = l.length - s.settings.endWarn := rfl
  have hnone : s.warnEnd.noPoint l r f c := ⟨h.length, h.crossings, h.marks, .inl rfl⟩
  by_cases hlate : l.length - s.settings.endWarn ≤ f
  · rw [State.advance_eq hfurthest, State.warnLate_of ha, if_pos ⟨h.clear, hlate⟩, State.walk_none (State.nextPoint?_noPoint (State.runsLine_warnEnd hl) hnone)]
  · refine State.advance_of_one (p := s.warning l) ha hfurthest ?_ ?_ ?_ coasting
    · rw [State.warnLate_of ha, if_neg (fun hc => hlate hc.2)]
    · refine State.nextPoint?_of_one hl (.endWarning h.clear) (Meeting.before_of_start.mpr (not_le.mp hlate)) h.reached fun p hp hbefore hle => ?_
      have hlt := Meeting.before_of_start.mp hbefore
      cases hp with
      | endWarning _ => rfl
      | crossing j a h0 hj hab =>
        have := h.crossings a (List.mem_of_getElem? hab)
        dsimp only at hlt hle
        omega
      | firstMark o ho =>
        have := h.marks o (.inl ho)
        dsimp only at hlt hle
        omega
      | secondMark o ho =>
        have := h.marks o (.inr ho)
        dsimp only at hlt hle
        omega
      | completion => exact absurd hle (not_le.mpr h.length)
    · refine State.nextPoint?_done (State.runsLine_warnEnd hl) (f := f) (not_le.mp hlate) (fun j a hj => ?_) h.marks (.inl (.inl rfl)) h.length
      exact (h.crossings a (List.mem_of_getElem? hj)).imp_left (fun hle => hle.trans (not_le.mp hlate).le)

/-- The breakpoint that ends the line is not crossed; the others, and the marks, lie outside the advance from `f` to `c`, and the length in it. -/
structure State.MeetsLength (l : Line) (r : RunContext) (f c : Int) : Prop where
  ahead : f < l.length ∧ l.length ≤ c
  crossings : ∀ (k : Nat) (b : Breakpoint), l.profile[k]? = some b → k + 1 < l.profile.length → b.point.chainage ≤ f ∨ c < b.point.chainage
  marks : r.noMark f c

/-- Completion as a point of the walk. -/
def Line.completion (l : Line) : Meeting := { chainage := l.length, kind := .completion }

/-- What is ahead in an advance to the length: completion, and an end warning that has not been given. -/
theorem State.MeetsLength.points {s : State} {l : Line} {r : RunContext} {f c : Int} (h : State.MeetsLength l r f c) {p : Meeting}
    (hp : s.HasPoint l r p) (hlt : f < p.chainage) (hle : p.chainage ≤ c) :
    p = l.completion ∨ p = s.warning l ∧ s.chain.endWarned = false := by
  cases hp with
  | completion => exact .inl rfl
  | endWarning hw => exact .inr ⟨rfl, hw⟩
  | crossing j a h0 hj hab =>
    have := h.crossings j a hab hj
    dsimp only at hlt hle
    omega
  | firstMark o ho =>
    have := h.marks o (.inl ho)
    dsimp only at hlt hle
    omega
  | secondMark o ho =>
    have := h.marks o (.inr ho)
    dsimp only at hlt hle
    omega

/-- The state in which the line completes: the end warning is given where its point is not above the length. -/
def State.atLength (s : State) (l : Line) : State := if s.chain.endWarned = false ∧ l.length - s.settings.endWarn ≤ l.length then s.warnEnd else s

theorem State.complete_active? (s : State) (l : Line) : (s.complete l).active? = none := by
  rw [State.active?, s.complete_lines l]
  exact State.updActive_none (f := fun k => { k.closeAll with lifecycle := .complete }) (fun _ => rfl) s

/-- A walk that comes to the length ends there. -/
theorem State.walk_completes {s : State} {l : Line} (ha : s.active? = some l) {last : Meeting} {c : Int}
    (hnext : s.nextPoint? last none c = some l.completion) (n : Nat) : s.walk (n + 1) last none c = s.complete l := by
  have hmeet : s.meet l.completion = s.complete l := by
    show (match s.active? with
      | some l => s.complete l
      | none => s) = _
    rw [ha]
  have hnone : (s.complete l).nextPoint? l.completion (changeAt s (s.complete l) l.completion none) c = none := by
    have hpoints : (s.complete l).points = [] := by rw [State.points, s.complete_active? l]
    refine State.nextPoint?_none.mpr fun m hm => ?_
    rw [hpoints] at hm
    cases hm
  rw [State.walk_some hnext, hmeet, State.walk_none hnone]

theorem State.handOn_none {s : State} (h : s.active? = none) (f c : Int) (coasting : Bool) : s.handOn f c coasting = s := by
  rw [State.handOn, h]

/-- An advance to the length completes the line (R130). -/
theorem State.advance_completes {s : State} {l : Line} {r : RunContext} {f c : Int} (ha : s.active? = some l) (hr : l.run? = some r)
    (hf : r.furthest = some f) (h : State.MeetsLength l r f c) (coasting : Bool) : s.advance c coasting = (s.atLength l).complete l := by
  have hl := State.runsLine_of ha hr
  obtain ⟨hfl, hlc⟩ := h.ahead
  have hfurthest : s.furthest? = some f := by rw [State.furthest?, hl.context?]; exact hf
  have hpoint : s.endWarningPoint l = l.length - s.settings.endWarn := rfl
  have hfuel : s.walkFuel = l.slots + 3 + 1 + 1 := by rw [State.walkFuel, ha]
  -- with the end warning given, completion alone is ahead
  have hgiven : ∀ w : State, w.runsLine l r → w.chain.endWarned = true → ∀ last : Meeting, last.before l.completion = true →
      (∀ p : Meeting, last.before p = true → f < p.chainage) → w.nextPoint? last none c = some l.completion :=
    fun w hw hwarned last hbefore hlast => State.nextPoint?_of_one hw .completion hbefore hlc fun p hp hpbefore hle =>
      (h.points hp (hlast p hpbefore) hle).resolve_right fun hc => by
        rw [hwarned] at hc
        cases hc.2
  have hstart : ∀ p : Meeting, Meeting.before { chainage := f, kind := .completion } p = true → f < p.chainage :=
    fun p hp => Meeting.before_of_start.mp hp
  have hfirst : Meeting.before { chainage := f, kind := .completion } l.completion = true := Meeting.before_of_start.mpr hfl
  -- the walk ends at the length, and there is no F to hand on
  have hends : ∀ w : State, s.warnLate f = w → ∀ u : State, w.walk (l.slots + 3 + 1 + 1) { chainage := f, kind := .completion } none c = u.complete l →
      s.advance c coasting = u.complete l := fun w hw u hu => by
    have hwfuel : w.walkFuel = l.slots + 3 + 1 + 1 := by
      rw [← hw, State.warnLate_of ha]
      split
      · exact hfuel
      · exact hfuel
    rw [State.advance_eq hfurthest, hw, hwfuel, hu, State.handOn_none (u.complete_active? l)]
  by_cases hwarned : s.chain.endWarned = true
  · have hno : ∀ x : Int, ¬(s.chain.endWarned = false ∧ l.length - s.settings.endWarn ≤ x) := fun x hc => by
      rw [hwarned] at hc
      cases hc.1
    rw [State.atLength, if_neg (hno _)]
    refine hends s ?_ s (State.walk_completes ha (hgiven s hl hwarned _ hfirst hstart) _)
    rw [State.warnLate_of ha, if_neg (hno _)]
  · rw [Bool.not_eq_true] at hwarned
    by_cases hlate : l.length - s.settings.endWarn ≤ f
    · rw [State.atLength, if_pos ⟨hwarned, hlate.trans hfl.le⟩]
      refine hends s.warnEnd ?_ s.warnEnd (State.walk_completes (s := s.warnEnd) ha (hgiven s.warnEnd (State.runsLine_warnEnd hl) rfl _ hfirst hstart) _)
      rw [State.warnLate_of ha, if_pos ⟨hwarned, hlate⟩]
    · have hnotLate : s.warnLate f = s := by rw [State.warnLate_of ha, if_neg (fun hc => hlate hc.2)]
      by_cases hway : l.length - s.settings.endWarn ≤ l.length
      · -- the end warning is met first, then the length
        have hwarnFirst : (s.warning l).before l.completion = true :=
          Meeting.before_iff.mpr (hway.lt_or_eq.imp_right fun he => ⟨he, by simp [State.warning, Line.completion, PointKind.rank]⟩)
        have hnext : s.nextPoint? { chainage := f, kind := .completion } none c = some (s.warning l) := by
          refine State.nextPoint?_of_first hl (.endWarning hwarned) (Meeting.before_of_start.mpr (not_le.mp hlate)) (hway.trans hlc)
            fun p hp hbefore hle => ?_
          rcases h.points hp (hstart p hbefore) hle with rfl | ⟨rfl, -⟩
          · exact .inr hwarnFirst
          · exact .inl rfl
        rw [State.atLength, if_pos ⟨hwarned, hway⟩]
        refine hends s hnotLate s.warnEnd ?_
        have hchanged : changeAt s (s.meet (s.warning l)) (s.warning l) none = none := if_pos rfl
        rw [State.walk_some hnext, hchanged]
        refine State.walk_completes (s := s.warnEnd) ha
          (hgiven s.warnEnd (State.runsLine_warnEnd hl) rfl _ hwarnFirst fun p hp => ?_) _
        have := (Meeting.before_iff.mp hp).imp_right And.left
        have hp0 : (s.warning l).chainage = l.length - s.settings.endWarn := rfl
        omega
      · -- the end warning's point lies above the length: completion comes first
        rw [State.atLength, if_neg (fun hc => hway hc.2)]
        refine hends s hnotLate s (State.walk_completes ha ?_ _)
        refine State.nextPoint?_of_first hl .completion hfirst hlc fun p hp hbefore hle => ?_
        rcases h.points hp (hstart p hbefore) hle with rfl | ⟨rfl, -⟩
        · exact .inl rfl
        · exact .inr (Meeting.before_iff.mpr (.inl (not_le.mp hway)))

/-- The state in which completion raises its last events: the segments closed, the run IDLE. -/
def State.leftComplete (s : State) (l : Line) : State :=
  (if l.profile.any Breakpoint.isOpen then (s.updActive Line.closeAll).raise .close else s.updActive Line.closeAll).leaveActive .complete

theorem State.complete_eq (s : State) (l : Line) : s.complete l = ((s.leftComplete l).raise .done).noteDropIf l .complete := rfl

theorem State.leftComplete_spec (s : State) (l : Line) : let t := s.leftComplete l
    t.powered = s.powered ∧ t.resetLow = s.resetLow ∧ t.chain = { s.chain with known := false, position := 0 }
      ∧ t.run = { s.run with coast := 0, timer := none, wait := none } ∧ t.eval = Evaluator.reset ∧ s.eventsStay t
      ∧ (∀ q : Port, .run ∈ (t.port q).events) ∧ (l.profile.any Breakpoint.isOpen = true → ∀ q : Port, .close ∈ (t.port q).events) := by
  intro t
  have hleave : ∀ (u : State) (q : Port) (e : EventKind), e ∈ ((u.leaveActive .complete).port q).events ↔ e = .run ∨ e ∈ (u.port q).events :=
    fun u q e => by
      rw [State.leaveActive_port]
      exact mem_setKind _ _ _
  have hclosed : ∃ u : State, t = u.leaveActive .complete ∧ s.runsTo u [.close] ∧ u.chain = s.chain ∧ u.run = s.run
      ∧ (l.profile.any Breakpoint.isOpen = true → ∀ q : Port, .close ∈ (u.port q).events) := by
    by_cases hopen : l.profile.any Breakpoint.isOpen = true
    · exact ⟨_, congrArg (fun u : State => u.leaveActive .complete) (if_pos hopen),
        (s.runsTo_updActive Line.closeAll).trans (State.runsTo_raise _ (by simp)), rfl, rfl, fun _ q => State.mem_raise.mpr (.inl rfl)⟩
    · exact ⟨_, congrArg (fun u : State => u.leaveActive .complete) (if_neg hopen), s.runsTo_updActive Line.closeAll, rfl, rfl,
        fun h => absurd h hopen⟩
  obtain ⟨u, ht, hruns, hchain, hrun, hclose⟩ := hclosed
  obtain ⟨m1, m2, -, -, m5, m6, -, -, m9⟩ := u.leaveActive_machine .complete
  obtain ⟨r1, r2, -⟩ := id hruns
  rw [hchain] at m5
  rw [hrun] at m9
  rw [ht]
  exact ⟨m1.trans r1, m2.trans r2, m5, m9, m6, fun q e he => (hleave u q e).mpr (.inr (hruns.stays q e he)), fun q => (hleave u q _).mpr (.inl rfl),
    fun h q => (hleave u q _).mpr (.inr (hclose h q))⟩

/-- Completion: what it writes and raises (R130). -/
theorem State.complete_spec (s : State) (l : Line) : let t := s.complete l
    t.store.lines = s.store.lines.map (fun k => if k.isActive then { k with
        lifecycle := .complete
        profile := k.profile.map (fun b => { b with closure := b.closure.map (fun c => { c with state := .closed }) }) } else k)
      ∧ t.powered = s.powered ∧ t.resetLow = s.resetLow ∧ t.chain = { s.chain with known := false, position := 0 }
      ∧ t.run = { coast := 0, timer := none, wait := none,
                  lastDrop := if l.staged?.isSome then some { id := l.id, reason := .complete } else s.run.lastDrop }
      ∧ t.eval = Evaluator.reset ∧ s.eventsStay t ∧ (∀ q : Port, .run ∈ (t.port q).events ∧ .done ∈ (t.port q).events)
      ∧ (l.staged? ≠ none → ∀ q : Port, .dropped ∈ (t.port q).events)
      ∧ (l.profile.any Breakpoint.isOpen = true → ∀ q : Port, .close ∈ (t.port q).events) := by
  intro t
  have hlines : t.store.lines = s.store.lines.map (fun k => if k.isActive then { k with
      lifecycle := .complete
      profile := k.profile.map (fun b => { b with closure := b.closure.map (fun c => { c with state := .closed }) }) } else k) := by
    refine (s.complete_lines l).trans (List.map_congr_left fun k _ => ?_)
    split
    · rw [← Line.closeAll_profile]
      rfl
    · rfl
  obtain ⟨u1, u2, u3, u4, u5, u6, u7, u8⟩ := s.leftComplete_spec l
  have ht : t = ((s.leftComplete l).raise .done).noteDropIf l .complete := s.complete_eq l
  generalize s.leftComplete l = u at ht u1 u2 u3 u4 u5 u6 u7 u8
  refine ⟨hlines, ?_⟩
  have hraise : u.eventsStay (u.raise .done) := fun _ _ h => State.mem_raise.mpr (.inr h)
  have hdone : ∀ q : Port, .done ∈ ((u.raise .done).port q).events := fun q => State.mem_raise.mpr (.inl rfl)
  cases hst : l.staged? with
  | none =>
    have hnote : t = u.raise .done := by
      rw [ht, State.noteDropIf, hst]
      rfl
    rw [hnote]
    refine ⟨u1, u2, u3, ?_, u5, fun q e he => hraise q e (u6 q e he), fun q => ⟨hraise q _ (u7 q), hdone q⟩, fun h => absurd rfl h,
      fun h q => hraise q _ (u8 h q)⟩
    show u.run = _
    rw [u4]
    rfl
  | some g =>
    have hnote : t = (u.raise .done).noteDrop l.id .complete := by
      rw [ht, State.noteDropIf, hst]
      rfl
    have hdrop : (u.raise .done).eventsStay ((u.raise .done).noteDrop l.id .complete) := fun _ _ h => State.mem_raise.mpr (.inr h)
    obtain ⟨-, -, hdropped, -⟩ := State.noteDrop_spec (u.raise .done) l.id .complete
    rw [hnote]
    refine ⟨u1, u2, u3, ?_, u5, fun q e he => hdrop q e (hraise q e (u6 q e he)), fun q => ⟨hdrop q _ (hraise q _ (u7 q)), hdrop q _ (hdone q)⟩,
      fun _ => hdropped, fun h q => hdrop q _ (hraise q _ (u8 h q))⟩
    show ({ u.run with lastDrop := _ } : RunUnit) = _
    rw [u4]
    rfl

/-- An advance that completes the line (R107, R130). -/
theorem State.advance_length {s : State} {l : Line} {r : RunContext} {f : Int} (ha : s.active? = some l) (hr : l.run? = some r)
    (hf : r.furthest = some f) (hrunning : s.running = true) (coasting : Bool) (h : State.MeetsLength l r f s.chainage) :
    let t := s.advance s.chainage coasting
    t.context? = none
      ∧ t.store.lines = s.store.lines.map (fun k =>
          if k.isActive then { k with lifecycle := .complete, profile := k.profile.map (fun b =>
            { b with closure := b.closure.map (fun c => { c with state := .closed }) }) }
          else k)
      ∧ t.chain.known = false ∧ t.chain.position = 0
      ∧ t.run = { coast := 0, timer := none, wait := none,
                  lastDrop := if l.staged?.isSome then some { id := l.id, reason := .complete } else s.run.lastDrop }
      ∧ t.eval = { serving := none, gradeCount := 0, gradeFlag := false, drive := 0, reference := none } ∧ t.permit = true
      ∧ (∀ q : Port, .run ∈ (t.port q).events) ∧ (∀ q : Port, .done ∈ (t.port q).events)
      ∧ (l.staged? ≠ none → ∀ q : Port, .dropped ∈ (t.port q).events)
      ∧ ((∃ b ∈ l.profile, ∃ x, b.closure = some x ∧ x.state = .opened) → ∀ q : Port, .close ∈ (t.port q).events)
      ∧ (s.chain.endWarned = false → 0 ≤ s.settings.endWarn → t.chain.endWarned = true ∧ ∀ q : Port, .endnear ∈ (t.port q).events) := by
  intro t
  have ht : t = (s.atLength l).complete l := State.advance_completes ha hr hf h coasting
  have hat : (s.atLength l).store.lines = s.store.lines ∧ (s.atLength l).run = s.run ∧ (s.atLength l).powered = s.powered
      ∧ (s.atLength l).resetLow = s.resetLow ∧ (s.chain.endWarned = false → 0 ≤ s.settings.endWarn →
        (s.atLength l).chain.endWarned = true ∧ ∀ q : Port, .endnear ∈ ((s.atLength l).port q).events) := by
    rw [State.atLength]
    split
    · exact ⟨rfl, rfl, rfl, rfl, fun _ _ => ⟨rfl, s.warnEnd_endnear⟩⟩
    · rename_i hno
      exact ⟨rfl, rfl, rfl, rfl, fun h1 h2 => absurd ⟨h1, by omega⟩ hno⟩
  obtain ⟨a1, a2, a3, a4, a5⟩ := hat
  generalize s.atLength l = u at ht a1 a2 a3 a4 a5
  obtain ⟨c1, c2, c3, c4, c5, c6, c7, c8, c9, c10⟩ := u.complete_spec l
  have hact := u.complete_active? l
  rw [← ht] at c1 c2 c3 c4 c5 c6 c7 c8 c9 c10 hact
  have hcontext : t.context? = none := by
    rw [State.context?, hact]
    rfl
  rw [a1] at c1
  rw [a2] at c5
  refine ⟨hcontext, c1, ?_, ?_, c5, c6, ?_, fun q => (c8 q).1, fun q => (c8 q).2, c9, fun ⟨b, hb, x, hx, hopen⟩ => c10 ?_, fun h1 h2 => ?_⟩
  · rw [c4]
  · rw [c4]
  · have hrun : t.running = true := by
      rw [State.running, c2, c3, a3, a4]
      exact hrunning
    rw [State.permit, hrun, State.runState?, hcontext]
    rfl
  · refine List.any_eq_true.mpr ⟨b, hb, ?_⟩
    rw [Breakpoint.isOpen, hx, Option.any_some, hopen]
    rfl
  · obtain ⟨hw, hevent⟩ := a5 h1 h2
    rw [c4]
    exact ⟨hw, fun q => c7 q _ (hevent q)⟩

/-! ## The walk -/

/-- An advance of F meets each point as it is alone in the advance. -/
theorem State.walkMeets_advance {s : State} {l : Line} {r : RunContext} {f : Int} (ha : s.active? = some l) (hr : l.run? = some r)
    (hf : r.furthest = some f) (hknown : s.chain.known = true) (hrunning : s.running = true) {coasting : Bool}
    (hco : coasting = true → r.state = .coasting)
    (hst : r.state = .cutting ∨ r.state = .coasting ∨ r.state = .halted .coast ∧ s.eval.drive = 0 ∧ s.run.timer = none
      ∧ ∀ q : Port, .run ∈ (s.port q).events)
    {leads : (State → Prop) → Prop} (hleads : ∀ P : State → Prop, P (s.advance s.chainage coasting) → leads P) :
    s.walkMeets l r f coasting leads := by
  have hl := State.runsLine_of ha hr
  refine ⟨fun k b hk h0 hlt hfb hbc halone hlength hmarks hwarning => ⟨fun hno => hleads _ ?_, fun g hg hsettled hmeets hcross hglength hwarn hself =>
      hleads _ ?_⟩, fun first m hm hfm hmc halone hlength hcross hwarning => hleads _ ?_, fun hclear hreached hlength hcross hmarks => hleads _ ?_,
    fun hfl hlc hcross hmarks => hleads _ ?_⟩
  · exact State.advance_crossing_unapplied ha hr hf hco ⟨hk, ⟨h0, hlt⟩, ⟨hfb, hbc⟩, halone, hlength, hmarks, hwarning⟩ hno
  · have h := State.advance_crossing_applied ha hr hf hknown coasting ⟨hk, ⟨h0, hlt⟩, ⟨hfb, hbc⟩, halone, hlength, hmarks, hwarning⟩ hg hsettled hmeets
      hcross hglength hwarn hself
    obtain ⟨h1, h2, h3, h4, h5, h6, h7⟩ := h
    refine ⟨h1, h2, h3, h4, h5, h6.trans ?_, h7⟩
    have hbne : (lengthOf g.profile != l.length) = decide (lengthOf g.profile ≠ l.length) :=
      Bool.eq_iff_iff.mpr (by rw [bne_iff_ne, decide_eq_true_iff])
    rw [Chain.fitted, Option.all_some, hbne]
  · exact State.advance_mark ha hr hf hco hst ⟨hm, ⟨hfm, hmc⟩, halone, hlength, hcross, hwarning⟩
  · have ht := State.advance_warns ha hr hf ⟨hclear, hreached, hlength, hcross, hmarks⟩ coasting
    have hdigs := State.handOn_digsOn (s := s) (v := s.warnEnd) (l := l) ha hr rfl rfl f s.chainage coasting
    have hcontext := State.handOn_context (s := s.warnEnd) ha hr (f := f) (c := s.chainage) hco
    obtain ⟨tcoast, -, tchain, -, -, -, truns⟩ := State.handOn_run (s := s.warnEnd) ha hr f s.chainage coasting
    rw [ht]
    exact ⟨hdigs, tcoast, tchain, hcontext, fun q => truns.stays q _ (s.warnEnd_endnear q)⟩
  · exact State.advance_length ha hr hf hrunning coasting ⟨⟨hfl, hlc⟩, hcross, hmarks⟩

/-- The walk's clauses speak of the line's design, profile and staged revision: they are those of the record after a change of its run. -/
theorem State.walkMeets_updRun {s : State} {l : Line} {r : RunContext} {f : Int} {coasting : Bool} {leads : (State → Prop) → Prop}
    (g : RunContext → RunContext) (h : s.walkMeets (l.updRun g) r f coasting leads) : s.walkMeets l r f coasting leads := by
  have hlength : (l.updRun g).length = l.length := congrArg lengthOf (l.updRun_points g)
  have hfreeze : ∀ x pts spans, meetsFreeze s.store (l.updRun g) x pts spans = meetsFreeze s.store l x pts spans :=
    fun x pts spans => meetsFreeze_congr (l.updRun_points g) (l.updRun_spans g) rfl x pts spans
  have hmarks : s.marksLine (.parent l.id) (l.updRun g) = s.marksLine (.parent l.id) l := by
    have hhits : Change.hitsLine (.parent l.id) (l.updRun g) = Change.hitsLine (.parent l.id) l :=
      congrArg (fun o : Option Outlet => (o.map (fun o => o.parent)) == some l.id) (l.updRun_outlet g)
    rw [State.marksLine, State.marksLine, hhits, l.updRun_id g]
  unfold State.walkMeets State.noWarning Line.noCrossing at h ⊢
  simp only [l.updRun_profile g, hlength, l.updRun_staged? g, hfreeze, l.updRun_id g, l.updRun_revision g, l.updRun_status g, hmarks] at h
  exact h

theorem State.run_raised_halted (s : State) (q : Port) : .run ∈ (((s.raise .run).raise .halt).port q).events := by
  rw [State.mem_raise, State.mem_raise]
  exact .inr (.inl rfl)

theorem State.active?_of_store {s t : State} (h : t.store = s.store) : t.active? = s.active? := by
  rw [State.active?, h]
  rfl

theorem State.raised4_store (s : State) (a b c d : EventKind) : ((((s.raise a).raise b).raise c).raise d).store = s.store := by
  rw [State.raise_store, State.raise_store, State.raise_store, State.raise_store]

/-- The state to which a serving span leads: its line is the same but for the run's state. -/
theorem State.servesWith_active? {s : State} {l : Line} {r : RunContext} {k : Nat} {b : State} {r' : RunContext} (ha : s.active? = some l)
    (hr : l.run? = some r) (hdig : r.state = .cutting ∨ r.state = .coasting) (h : s.servesWith l r k b r') :
    (∃ g, b.active? = some (l.updRun g) ∧ (l.updRun g).run? = some r') ∧ r'.furthest = r.furthest ∧ b.chain = s.chain
      ∧ b.running = s.running ∧ (r'.state = .cutting ∨ r'.state = .coasting ∨ r'.state = .halted .coast ∧ b.eval.drive = 0 ∧ b.run.timer = none
      ∧ ∀ q : Port, .run ∈ (b.port q).events) := by
  have hid : l.updRun id = l := by
    unfold Line.updRun
    split
    · rename_i r st heq
      show ({ l with lifecycle := .active r st } : Line) = l
      rw [← heq]
    · rfl
  have hsame : s.active? = some (l.updRun id) ∧ (l.updRun id).run? = some r := by
    rw [hid]
    exact ⟨ha, hr⟩
  have hto : ∀ x : RunState, (s.updRun (fun c => { c with state := x })).active? = some (l.updRun (fun c => { c with state := x }))
      ∧ (l.updRun (fun c => { c with state := x })).run? = some { r with state := x } := fun x => by
    rw [State.updRun_active?, ha, Line.updRun_run?, hr]
    exact ⟨rfl, rfl⟩
  rcases h with ⟨-, rfl, rfl⟩ | ⟨-, -, rfl, rfl⟩ | ⟨-, -, x, -, ⟨y, -, -, rfl, rfl⟩ | ⟨-, ⟨-, rfl, rfl⟩ | ⟨-, rfl, rfl⟩⟩⟩
  · exact ⟨⟨_, hsame⟩, rfl, rfl, rfl, hdig.imp_right .inl⟩
  · exact ⟨⟨_, hsame⟩, rfl, rfl, rfl, hdig.imp_right .inl⟩
  · exact ⟨⟨_, hsame⟩, rfl, rfl, rfl, hdig.imp_right .inl⟩
  · exact ⟨⟨_, hto .coasting⟩, rfl, rfl, rfl, .inr (.inl rfl)⟩
  · have hstore := State.raised4_store (({ s.updRun (fun c => { c with state := .halted .coast }) with
        run := { s.run with coast := 0, timer := none }
        eval := { s.eval with drive := 0, serving := some k, reference := none } } : State)) .run .coast .run .halt
    refine ⟨⟨_, (State.active?_of_store hstore).trans (hto (.halted .coast)).1, (hto (.halted .coast)).2⟩, rfl, ?_, ?_,
      .inr (.inr ⟨rfl, ?_, ?_, State.run_raised_halted _⟩)⟩
    · simp only [State.raise_chain]
      rfl
    · simp only [State.raise_running]
      rfl
    · simp only [State.raise_eval]
    · simp only [State.raise_run]

/-- Settles O46: the count serves its span and advances F, and the walk meets each point alone in the advance. -/
theorem walkMeetsItsPoints : Obligations.WalkMeetsItsPoints := by
  intro ch l r f p s h hb hc b r' hserves
  have hexec := exec_count_advances h hb hc
  obtain ⟨hrunning, ha, hr, hdig, hf, hk, -⟩ := h
  let moved := s.movedTo ch p
  obtain ⟨hmove, -⟩ := State.moveServing_serves (s := moved) hk ha hr rfl hserves
  obtain ⟨⟨g, hact, hrun⟩, hfurthest, hchain, hbrunning, hst⟩ := State.servesWith_active? (s := moved) ha hr hdig hserves
  have hchainage : b.chainage = Int.tdiv p 1000 := by
    rw [State.chainage, hchain]
    rfl
  have hco : (r.state == .coasting) = true → r'.state = .coasting := fun hco => by
    have hcoasting := beq_iff_eq.mp hco
    obtain ⟨rfl, -⟩ := State.servesWith_coasting hserves hcoasting
    exact hcoasting
  have hexec' : exec (.odoValidTransition ch) s = .next (b.advance b.chainage (r.state == .coasting)) := by
    rw [hexec, hchainage]
    exact congrArg (fun v : State => Host.Outcome.next (v.advance (Int.tdiv p 1000) (r.state == .coasting))) hmove
  refine State.walkMeets_updRun g ?_
  exact State.walkMeets_advance hact hrun (hfurthest.trans hf) (hchain ▸ hk) (hbrunning.trans hrunning) hco hst
    (fun P hP => ⟨_, hexec', hP⟩)

end Sys2Proof.Machine
end

section
/-! PROOF. RESUME of a run whose chainage is not known, against what is stated of the walk that follows (06, 09; R98, R118, R134, R157). -/
namespace Sys2Proof.Machine

/-- A line with an inner breakpoint at 20 m. -/
def bentProfile : List Point := [{ chainage := 0, invert := -1500 }, { chainage := 20000, invert := -1480 }, { chainage := 50000, invert := -1450 }]

/-- Its one span. -/
def bentSpan : Span := { start := 0, station := .s2, plane := 400, slope := 1000 }

/-- A SETTLED revision that keeps its lists. -/
def bentStaged : Staged := { profile := bentProfile, spans := [bentSpan], settled := true, base := 0 }

/-- A suspended run with F one below that breakpoint. -/
def bentRun : RunContext :=
  { state := .suspended .operator, retie := false, furthest := some 19999, mark1 := none, mark2 := none, trimFrom := 0, trimTo := 0, rampStart := 0 }

def bentActive : Line :=
  { id := 1, label := none, outlet := none, lifecycle := .active bentRun (some bentStaged), status := .checked, revision := 0
    profile := bentProfile.map (fun q => { point := q, closure := none }), spans := [bentSpan] }

/-- The last strike of the serving station. -/
def bentStrike : Strike := { time := 0, reading := .edgeLow }

/-- A RESUME is in hand with the position at the breakpoint, one above F. The chainage is marked unknown and a span is held all the same: no
row leads to that (R98, R134), but the statement does not ask that it be known. -/
def unknownResume : State :=
  { State.reset with
    store := { Store.reset with lines := [bentActive] }
    cab := { PortState.reset with buffer := { chars := "RESUME".toList, bad := false, tooLong := false } }
    link := { Link.reset with live := Link.reset.live.set .s2 { last := some bentStrike, accepted := 1 } }
    chain := { Chain.reset with known := false, position := 20000000 }
    eval := { Evaluator.reset with serving := some 0 } }

/-- The state to which it leads. -/
def unknownResumed : State :=
  match exec (.resume .cab []) unknownResume with
  | .next t => t
  | _ => unknownResume

theorem unknownResume_ready : unknownResume.ready .cab (.resume .cab []) := by decide

theorem exec_unknownResume : exec (.resume .cab []) unknownResume = .next unknownResumed := rfl

/-- The application on the way leaves no span serving, as the chainage is unknown. -/
theorem unknownResumed_serving : unknownResumed.eval.serving = none := by decide

theorem unknownResume_tests : unknownResume.active? = some bentActive ∧ bentActive.run? = some bentRun ∧ bentRun.furthest = some 19999
    ∧ bentRun.state.isStopped = true ∧ bentRun.retie = false ∧ bentActive.status = .checked ∧ unknownResume.chainage = 20000
    ∧ unknownResume.servingStation? = some .s2 ∧ unknownResume.lastStrike? .s2 = some bentStrike
    ∧ unknownResume.time - bentStrike.time ≤ unknownResume.settings.strikeTimeout.toNat
    ∧ unknownResume.eval.serving = some (spanIndex bentActive.spans unknownResume.chainage) := by decide

/-- Refutes O52: with the chainage marked unknown, the revision that the RESUME applies on its way leaves no span serving, where the statement
asks for the span of the new list that covers the chainage. -/
theorem not_resumeCutsAgain : ¬ Obligations.ResumeCutsAgain := by
  intro h
  obtain ⟨ha, hr, hf, hstopped, hretie, hchecked, hchainage, hstation, hstrike, hfresh, hserving⟩ := unknownResume_tests
  obtain ⟨-, hrest⟩ := h bentActive bentRun 19999 unknownResume unknownResume_ready ha hr hf
  obtain ⟨-, hrest⟩ := hrest hstopped
  obtain ⟨-, hrest⟩ := hrest hretie
  obtain ⟨-, -, hrest⟩ := hrest hchecked
  obtain ⟨-, -, hdigs⟩ := hrest (by decide) (by decide)
  obtain ⟨t, hexec, -, -, -, hwalk⟩ := hdigs .s2 bentStrike hstation hstrike hfresh (by decide)
  cases hexec.symm.trans exec_unknownResume
  have hpoints : ∀ (j : Nat) (a : Breakpoint), j ≠ 1 → bentActive.profile[j]? = some a → a.point.chainage ≤ 19999 ∨ 20000 < a.point.chainage := by
    intro j a hj haj
    match j, hj, haj with
    | 0, _, haj =>
      cases haj
      decide
    | 2, _, haj =>
      cases haj
      decide
  have happlied := ((hwalk (by decide) hserving).1 1 { point := { chainage := 20000, invert := -1480 }, closure := none } rfl (by decide) (by decide)
    (by decide) (by decide) hpoints (by decide) (fun m hm => (nomatch hm)) (.inr (by decide))).2 bentStaged rfl rfl (by decide) (by decide) (by decide)
    (.inl (by decide)) (by decide)
  obtain ⟨-, -, hserves, -⟩ := happlied
  rw [unknownResumed_serving] at hserves
  cases hserves

end Sys2Proof.Machine
end

section
/-! PROOF. The plan check, item by item (03; R44 to R57). -/
namespace Sys2Proof.Machine

/-! ## The first place at which a test fails -/

/-- The least index at which something holds. -/
def isFirst (bad : Nat → Prop) (k : Nat) : Prop := bad k ∧ ∀ i < k, ¬bad i

theorem isFirst_succ {bad : Nat → Prop} {k : Nat} (h : isFirst bad (k + 1)) : ¬bad 0 ∧ isFirst (fun i => bad (i + 1)) k :=
  ⟨h.2 0 (Nat.succ_pos k), h.1, fun i hi => h.2 (i + 1) (Nat.succ_lt_succ hi)⟩

/-- The segment k of a profile has a property of its two breakpoints. -/
def segmentAt (bad : Point → Point → Prop) (ps : List Point) (k : Nat) : Prop := ∃ a b, ps[k]? = some a ∧ ps[k + 1]? = some b ∧ bad a b

theorem segmentAt_zero {bad : Point → Point → Prop} {p q : Point} {ps : List Point} : segmentAt bad (p :: q :: ps) 0 ↔ bad p q := by
  simp [segmentAt]

theorem segmentAt_succ {bad : Point → Point → Prop} {p : Point} {ps : List Point} (k : Nat) : segmentAt bad (p :: ps) (k + 1) ↔ segmentAt bad ps k := by
  simp [segmentAt]

theorem not_segmentAt_nil {bad : Point → Point → Prop} {k : Nat} : ¬segmentAt bad [] k := by
  simp [segmentAt]

theorem not_segmentAt_singleton {bad : Point → Point → Prop} {p : Point} {k : Nat} : ¬segmentAt bad [p] k := by
  simp [segmentAt]

/-- The first segment that fails gives its start. -/
theorem firstSegment_first {bad : Point → Point → Prop} [∀ p q, Decidable (bad p q)] {ps : List Point} {k : Nat} {a : Point} (ha : ps[k]? = some a)
    (h : isFirst (segmentAt bad ps) k) : firstSegment (fun p q => decide (bad p q)) ps = some a.chainage := by
  induction ps generalizing k with
  | nil => exact absurd h.1 not_segmentAt_nil
  | cons p ps ih =>
    cases ps with
    | nil => exact absurd h.1 not_segmentAt_singleton
    | cons q ps =>
      cases k with
      | zero =>
        cases ha
        rw [firstSegment, if_pos (decide_eq_true (segmentAt_zero.mp h.1))]
      | succ k =>
        obtain ⟨hnot, hrest⟩ := isFirst_succ h
        rw [segmentAt_zero] at hnot
        rw [firstSegment, if_neg (fun hd => hnot (of_decide_eq_true hd))]
        refine ih (k := k) (by simpa using ha) ?_
        simpa only [isFirst, segmentAt_succ] using hrest

theorem firstSegment_none {bad : Point → Point → Prop} [∀ p q, Decidable (bad p q)] {ps : List Point} (h : ∀ k, ¬segmentAt bad ps k) :
    firstSegment (fun p q => decide (bad p q)) ps = none := by
  induction ps with
  | nil => rfl
  | cons p ps ih =>
    cases ps with
    | nil => rfl
    | cons q ps =>
      rw [firstSegment, if_neg (fun hd => h 0 (segmentAt_zero.mpr (of_decide_eq_true hd)))]
      exact ih fun k hk => h (k + 1) ((segmentAt_succ k).mpr hk)

/-- The first breakpoint that is not above the one before it. -/
theorem firstDisorder_first {ps : List Point} {n k : Nat} (h : isFirst (segmentAt (fun a b => b.chainage ≤ a.chainage) ps) k) :
    firstDisorder n ps = some (n + k + 1) := by
  induction ps generalizing n k with
  | nil => exact absurd h.1 not_segmentAt_nil
  | cons p ps ih =>
    cases ps with
    | nil => exact absurd h.1 not_segmentAt_singleton
    | cons q ps =>
      cases k with
      | zero =>
        have hle : q.chainage ≤ p.chainage := segmentAt_zero.mp h.1
        rw [firstDisorder, if_neg (not_lt.mpr hle), Nat.add_zero]
      | succ k =>
        obtain ⟨hnot, hrest⟩ := isFirst_succ h
        rw [segmentAt_zero] at hnot
        rw [firstDisorder, if_pos (not_le.mp hnot), ih (k := k) (by simpa only [isFirst, segmentAt_succ] using hrest)]
        congr 1
        omega

theorem firstDisorder_sorted {ps : List Point} {n : Nat} (h : ∀ k, ¬segmentAt (fun a b => b.chainage ≤ a.chainage) ps k) :
    firstDisorder n ps = none := by
  induction ps generalizing n with
  | nil => rfl
  | cons p ps ih =>
    cases ps with
    | nil => rfl
    | cons q ps =>
      rw [firstDisorder, if_pos (not_le.mp fun hle => h 0 (segmentAt_zero.mpr hle))]
      exact ih fun k hk => h (k + 1) ((segmentAt_succ k).mpr hk)

/-- What SPANS finds wrong of a span, with the span before it (R52). -/
def spanBad (z : Int) (before : Option Span) (x : Span) : Prop :=
  z ≤ x.start ∨ match before with
    | none => x.start ≠ 0
    | some b => x.start ≤ b.start ∨ x.station = b.station

/-- The span before the span k of a list that follows the span `before`. -/
def spanBefore (before : Option Span) (xs : List Span) : Nat → Option Span
  | 0 => before
  | k + 1 => xs[k]?

/-- The span k of such a list fails SPANS. -/
def badSpanAt (z : Int) (before : Option Span) (xs : List Span) (k : Nat) : Prop :=
  ∃ x, xs[k]? = some x ∧ spanBad z (spanBefore before xs k) x

theorem badSpanAt_zero {z : Int} {before : Option Span} {x : Span} {xs : List Span} : badSpanAt z before (x :: xs) 0 ↔ spanBad z before x := by
  simp [badSpanAt, spanBefore]

theorem badSpanAt_succ {z : Int} {before : Option Span} {x : Span} {xs : List Span} (k : Nat) :
    badSpanAt z before (x :: xs) (k + 1) ↔ badSpanAt z (some x) xs k := by
  cases k <;> simp [badSpanAt, spanBefore]

theorem firstBadSpan_cons {z : Int} {n : Nat} {before : Option Span} {x : Span} {xs : List Span} :
    (spanBad z before x → firstBadSpan z n before (x :: xs) = some n)
      ∧ (¬spanBad z before x → firstBadSpan z n before (x :: xs) = firstBadSpan z (n + 1) (some x) xs) := by
  cases before with
  | none =>
    have hbad : (decide (x.start ≠ 0) || decide (z ≤ x.start) || false) = true ↔ spanBad z none x := by
      simp [spanBad, or_comm]
    exact ⟨fun h => if_pos (hbad.mpr h), fun h => if_neg (fun hb => h (hbad.mp hb))⟩
  | some b =>
    have hbad : (decide (x.start ≤ b.start) || decide (z ≤ x.start) || b.station == x.station) = true ↔ spanBad z (some b) x := by
      rw [Bool.or_eq_true, Bool.or_eq_true, decide_eq_true_iff, decide_eq_true_iff, beq_iff_eq, spanBad, eq_comm (a := b.station)]
      tauto
    exact ⟨fun h => if_pos (hbad.mpr h), fun h => if_neg (fun hb => h (hbad.mp hb))⟩

theorem firstBadSpan_first {z : Int} {xs : List Span} {n k : Nat} {before : Option Span} (h : isFirst (badSpanAt z before xs) k) :
    firstBadSpan z n before xs = some (n + k) := by
  induction xs generalizing n k before with
  | nil =>
    obtain ⟨⟨x, hx, -⟩, -⟩ := h
    cases hx
  | cons x xs ih =>
    cases k with
    | zero => exact firstBadSpan_cons.1 (badSpanAt_zero.mp h.1)
    | succ k =>
      obtain ⟨hnot, hrest⟩ := isFirst_succ h
      rw [badSpanAt_zero] at hnot
      rw [firstBadSpan_cons.2 hnot, ih (k := k) (by simpa only [isFirst, badSpanAt_succ] using hrest)]
      congr 1
      omega

theorem firstBadSpan_none {z : Int} {xs : List Span} {n : Nat} {before : Option Span} (h : ∀ k, ¬badSpanAt z before xs k) :
    firstBadSpan z n before xs = none := by
  induction xs generalizing n before with
  | nil => rfl
  | cons x xs ih =>
    rw [firstBadSpan_cons.2 (fun hx => h 0 (badSpanAt_zero.mpr hx))]
    exact ih fun k hk => h (k + 1) ((badSpanAt_succ k).mpr hk)

/-- A slot list has an absent slot at k with a present one above it (R47). -/
def gapAt (held : List Bool) (k : Nat) : Prop := held[k]? = some false ∧ ∃ j, k < j ∧ held[j]? = some true

theorem getElem?_isSome {α : Type} {slots : List (Option α)} {k : Nat} {b : Bool} :
    (slots.map Option.isSome)[k]? = some b ↔ ∃ h : k < slots.length, slots[k].isSome = b := by
  rw [List.getElem?_map, Option.map_eq_some_iff]
  constructor
  · rintro ⟨x, hx, rfl⟩
    obtain ⟨h, rfl⟩ := List.getElem?_eq_some_iff.mp hx
    exact ⟨h, rfl⟩
  · rintro ⟨h, rfl⟩
    exact ⟨_, List.getElem?_eq_getElem h, rfl⟩

theorem gapOf_first {α : Type} {slots : List (Option α)} {k : Nat} (h : isFirst (gapAt (slots.map Option.isSome)) k) : gapOf slots = some k := by
  obtain ⟨⟨hk, j, hkj, hj⟩, hleast⟩ := h
  obtain ⟨hlt, hnone⟩ := getElem?_isSome.mp hk
  obtain ⟨hjlt, hsome⟩ := getElem?_isSome.mp hj
  have hfind : slots.findIdx Option.isNone = k := by
    refine (List.findIdx_eq hlt).mpr ⟨by simpa using hnone, fun i hi => ?_⟩
    by_contra hne
    refine hleast i hi ⟨getElem?_isSome.mpr ⟨hi.trans hlt, ?_⟩, j, hi.trans hkj, hj⟩
    simpa using hne
  rw [gapOf, hfind]
  refine if_pos (List.any_eq_true.mpr ⟨slots[j], ?_, hsome⟩)
  exact List.mem_drop_iff_getElem.mpr ⟨j - k, by omega, by simp [show k + (j - k) = j by omega]⟩

theorem gapOf_none {α : Type} {slots : List (Option α)} (h : ∀ k, ¬gapAt (slots.map Option.isSome) k) : gapOf slots = none := by
  refine if_neg fun hany => ?_
  obtain ⟨x, hx, hsome⟩ := List.any_eq_true.mp hany
  obtain ⟨i, hi, rfl⟩ := List.mem_drop_iff_getElem.mp hx
  have hlt : slots.findIdx Option.isNone < slots.length := by omega
  have hnone : slots[slots.findIdx Option.isNone].isNone = true := List.findIdx_getElem (w := hlt)
  have hpos : i ≠ 0 := fun h0 => by
    subst h0
    rw [← Option.not_isSome, show slots[slots.findIdx Option.isNone].isSome = true from hsome] at hnone
    cases hnone
  exact h _ ⟨getElem?_isSome.mpr ⟨hlt, by simpa using hnone⟩, slots.findIdx Option.isNone + i, by omega, getElem?_isSome.mpr ⟨by omega, hsome⟩⟩

/-! ## The items over the lists (R46 to R52) -/

theorem countTest_points {u : Subject} (h : ¬(2 ≤ u.points.length ∧ u.points.length ≤ 64)) :
    countTest u = failAt .count (.breakpoint u.points.length) := if_pos h

theorem countTest_spans {u : Subject} (h1 : 2 ≤ u.points.length) (h2 : u.points.length ≤ 64) (h : ¬(1 ≤ u.spans.length ∧ u.spans.length ≤ 6)) :
    countTest u = failAt .count (.span u.spans.length) := (if_neg (not_not_intro ⟨h1, h2⟩)).trans (if_pos h)

theorem countTest_passes {u : Subject} (h1 : 2 ≤ u.points.length) (h2 : u.points.length ≤ 64) (h3 : 1 ≤ u.spans.length) (h4 : u.spans.length ≤ 6) :
    countTest u = none := (if_neg (not_not_intro ⟨h1, h2⟩)).trans (if_neg (not_not_intro ⟨h3, h4⟩))

theorem holeTest_subject (d : Draft) (id : Nat) :
    (∀ k, isFirst (gapAt (d.points.map Option.isSome)) k → holeTest (d.subject id) = failAt .hole (.breakpoint k))
      ∧ ((∀ k, ¬gapAt (d.points.map Option.isSome) k) →
        (∀ k, isFirst (gapAt (d.spans.map Option.isSome)) k → holeTest (d.subject id) = failAt .hole (.span k))
        ∧ ((∀ k, ¬gapAt (d.spans.map Option.isSome) k) → holeTest (d.subject id) = none)) := by
  have hpoints : (d.subject id).pointGap = gapOf d.points := rfl
  have hspans : (d.subject id).spanGap = gapOf d.spans := rfl
  refine ⟨fun k h => ?_, fun hp => ⟨fun k h => ?_, fun h => ?_⟩⟩
  · rw [holeTest, hpoints, gapOf_first h]
  · rw [holeTest, hpoints, gapOf_none hp, hspans, gapOf_first h]
  · rw [holeTest, hpoints, gapOf_none hp, hspans, gapOf_none h]

theorem orderTest_start {u : Subject} {a : Point} (ha : u.points[0]? = some a) (h : a.chainage ≠ 0) : orderTest u = failAt .order (.breakpoint 0) := by
  rw [orderTest]
  cases hp : u.points with
  | nil => simp [hp] at ha
  | cons p ps =>
    rw [hp] at ha
    cases ha
    exact if_pos h

theorem orderTest_first {u : Subject} {a : Point} (ha : u.points[0]? = some a) (h : a.chainage = 0) :
    orderTest u = (firstDisorder 0 u.points).bind (fun k => failAt .order (.breakpoint k)) := by
  rw [orderTest]
  cases hp : u.points with
  | nil => simp [hp] at ha
  | cons p ps =>
    rw [hp] at ha
    cases ha
    dsimp only
    rw [if_neg (not_not_intro h)]
    cases firstDisorder 0 (a :: ps) <;> rfl

theorem lengthOf_getLast? {ps : List Point} {z : Point} (h : ps.getLast? = some z) : lengthOf ps = z.chainage := by
  rw [lengthOf, h]

theorem spansBad_iff {z : Int} {xs : List Span} {k : Nat} : badSpanAt z none xs k ↔ ∃ x, xs[k]? = some x ∧ ((k = 0 ∧ x.start ≠ 0) ∨ z ≤ x.start
    ∨ ∃ i y, k = i + 1 ∧ xs[i]? = some y ∧ (x.start ≤ y.start ∨ x.station = y.station)) := by
  refine exists_congr fun x => and_congr_right fun hx => ?_
  cases k with
  | zero => simp [spanBad, spanBefore, or_comm]
  | succ k =>
    have hlt : k < xs.length := by
      have := (List.getElem?_eq_some_iff.mp hx).1
      omega
    simp [spanBad, spanBefore, List.getElem?_eq_getElem hlt]

/-! ## The items over the store (R53 to R57) -/

theorem Station.isInService_iff {x : Station} : x.isInService = true ↔ ∃ d, x = .inService d := by
  cases x <;> simp [Station.isInService]

theorem stationTest_iff (st : Store) (k : Nat) (x : Span) : ((∃ d, st.stations.get x.station = .inService d) → stationTest st k x = none)
    ∧ ((∀ d, st.stations.get x.station ≠ .inService d) → stationTest st k x = failAt .station (.span k)) :=
  ⟨fun h => if_pos (Station.isInService_iff.mpr h), fun h => if_neg fun hs => by
    obtain ⟨d, hd⟩ := Station.isInService_iff.mp hs
    exact h d hd⟩

/-- The children of a line come in ascending id: the one of the least id is the first (R56). -/
theorem Store.children_first {st : Store} (hids : st.idsAscending) {id : Nat} {k : Line} (hk : k ∈ st.lines) (hp : k.parent? = some id)
    (hleast : ∀ m ∈ st.lines, m.parent? = some id → k.id ≤ m.id) : ∃ rest, st.children id = k :: rest := by
  have hmem : k ∈ st.children id := List.mem_filter.mpr ⟨hk, by simp [hp]⟩
  cases hc : st.children id with
  | nil =>
    rw [hc] at hmem
    cases hmem
  | cons m rest =>
    have hm : m ∈ st.children id := hc ▸ List.mem_cons_self
    obtain ⟨hml, hmp⟩ := List.mem_filter.mp hm
    refine ⟨rest, ?_⟩
    rw [hc] at hmem
    rcases List.mem_cons.mp hmem with rfl | hrest
    · rfl
    · have hsorted : (m :: rest).Pairwise (fun a b : Line => a.id < b.id) := by
        rw [← hc]
        exact List.Pairwise.filter _ (List.pairwise_map.mp hids)
      have hlt := (List.pairwise_cons.mp hsorted).1 k hrest
      exact absurd hlt (not_lt.mpr (hleast m hml (beq_iff_eq.mp hmp)))

theorem moveTest_fails {st : Store} {u : Subject} (hids : st.idsAscending) {k l : Line} (hk : k ∈ st.lines) (hp : k.parent? = some u.id)
    (hleast : ∀ m ∈ st.lines, m.parent? = some u.id → k.id ≤ m.id) (hl : st.line? u.id = some l) (hmoved : l.parent? ≠ u.parent) :
    moveTest st u = failAt .parent (.line k.id) := by
  obtain ⟨rest, hc⟩ := Store.children_first hids hk hp hleast
  rw [moveTest, hl]
  dsimp only
  rw [if_neg hmoved, hc]

theorem moveTest_passes {st : Store} {u : Subject}
    (h : st.line? u.id = none ∨ (∀ k ∈ st.lines, k.parent? ≠ some u.id) ∨ ∀ l, st.line? u.id = some l → l.parent? = u.parent) : moveTest st u = none := by
  rw [moveTest]
  cases hl : st.line? u.id with
  | none => rfl
  | some l =>
    dsimp only
    rcases h with h | h | h
    · rw [hl] at h
      cases h
    · have hc : st.children u.id = [] := List.filter_eq_nil_iff.mpr fun k hk => by simpa using h k hk
      rw [hc]
      split <;> rfl
    · rw [if_pos (h l hl)]

/-- A subject without a parent passes PARENT and JUNCTION (R56, R57). -/
theorem forest_of_root {st : Store} {u : Subject} (h : u.parent = none) : parentExistsTest st u = none ∧ parentAbandonedTest st u = none
    ∧ cycleAndLevelTest st u = none ∧ junctionPresentTest u = none ∧ junctionRangeTest st u = none ∧ dropTest st u = none := by
  have hon : junctionOn st u = none := by rw [junctionOn, h, Option.bind_none]
  refine ⟨?_, ?_, ?_, ?_, ?_, ?_⟩
  · rw [parentExistsTest, h]
  · rw [parentAbandonedTest, h]
  · rw [cycleAndLevelTest, h]
  · rw [junctionPresentTest, h]
    rfl
  · rw [junctionRangeTest, hon]
  · rw [dropTest, hon]

theorem parentAbandonedTest_of {st : Store} {u : Subject} {p : Nat} {l : Line} (hp : u.parent = some p) (hl : st.line? p = some l) :
    (l.lifecycle = .abandoned → parentAbandonedTest st u = failAt .parent (.line p))
      ∧ (l.lifecycle ≠ .abandoned → parentAbandonedTest st u = none) := by
  rw [parentAbandonedTest, hp]
  dsimp only
  rw [hl]
  dsimp only
  cases l.lifecycle <;> simp [Lifecycle.kind]

theorem cycleAndLevelTest_of {st : Store} {u : Subject} {p : Nat} {ids : List Nat} (hp : u.parent = some p)
    (hc : st.chainUp Config.maxLevels p = ids) : cycleAndLevelTest st u = if ids.contains u.id then failAt .parent (.line u.id)
      else if 3 ≤ ids.length then failAt .parent (.line p) else none := by
  rw [cycleAndLevelTest, hp]
  dsimp only
  rw [hc]
  rfl

/-- PARENT test 4, up the chain of parents (R56). -/
theorem cycleAndLevelTest_chain {st : Store} {u : Subject} {p : Nat} {l : Line} (hp : u.parent = some p) (hl : st.line? p = some l) :
    (p = u.id → cycleAndLevelTest st u = failAt .parent (.line u.id))
      ∧ (p ≠ u.id → (l.parent? = none → cycleAndLevelTest st u = none)
        ∧ (∀ g m, l.parent? = some g → st.line? g = some m →
          (g = u.id → cycleAndLevelTest st u = failAt .parent (.line u.id))
          ∧ (g ≠ u.id → (m.parent? = none → cycleAndLevelTest st u = none)
            ∧ (∀ h n, m.parent? = some h → st.line? h = some n →
              cycleAndLevelTest st u = failAt .parent (.line (if h = u.id then u.id else p)))))) := by
  have hchain := cycleAndLevelTest_of hp (Store.chainUp_succ hl 2)
  refine ⟨fun he => ?_, fun hne => ⟨fun hroot => ?_, fun g m hg hm => ⟨fun he => ?_, fun hgne => ⟨fun hroot => ?_, fun h n hh hn => ?_⟩⟩⟩⟩
  · rw [hchain, if_pos (by simp [he])]
  · rw [hchain, hroot]
    simp [Ne.symm hne]
  · rw [hchain, hg, Option.map_some, Option.getD_some, Store.chainUp_succ hm]
    simp [he]
  · rw [hchain, hg, Option.map_some, Option.getD_some, Store.chainUp_succ hm, hroot]
    simp [Ne.symm hne, Ne.symm hgne]
  · rw [hchain, hg, Option.map_some, Option.getD_some, Store.chainUp_succ hm, hh, Option.map_some, Option.getD_some, Store.chainUp_succ hn]
    have htop : (n.parent?.map (st.chainUp 0)).getD [] = [] := by cases n.parent? <;> rfl
    rw [htop]
    by_cases he : h = u.id
    · simp [he]
    · simp [Ne.symm hne, Ne.symm hgne, he, Ne.symm he]

theorem junctionOn_of {st : Store} {u : Subject} {p : Nat} {l : Line} {j : Int} (hp : u.parent = some p) (hl : st.line? p = some l)
    (hj : u.junction = some j) : junctionOn st u = some (l, j) := by
  rw [junctionOn, hp, Option.bind_some, hl, Option.bind_some, hj]
  rfl

theorem junctionPresentTest_of {u : Subject} {p : Nat} (hp : u.parent = some p) : (u.junction = none → junctionPresentTest u = failAt .junction .nowhere)
    ∧ ∀ j, u.junction = some j → junctionPresentTest u = none := by
  refine ⟨fun h => ?_, fun j h => ?_⟩ <;> rw [junctionPresentTest, hp, h] <;> rfl

/-! ## The order of the items (R45, R54) -/

/-- Where the span i of a list ends: at the start of the next, or at the length. -/
def stopOf (pts : List Point) (xs : List Span) (i : Nat) : Int :=
  match xs[i + 1]? with
  | some y => y.start
  | none => lengthOf pts

theorem evaluationPoints_cons (pts : List Point) (x : Span) (xs : List Span) :
    evaluationPoints pts (x :: xs) = spanPoints pts x (stopOf pts (x :: xs) 0) ++ evaluationPoints pts xs := by
  cases xs with
  | nil => simp [evaluationPoints, stopOf]
  | cons y ys => rfl

theorem evaluationPoints_eq (pts : List Point) (xs : List Span) :
    evaluationPoints pts xs = (xs.zipIdx.map (fun e => spanPoints pts e.1 (stopOf pts xs e.2))).flatten := by
  induction xs with
  | nil => rfl
  | cons x xs ih =>
    rw [evaluationPoints_cons, ih, List.zipIdx_cons', List.map_cons, List.flatten_cons, List.map_map]
    rfl

/-- The clearance items of one span. -/
def clearsOf (pts : List Point) (x : Span) (stop : Int) : List CheckTest :=
  .clear x.start x :: ((pts.filter (fun a => decide (x.start < a.chainage ∧ a.chainage < stop))).map (fun a => .clear a.chainage x) ++ [.clear stop x])

theorem Subject.clearTests_eq (u : Subject) :
    u.clearTests = (u.spans.zipIdx.map (fun e => clearsOf u.points e.1 (stopOf u.points u.spans e.2))).flatten := by
  rw [Subject.clearTests, evaluationPoints_eq, List.map_flatten, List.map_map]
  refine congrArg List.flatten (List.map_congr_left fun e _ => ?_)
  simp [spanPoints, clearsOf]

theorem Subject.tests_eq (u : Subject) : u.tests
    = .count :: ((if u.commit then [.hole] else []) ++ [.order, .spacing, .length, .fall, .spans]) ++ u.spans.zipIdx.map (fun e => .station e.2 e.1)
      ++ (u.spans.zipIdx.map (fun e => clearsOf u.points e.1 (stopOf u.points u.spans e.2))).flatten
      ++ ((if u.commit then [.move] else [])
        ++ [.parentExists, .parentAbandoned, .cycleAndLevel, .junctionPresent, .junctionRange, .drop]) := by
  rw [Subject.tests, Subject.holeTests, Subject.stationTests, Subject.moveTests, u.clearTests_eq, forestTests]
  simp

/-! ## The items together -/

/-- SPACING and FALL, as the first segment that fails them (R49, R51). -/
theorem segmentItems (st : Store) (u : Subject) :
    let spaced := segmentAt (fun a b => b.chainage - a.chainage < 1000) u.points
    let falls := segmentAt (fun a b => (b.invert - a.invert) * 1000000 < st.settings.minFall * (b.chainage - a.chainage)) u.points
    (∀ k a, u.points[k]? = some a → (isFirst spaced k → spacingTest u = failAt .spacing (.chainage a.chainage))
        ∧ (isFirst falls k → fallTest st u = failAt .fall (.chainage a.chainage)))
      ∧ ((∀ k, ¬spaced k) → spacingTest u = none) ∧ ((∀ k, ¬falls k) → fallTest st u = none) := by
  intro spaced falls
  refine ⟨fun k a ha => ⟨fun h => ?_, fun h => ?_⟩, fun h => ?_, fun h => ?_⟩
  · rw [spacingTest, firstSegment_first ha h, Option.bind_some]
  · rw [fallTest, firstSegment_first ha h, Option.bind_some]
  · rw [spacingTest, firstSegment_none h, Option.bind_none]
  · rw [fallTest, firstSegment_none h, Option.bind_none]

/-- LENGTH and SPANS, against the chainage of the last breakpoint (R50, R52). -/
theorem lengthItems {u : Subject} {z : Point} (hz : u.points.getLast? = some z) :
    (¬(5000 ≤ z.chainage ∧ z.chainage ≤ 1200000) → lengthTest u = failAt .length (.chainage z.chainage))
      ∧ (5000 ≤ z.chainage → z.chainage ≤ 1200000 → lengthTest u = none)
      ∧ (∀ k, isFirst (badSpanAt z.chainage none u.spans) k → spansTest u = failAt .spans (.span k))
      ∧ ((∀ k, ¬badSpanAt z.chainage none u.spans k) → spansTest u = none) := by
  have hlength := lengthOf_getLast? hz
  refine ⟨fun h => ?_, fun h1 h2 => ?_, fun k h => ?_, fun h => ?_⟩
  · rw [lengthTest, hlength, if_neg (fun hw => h (within_iff.mp hw))]
  · rw [lengthTest, hlength, if_pos (within_iff.mpr ⟨h1, h2⟩)]
  · rw [spansTest, hlength, firstBadSpan_first h, Nat.zero_add, Option.bind_some]
  · rw [spansTest, hlength, firstBadSpan_none h, Option.bind_none]

/-- The clearance at an evaluation point (R55). -/
theorem clearItems (st : Store) (u : Subject) (c : Int) (x : Span) :
    let clearance := effectivePlane st x c - invertAt u.points c
    (clearance < st.settings.mast - st.settings.clearBand → clearTest st u c x = failAt .clearLow (.chainage c))
      ∧ (st.settings.mast - st.settings.clearBand ≤ clearance →
        (st.settings.mast + st.settings.clearBand < clearance → clearTest st u c x = failAt .clearHigh (.chainage c))
        ∧ (clearance ≤ st.settings.mast + st.settings.clearBand → clearTest st u c x = none)) :=
  ⟨fun h => if_pos h, fun h => ⟨fun h' => (if_neg (not_lt.mpr h)).trans (if_pos h'), fun h' => (if_neg (not_lt.mpr h)).trans (if_neg (not_lt.mpr h'))⟩⟩

/-- JUNCTION, with a parent that is a record (R57). -/
theorem junctionItems {st : Store} {u : Subject} {p : Nat} {l : Line} (hp : u.parent = some p) (hl : st.line? p = some l) {j : Int}
    (hj : u.junction = some j) :
    (¬(0 ≤ j ∧ j ≤ l.length) → junctionRangeTest st u = failAt .junction (.chainage j))
      ∧ (0 ≤ j → j ≤ l.length → junctionRangeTest st u = none)
      ∧ ∀ a, u.points[0]? = some a →
        (a.invert - invertAt l.points j < st.settings.junctionDrop → dropTest st u = failAt .junction (.chainage j))
        ∧ (st.settings.junctionDrop ≤ a.invert - invertAt l.points j → dropTest st u = none) := by
  have hon := junctionOn_of hp hl hj
  refine ⟨fun h => ?_, fun h1 h2 => ?_, fun a ha => ?_⟩
  · rw [junctionRangeTest, hon]
    exact if_neg (fun hw => h (within_iff.mp hw))
  · rw [junctionRangeTest, hon]
    exact if_pos (within_iff.mpr ⟨h1, h2⟩)
  · rw [dropTest, hon, List.head?_eq_getElem?, ha]
    exact ⟨fun h => if_pos h, fun h => if_neg (not_lt.mpr h)⟩

/-- A check goes on with the tests it has not made, unless one has failed (R43). -/
theorem CheckRun.result_of (c : CheckRun) (st : Store) (u : Subject) : (∀ f, c.failure = some f → c.result st u = some f)
    ∧ (c.failure = none → c.result st u = (u.tests.drop c.made).findSome? (fun t => t.run st u)) := by
  refine ⟨fun f h => ?_, fun h => ?_⟩
  · rw [CheckRun.result, h]
  · rw [CheckRun.result, h]
    rfl

/-- Settles O30: each item by its own law, and their order. -/
theorem planCheckTestsItsItems : Obligations.PlanCheckTestsItsItems := by
  intro st u fails passes first segment
  obtain ⟨hsegments, hspaced, hfalls⟩ := segmentItems st u
  refine ⟨countTest_points, fun h1 h2 => ⟨countTest_spans h1 h2, countTest_passes h1 h2⟩, fun d id hu => ?_, fun l hu => ?_,
    fun a ha => orderTest_start ha, fun a ha h0 => ⟨fun k h => ?_, fun h => ?_⟩, hsegments, hspaced, hfalls, fun z hz => ?_,
    stationTest_iff st, clearItems st u, fun hids k hk hp hleast l hl => moveTest_fails hids hk hp hleast hl, moveTest_passes, fun h => forest_of_root h,
    fun p hp => ⟨fun hnone => ?_, fun l hl => ⟨?_, ?_, ?_, ?_, ?_, ?_, fun j hj => ?_⟩⟩, u.tests_eq, fun c => c.result_of st u⟩
  · subst hu
    exact ⟨rfl, rfl, rfl, rfl, rfl, rfl, holeTest_subject d id⟩
  · subst hu
    exact ⟨rfl, rfl, rfl, rfl, rfl, rfl⟩
  · show orderTest u = _
    rw [orderTest_first ha h0, firstDisorder_first h, Nat.zero_add, Option.bind_some]
    rfl
  · show orderTest u = none
    rw [orderTest_first ha h0, firstDisorder_sorted h, Option.bind_none]
  · obtain ⟨h1, h2, h3, h4⟩ := lengthItems hz
    have hbad := funext fun k => propext (spansBad_iff (z := z.chainage) (xs := u.spans) (k := k))
    rw [hbad] at h3 h4
    exact ⟨h1, h2, h3, h4⟩
  · show parentExistsTest st u = _
    rw [parentExistsTest, hp]
    exact if_neg (by simp [hnone])
  · show parentExistsTest st u = none
    rw [parentExistsTest, hp]
    exact if_pos (by simp [hl])
  · exact (parentAbandonedTest_of hp hl).1
  · exact (parentAbandonedTest_of hp hl).2
  · exact (cycleAndLevelTest_chain hp hl).1
  · exact (cycleAndLevelTest_chain hp hl).2
  · exact (junctionPresentTest_of hp).1
  · obtain ⟨h1, h2, h3⟩ := junctionItems hp hl hj
    exact ⟨(junctionPresentTest_of hp).2 j hj, h1, h2, h3⟩

end Sys2Proof.Machine
end

section
/-! PROOF. The text of a command line is read back as the same row (10, 12; R163, R164). -/
namespace Sys2Proof.Machine

/-! ## Words and their text -/

theorem goodWord_iff {w : Text} : goodWord w = true ↔ w ≠ [] ∧ ∀ c ∈ w, 33 ≤ c.toNat ∧ c.toNat ≤ 126 := by
  simp [goodWord, List.isEmpty_eq_false_iff]

/-- A word of a line holds no space. -/
theorem goodWord_no_space {w : Text} (h : goodWord w = true) : ∀ c ∈ w, c ≠ ' ' := by
  rintro c hc rfl
  exact absurd ((goodWord_iff.mp h).2 ' ' hc).1 (by decide)

/-- Characters that are not spaces are taken to the word being read. -/
theorem splitFrom_append {w : Text} (h : ∀ c ∈ w, c ≠ ' ') (cur rest : Text) : splitFrom cur (w ++ rest) = splitFrom (cur ++ w) rest := by
  induction w generalizing cur with
  | nil => rw [List.nil_append, List.append_nil]
  | cons c w ih =>
    rw [List.cons_append, splitFrom, if_neg (h c List.mem_cons_self), ih (fun d hd => h d (List.mem_cons_of_mem c hd)), List.append_assoc]
    rfl

theorem consWord_good {w : Text} (h : goodWord w = true) (ws : List Text) : consWord w ws = w :: ws :=
  if_neg (by simpa using (goodWord_iff.mp h).1)

theorem splitFrom_space (cur rest : Text) : splitFrom cur (' ' :: rest) = consWord cur (splitFrom [] rest) := if_pos rfl

/-- Words joined by single spaces are the words of their text (R164). -/
theorem splitWords_joinWords {ws : List Text} (h : ∀ w ∈ ws, goodWord w = true) : splitWords (joinWords ws) = ws := by
  induction ws with
  | nil => rfl
  | cons w ws ih =>
    have hw := h w List.mem_cons_self
    have htake := splitFrom_append (goodWord_no_space hw) []
    cases ws with
    | nil =>
      have hend := htake []
      rw [List.append_nil, List.nil_append] at hend
      show splitFrom [] w = [w]
      rw [hend]
      exact consWord_good hw []
    | cons v vs =>
      show splitFrom [] (w ++ ' ' :: joinWords (v :: vs)) = _
      rw [htake, List.nil_append, splitFrom_space, consWord_good hw]
      exact congrArg (List.cons w) (ih fun x hx => h x (List.mem_cons_of_mem w hx))

/-! ## The row that the words name (R164) -/

/-- A well-formed row of a command line has words that fit a line. -/
theorem lineFits_of_wellFormed {i : Instr} {x : Port × List Text} (hw : WellFormed i = true) (h : i.words = some x) : lineFits i = true := by
  cases i
  case unknownCommand | stationDefine | stationPlane | stationWithdraw | stationRestore | stationForget | stationRead =>
    exact (Bool.and_eq_true_iff.mp hw).1
  all_goals
    cases h <;> exact hw

theorem goodWords_of_wellFormed {i : Instr} {p : Port} {ws : List Text} (hw : WellFormed i = true) (h : i.words = some (p, ws)) :
    ∀ w ∈ ws, goodWord w = true := by
  have hfits := lineFits_of_wellFormed hw h
  rw [lineFits, h] at hfits
  exact List.all_eq_true.mp (Bool.and_eq_true_iff.mp (Bool.and_eq_true_iff.mp hfits).1).2

/-- A word that is not a keyword of the table finds no row. -/
theorem findRow_of_not_named {rows : List (String × (Port → List Text → Instr))} {w : Text} (h : namedIn rows w = false) : findRow rows w = none := by
  cases hf : findRow rows w with
  | none => rfl
  | some row => simp [namedIn, hf] at h

theorem decodeTwoWords_unknown {rows : List (String × (Port → List Text → Instr))} {c : Text} {rest : List Text}
    (h : rest.head?.any (namedIn rows) = false) (p : Port) : decodeTwoWords rows p c rest = .unknownCommand p (c :: rest) := by
  cases rest with
  | nil => rfl
  | cons v args => rw [decodeTwoWords, findRow_of_not_named h]

/-- Words that name no command are UNKNOWN_COMMAND. -/
theorem decodeWords_unknown {ws : List Text} (h : namesNoCommand ws = true) (p : Port) : decodeWords p ws = .unknownCommand p ws := by
  cases ws with
  | nil => cases h
  | cons c rest =>
    rw [namesNoCommand] at h
    rw [decodeWords]
    split at h
    · cases h
    rename_i hstation
    rw [if_neg hstation]
    split at h
    · rename_i hhead
      rw [if_pos hhead]
      exact decodeTwoWords_unknown (by simpa using h) p
    rename_i hhead
    rw [if_neg hhead]
    split at h
    · rename_i hzero
      rw [if_pos hzero]
      refine decodeTwoWords_unknown ?_ p
      cases rest with
      | nil => rfl
      | cons v args => simpa [namedIn, findRow] using h
    rename_i hzero
    rw [if_neg hzero, findRow_of_not_named (by simpa using h)]

/-- STATION without a verb is the read. -/
theorem decodeStation_read {args : List Text} (h : (args.drop 1).head?.any (namedIn stationVerbs) = false) (p : Port) :
    decodeStation p args = .stationRead p args := by
  match args, h with
  | [], _ => rfl
  | [_], _ => rfl
  | n :: v :: rest, h => rw [decodeStation, findRow_of_not_named h]

/-- The words of a well-formed row name the row. -/
theorem decodeWords_words {i : Instr} {p : Port} {ws : List Text} (hw : WellFormed i = true) (h : i.words = some (p, ws)) : decodeWords p ws = i := by
  cases i
  case unknownCommand q vs =>
    cases h
    exact decodeWords_unknown (Bool.and_eq_true_iff.mp hw).2 _
  case stationRead q args =>
    cases h
    have hread := (Bool.and_eq_true_iff.mp hw).2
    exact decodeStation_read (by simpa using hread) _
  case stationDefine q args | stationPlane q args | stationWithdraw q args | stationRestore q args | stationForget q args =>
    cases h
    have hargs : (!args.isEmpty) = true := (Bool.and_eq_true_iff.mp hw).2
    cases args with
    | nil => exact absurd hargs Bool.false_ne_true
    | cons n rest => rfl
  all_goals
    cases h <;> rfl

/-- Settles O14: the words of the text are the row's words, and name the row. -/
theorem lineTextReadsBack : Obligations.LineTextReadsBack := by
  intro i p b hw hb
  obtain ⟨⟨q, ws⟩, hwords, hbuffer⟩ := Option.map_eq_some_iff.mp hb
  cases hbuffer
  show decodeWords q (splitWords (joinWords ws)) = i
  rw [splitWords_joinWords (goodWords_of_wellFormed hw hwords), decodeWords_words hw hwords]

end Sys2Proof.Machine
end
